-- ==== Sys2Proof/Word.lean ====
section
/-!
DEFINITION. The word types, little-endian byte strings (R8), and the one sparse map that every addressed
array of the device is held in.
-/
namespace Sys2Proof

abbrev Byte := BitVec 8
abbrev Bytes := List Byte

/-- A sparse array: (index, value) pairs with strictly rising indices, no listed value equal to the array's default. -/
abbrev Sparse (α : Type) := List (Nat × α)

namespace Sparse
variable {α : Type}

/-- The value at index `k`; `d` where none is listed. -/
def get (d : α) : Sparse α → Nat → α
  | [], _ => d
  | (j, v) :: m, k => if k = j then v else get d m k

/-- Remove index `k`. -/
def erase (m : Sparse α) (k : Nat) : Sparse α := m.filter (fun e => e.1 ≠ k)

/-- Insert a listed value at its place in the order. -/
def insert : Sparse α → Nat → α → Sparse α
  | [], k, v => [(k, v)]
  | (j, w) :: m, k, v => if k < j then (k, v) :: (j, w) :: m else if k = j then (k, v) :: m else (j, w) :: insert m k v

/-- Write `v` at `k`, keeping the canonical form. -/
def set [DecidableEq α] (d : α) (m : Sparse α) (k : Nat) (v : α) : Sparse α :=
  if v = d then erase m k else insert (erase m k) k v

/-- Replace the value at `k` by its image under `f`. -/
def update [DecidableEq α] (d : α) (m : Sparse α) (k : Nat) (f : α → α) : Sparse α := set d m k (f (get d m k))

/-- The listed pairs of consecutive values `vs` from index `a`, defaults left out. -/
def run [DecidableEq α] (d : α) : Nat → List α → Sparse α
  | _, [] => []
  | a, v :: vs => if v = d then run d (a + 1) vs else (a, v) :: run d (a + 1) vs

/-- Write the consecutive values `vs` from index `a`. -/
def setRun [DecidableEq α] (d : α) (m : Sparse α) (a : Nat) (vs : List α) : Sparse α :=
  m.filter (fun e => e.1 < a) ++ run d a vs ++ m.filter (fun e => a + vs.length ≤ e.1)

/-- The `n` consecutive values from index `a`. -/
def getRun (d : α) (m : Sparse α) (a n : Nat) : List α :=
  let near := m.filter (fun e => a ≤ e.1 ∧ e.1 < a + n)
  (List.range n).map (fun i => get d near (a + i))

/-- Strictly rising indices, all at least `lo`, and no value equal to the default. -/
def wfFrom [DecidableEq α] (d : α) : Nat → Sparse α → Bool
  | _, [] => true
  | lo, (j, v) :: m => decide (lo ≤ j) && decide (v ≠ d) && wfFrom d (j + 1) m

/-- The canonical form. -/
def wf [DecidableEq α] (d : α) (m : Sparse α) : Bool := wfFrom d 0 m

end Sparse

/-- The little-endian number a byte string spells (R8). -/
def leNat : Bytes → Nat
  | [] => 0
  | b :: bs => b.toNat + 256 * leNat bs

/-- The `n` little-endian bytes of a number (R8). -/
def leBytes : Nat → Nat → Bytes
  | 0, _ => []
  | n + 1, w => BitVec.ofNat 8 w :: leBytes n (w / 256)

/-- The big-endian number a byte string spells (fields of a cryptographic standard). -/
def beNat (bs : Bytes) : Nat := leNat bs.reverse

/-- Bits `hi` down to `lo` of a number. -/
def bitsNat (w hi lo : Nat) : Nat := (w >>> lo) % 2 ^ (hi + 1 - lo)

/-- One bit of a number. -/
def bitNat (w i : Nat) : Bool := w.testBit i

/-- Number of a truth value. -/
def b2n (b : Bool) : Nat := if b then 1 else 0

/-- Saturating count in `w` bits. -/
def satAdd (w a n : Nat) : Nat := min (a + n) (2 ^ w - 1)

/-- Round a quotient up. -/
def ceilDiv (a b : Nat) : Nat := (a + b - 1) / b

/-- Set or replace an association by key, keeping first-come order. -/
def assocSet {κ α : Type} [DecidableEq κ] (m : List (κ × α)) (k : κ) (v : α) : List (κ × α) :=
  if m.any (fun e => e.1 = k) then m.map (fun e => if e.1 = k then (k, v) else e) else m ++ [(k, v)]

/-- Value under a key. -/
def assocGet {κ α : Type} [DecidableEq κ] (m : List (κ × α)) (k : κ) : Option α :=
  (m.find? (fun e => e.1 = k)).map Prod.snd

end Sys2Proof
end

