-- ==== Sys2Proof/Events.lean ====
section
/-!
DEFINITION. The types of the commands' operands: who sends a command, and what the environment tells the device about
times, checks and bytes that lie outside it.
-/
namespace Sys2Proof.Machine

/-- Who writes a control-space register (R14); the management processor writes its own (R705). -/
inductive Writer where
  | host | mgmt (conn id : Nat) | boot | crown | firmware | processor
  deriving DecidableEq, Repr

/-- REG cycles the issuing core has spent since its last issue, as the environment tells them: cycles in which issue
waited (R146), those of them spent for want of a scoreboard entry, and cycles in which a square-buffer request lost
arbitration (R92); and a line of the square buffer in which fetch, or an LDS, finds a parity error (R83, R85). (DESIGN CHOICE, log entry 11) -/
structure Waits where
  wait : Nat
  sbFull : Nat
  sqbStall : Nat
  parity : Option Nat
  deriving DecidableEq, Repr

/-- How checks come out while an instruction runs, as the environment tells it: no fault; a residue mismatch at a K-slice or pass (R81); a
second one in the same instruction (R82), at a slice or pass, the patch of R47 under work and the number of saturation retries of R225 before it; a parity
error on a line it reads (R83, R85); a stored accumulator residue mismatch (R86). (DEDUCED, log entry 35) -/
inductive CheckEvent where
  | clear
  | residue (n : Nat)
  | residueTwice (n patch retries : Nat)
  | parity (line : Nat)
  | accStore (tile : Nat)
  deriving DecidableEq, Repr

/-- Faults of the hardware that an access may meet, as the environment tells them: a symbol of the 72 of a line in DRAM changes (R307), any line of any
page; a bit of a Cuff's key slot or of a key in SMD's store changes (R751); a region-buffer parity error on line `i` of the access (R334); bits of a page record change (R336); a parity error in
the square-buffer line that a send reads (R83). What the checks make of them is computed. (DESIGN CHOICE, log entry 139) -/
inductive MemEvent where
  | line (page : BitVec 21) (index : BitVec 8) (symbol : Fin 72) (x : BitVec 8)
  | slotBit (cuff : Fin 59) (slot : BitVec 6)
  | storeBit (place : Nat)
  | rbParity (i : Nat)
  | record (index : BitVec 21) (flips : BitVec 128)
  | sqb (line : Nat)
  deriving DecidableEq, Repr

/-- A frame as it arrives on a link (R477), its payload as it stood on the wire with its tag: `rail` is the sending link index in its IV (R483), `again` whether an earlier counter or tag failure of this link lies within 1 s (R484). -/
structure RxFrame where
  link : Fin 36
  kgen : Bool
  cls : BitVec 2
  part : BitVec 5
  fid : BitVec 32
  src : BitVec 16
  rail : BitVec 6
  time : BitVec 32
  ctr : BitVec 64
  opw : BitVec 64
  payload : List (BitVec 8)
  tag : List (BitVec 8)
  again : Bool
  deriving DecidableEq, Repr

/-- What the host answers to a host-window read of one block (R670): its 4 KiB of ciphertext and its trailer of 32 bytes. -/
structure HostBlock where
  data : List (BitVec 8)
  trailer : List (BitVec 8)
  deriving DecidableEq, Repr

/-- What a cold boot finds outside the flash bytes (R638 to R652, R741, R758, R769, R771): image slots that cannot be read and whose two signatures
pass (bit per slot), the digest of the DeviceID key, the flash clock, whether fuses read back as blown, stacks that fail training, failing
rows of channels (region, channel, rows), a die-to-die edge that fails, copies of the Visor's plan that flash no longer gives back as written (bit per copy). (DESIGN CHOICE, log entry 99) -/
structure BootFacts where
  unread : BitVec 2
  kSig : BitVec 2
  iSig : BitVec 2
  own : List (BitVec 8)
  mhz : Nat
  fuseOk : Bool
  dramStacks : BitVec 8
  rows : List (Nat × Nat × Nat)
  edge : Option Nat
  planBad : BitVec 2
  deriving DecidableEq, Repr

/-- A request of SPDM 1.3 (R433): `offered` tells whether the requester offers the four algorithms, `good` whether its FINISH matches the transcript. (PRESUMED, log entry 68) -/
inductive SpdmReq where
  | getVersion
  | getCapabilities
  | negotiateAlgorithms (offered : Bool)
  | getDigests
  | getCertificate (slot : BitVec 4)
  | challenge (slot : BitVec 4)
  | getMeasurements (index : BitVec 8)
  | keyExchange
  | finish (sec : Nat) (good : Bool)
  | endSession (sec : Nat)
  deriving DecidableEq, Repr

/-- A lending message between Crowns (R363 to R367): how many pages can be lent, so many, lend so many, so many are granted, take the page of a loan,
a loan's page is back, send a loan's page back. (DESIGN CHOICE, log entry 62) -/
inductive LendMsg where
  | ask
  | offer (pages : Nat)
  | request (pages : Nat)
  | grant (pages : Nat)
  | lend (part index : Nat)
  | returned (part index : Nat)
  | recall (part index : Nat)
  deriving DecidableEq, Repr

end Sys2Proof.Machine
end

