-- ==== Sys2Proof/Machine/Formats.lean ====
section
/-!
DEFINITION. Number formats, their exact values, and the two roundings of the manual (R157 to R186). Every value is
exact: a significand times a power of two, an infinity or a NaN.
-/
namespace Sys2Proof.Machine

/-- An exact value read from a format: (-1)^neg × m × 2^e, an infinity, or a NaN (R159). -/
inductive FVal where
  | nan
  | inf (neg : Bool)
  | fin (neg : Bool) (m : Nat) (e : Int)
  deriving DecidableEq, Repr

/-- A floating-point element format (R159): field widths, bias, whether it has infinities, whether it has NaNs. -/
structure Fmt where
  expBits : Nat
  manBits : Nat
  bias : Int
  hasInf : Bool
  hasNan : Bool
  deriving DecidableEq, Repr

def fp32 : Fmt := ⟨8, 23, 127, true, true⟩
def bf16 : Fmt := ⟨8, 7, 127, true, true⟩
def fp16 : Fmt := ⟨5, 10, 15, true, true⟩
def e4m3 : Fmt := ⟨4, 3, 7, false, true⟩
def e5m2 : Fmt := ⟨5, 2, 15, true, true⟩
def e2m1 : Fmt := ⟨2, 1, 1, false, false⟩
def fp64 : Fmt := ⟨11, 52, 1023, true, true⟩

namespace Fmt

/-- The largest exponent field. -/
def emaxField (F : Fmt) : Nat := 2 ^ F.expBits - 1

/-- The weight, as a power of two, of the last place of the subnormals. -/
def lmin (F : Fmt) : Int := 1 - F.bias - F.manBits

/-- Exponent field of the top binade of finite values: in E4M3 and E2M1 the field of all ones is an ordinary binade. -/
def topField (F : Fmt) : Nat := if F.hasInf then F.emaxField - 1 else F.emaxField

/-- Binary exponent of the top binade. -/
def emax (F : Fmt) : Int := F.topField - F.bias

/-- Code of the largest finite value, sign clear: in E4M3 the last code of the top binade is a NaN. -/
def maxCode (F : Fmt) : Nat :=
  if F.hasInf then F.emaxField * 2 ^ F.manBits - 1
  else if F.hasNan then 2 ^ (F.expBits + F.manBits) - 2 else 2 ^ (F.expBits + F.manBits) - 1

/-- Canonical NaN of the format (R160). E2M1 has none; an MX block marks a NaN in its scale. -/
def nanCode (F : Fmt) : Nat :=
  if F = e4m3 then 0x7F else if F = e5m2 then 0x7F
  else F.emaxField * 2 ^ F.manBits + 2 ^ (F.manBits - 1)

/-- The sign bit's weight. -/
def signBit (F : Fmt) : Nat := 2 ^ (F.expBits + F.manBits)

/-- The value a code stands for (R159, R161). -/
def decode (F : Fmt) (w : Nat) : FVal :=
  let neg := w.testBit (F.expBits + F.manBits)
  let E := (w >>> F.manBits) % 2 ^ F.expBits
  let M := w % 2 ^ F.manBits
  if F.hasInf && E = F.emaxField then (if M = 0 then .inf neg else .nan)
  else if F.hasNan && !F.hasInf && E = F.emaxField && M = 2 ^ F.manBits - 1 then .nan
  else if E = 0 then .fin neg M F.lmin
  else .fin neg (M + 2 ^ F.manBits) (F.lmin + (E : Int) - 1)

end Fmt

/-- How a conversion rounds: to nearest even, or stochastically with a 16-bit random value (R179). -/
inductive Round where
  | rne
  | sr (rnd : Nat)
  deriving DecidableEq, Repr

/-- Whether overflow gives infinity or the largest finite value (R179, R181). -/
def overCode (F : Fmt) (saturate : Bool) : Nat :=
  if saturate || !F.hasInf then F.maxCode else F.emaxField * 2 ^ F.manBits

/-- The saturating formats of R181: E4M3, E5M2 and MX elements. -/
def saturates (F : Fmt) : Bool := decide (F = e4m3 ∨ F = e5m2 ∨ F = e2m1)

/-- Significand kept in units of the last place, from `m` with `k` low bits to discard. -/
def roundBits (r : Round) (m k : Nat) : Nat :=
  let q := m >>> k
  let rem := m % 2 ^ k
  match r with
  | .rne => if 2 * rem > 2 ^ k ∨ (2 * rem = 2 ^ k ∧ q % 2 = 1) then q + 1 else q
  | .sr rnd => if (rem * 65536) >>> k + rnd ≥ 65536 then q + 1 else q

/-- Binary exponent of a nonzero significand times a power of two. -/
def floorLog2 (m : Nat) (e : Int) : Int := (Nat.log2 m : Int) + e

/-- Code, sign clear, of the finite nonzero value m × 2^e rounded into `F` (R179, R181). -/
def roundMag (F : Fmt) (r : Round) (m : Nat) (e : Int) : Nat :=
  let top := floorLog2 m e
  let l := max (top - F.manBits) F.lmin
  let q := if l ≤ e then m <<< (e - l).toNat else roundBits r m (l - e).toNat
  let overflow := overCode F (saturates F)
  if top > F.emax then overflow
  else
    let field := if l = F.lmin then 0 else (l - F.lmin).toNat
    let code := field * 2 ^ F.manBits + q
    -- q carries the hidden bit of a normal value, which moves the field up by one place
    if code > F.maxCode then overflow else code

/-- A value rounded once into a format: NaNs canonical (R160), zero signs kept (R162), infinities as R182 gives. -/
def encode (F : Fmt) (r : Round) : FVal → Nat
  | .nan => F.nanCode
  | .inf neg => if F = e4m3 then F.nanCode else (if neg then F.signBit else 0) + F.emaxField * 2 ^ F.manBits
  | .fin neg m e => (if neg then F.signBit else 0) + (if m = 0 then 0 else roundMag F r m e)

namespace FVal

def isNan : FVal → Bool
  | .nan => true
  | _ => false

def isZero : FVal → Bool
  | .fin _ 0 _ => true
  | _ => false

/-- Neither a NaN nor an infinity. -/
def isFinite : FVal → Bool
  | .fin _ _ _ => true
  | _ => false

def neg : FVal → FVal
  | .nan => .nan
  | .inf s => .inf (!s)
  | .fin s m e => .fin (!s) m e

/-- The signed significand at exponent `e0 ≤ e`. -/
def atExp (s : Bool) (m : Nat) (e e0 : Int) : Int :=
  let v : Int := ((m <<< (e - e0).toNat : Nat) : Int)
  if s then -v else v

/-- A signed integer times a power of two; zero carries the sign given. -/
def ofInt (zeroNeg : Bool) (v : Int) (e : Int) : FVal :=
  if v = 0 then .fin zeroNeg 0 e else .fin (decide (v < 0)) v.natAbs e

/-- Exact sum; an exact zero sum is +0 unless both addends are −0 (IEEE 754, roundTiesToEven). -/
def add : FVal → FVal → FVal
  | .nan, _ => .nan
  | _, .nan => .nan
  | .inf a, .inf b => if a = b then .inf a else .nan
  | .inf a, .fin _ _ _ => .inf a
  | .fin _ _ _, .inf b => .inf b
  | .fin sa ma ea, .fin sb mb eb =>
    let e0 := min ea eb
    ofInt (sa && sb && ma = 0 && mb = 0) (atExp sa ma ea e0 + atExp sb mb eb e0) e0

/-- Exact product. -/
def mul : FVal → FVal → FVal
  | .nan, _ => .nan
  | _, .nan => .nan
  | .inf a, .inf b => .inf (a != b)
  | .inf a, .fin sb mb _ => if mb = 0 then .nan else .inf (a != sb)
  | .fin sa ma _, .inf b => if ma = 0 then .nan else .inf (sa != b)
  | .fin sa ma ea, .fin sb mb eb => .fin (sa != sb) (ma * mb) (ea + eb)

/-- Exact multiplication by a power of two. -/
def scale (k : Int) : FVal → FVal
  | .nan => .nan
  | .inf s => .inf s
  | .fin s m e => .fin s m (e + k)

/-- Strict order of two values neither of which is a NaN. -/
def lt : FVal → FVal → Bool
  | .inf true, .inf true => false
  | .inf true, _ => true
  | _, .inf true => false
  | .inf false, _ => false
  | .fin _ _ _, .inf false => true
  | .fin sa ma ea, .fin sb mb eb =>
    let e0 := min ea eb
    decide (atExp sa ma ea e0 < atExp sb mb eb e0)
  | _, _ => false

/-- Equal as numbers, zeros alike. -/
def eqv (a b : FVal) : Bool := !a.isNan && !b.isNan && !(lt a b) && !(lt b a)

def signOf : FVal → Bool
  | .nan => false
  | .inf s => s
  | .fin s _ _ => s

def magnitude : FVal → FVal
  | .nan => .nan
  | .inf _ => .inf false
  | .fin _ m e => .fin false m e

end FVal

abbrev F32 := BitVec 32

/-- The binary32 value of 32 bits. -/
def val32 (w : F32) : FVal := fp32.decode w.toNat

/-- One rounding to nearest even into binary32. -/
def rne32 (v : FVal) : F32 := BitVec.ofNat 32 (encode fp32 .rne v)

def nan32 : F32 := 0x7FC00000#32

/-- FP32 addition with one RNE (R67). -/
def fadd (a b : F32) : F32 := rne32 ((val32 a).add (val32 b))
def fsub (a b : F32) : F32 := rne32 ((val32 a).add (val32 b).neg)
def fmul (a b : F32) : F32 := rne32 ((val32 a).mul (val32 b))
def ffma (a b c : F32) : F32 := rne32 (((val32 a).mul (val32 b)).add (val32 c))

/-- Maximum of R123: a NaN gives the canonical NaN, and +0 is larger than −0. -/
def fmax (a b : F32) : F32 :=
  let x := val32 a
  let y := val32 b
  if x.isNan || y.isNan then nan32
  else if x.lt y then b
  else if y.lt x then a
  else if x.signOf then b else a

/-- Minimum, by the same rule: +0 is larger than −0. -/
def fmin (a b : F32) : F32 :=
  let x := val32 a
  let y := val32 b
  if x.isNan || y.isNan then nan32
  else if x.lt y then a
  else if y.lt x then b
  else if x.signOf then a else b

/-- Convert binary32 bits into a format (R182, R183). -/
def cvt32 (F : Fmt) (r : Round) (w : F32) : Nat := encode F r (val32 w)

/-- Round an exact value to an integer within [-2^(n-1), 2^(n-1)-1], saturating to the ends (R181, R182). -/
def roundInt (r : Round) (lo hi : Int) : FVal → Int
  | .nan => 0
  | .inf s => if s then lo else hi
  | .fin s m e =>
    let q : Int := if 0 ≤ e then ((m <<< e.toNat : Nat) : Int) else (roundBits r m (-e).toNat : Nat)
    max lo (min hi (if s then -q else q))

/-- An integer divided by 2^k, rounded to nearest even. -/
def rneShift (v : Int) (k : Nat) : Int :=
  let q : Int := (roundBits .rne v.natAbs k : Nat)
  if v < 0 then -q else q

/-- FP32 to INT32, nearest even, saturating, NaN to 0 (R182). -/
def fp32ToInt (w : F32) : BitVec 32 := BitVec.ofInt 32 (roundInt .rne (-2147483648) 2147483647 (val32 w))

/-- INT32 to FP32 (R182); a zero result from an integer is +0 (R162). -/
def intToFp32 (r : Round) (w : BitVec 32) : F32 := BitVec.ofNat 32 (encode fp32 r (FVal.ofInt false w.toInt 0))

/-- Sum of 2^n values by a tree of adjacent pairs (R123). -/
def treeFold (f : F32 → F32 → F32) : Nat → List F32 → List F32
  | 0, xs => xs
  | n + 1, xs => treeFold f n (pairUp f xs)
where
  pairUp (f : F32 → F32 → F32) : List F32 → List F32
    | a :: b :: xs => f a b :: pairUp f xs
    | [a] => [a]
    | [] => []

def treeSum (levels : Nat) (xs : List F32) : F32 := (treeFold fadd levels xs).headD 0
def treeMax (levels : Nat) (xs : List F32) : F32 := (treeFold fmax levels xs).headD 0

/-- The element formats of an MX tile and the binary exponent of their top binade (R185). -/
def mxEm (F : Fmt) : Int := if F = e4m3 then 8 else if F = e5m2 then 15 else 2

/-- MX encoding of one block of 32 values: the scale byte and the element codes (R185). `rnds` empty: to nearest. -/
def mxEncode (F : Fmt) (sr : Bool) (rnds : List Nat) (row : List FVal) : Nat × List Nat :=
  if row.any (fun x => !x.isFinite) then (0xFF, row.map (fun _ => 0))
  else
    let tops := row.filterMap (fun x => match x with | .fin _ m e => if m = 0 then none else some (floorLog2 m e) | _ => none)
    match tops with
    | [] => (0, row.map (fun x => encode F .rne x))
    | t :: ts =>
      let amax := ts.foldl max t
      let s : Int := min (max (amax - mxEm F + 127) 0) 254
      (s.toNat, (row.zip (rnds ++ List.replicate 32 0)).map
        (fun p => encode F (if sr then .sr p.2 else .rne) (p.1.scale (127 - s))))

/-- The split master (R170, R173): compute half above the Lining, which counts for nothing beside an infinity or a NaN. -/
def masterOf (half lining : BitVec 16) : F32 := if (bf16.decode half.toNat).isFinite then half ++ lining else half ++ (0 : BitVec 16)

/-- The Lining beside a compute half: zero beside an infinity or a NaN (R173). -/
def liningOf (w : F32) : BitVec 16 := if (val32 w).isFinite then w.extractLsb' 0 16 else 0

/-! VWB8 (R174 to R178). -/

/-- A VWB8 block: 32 elements, the agreed exponent, the bump. -/
structure Vwb where
  q : List (BitVec 8)
  exp : Nat
  bump : Nat
  deriving DecidableEq, Repr

/-- The 32 values of a block (R175). -/
def Vwb.values (b : Vwb) : List FVal :=
  if b.exp = 0xFF then b.q.map (fun _ => .nan)
  else b.q.map (fun x => FVal.ofInt false x.toInt ((b.exp : Int) + b.bump - 133))

/-- Whether a 34-byte block is legal (R176). -/
def Vwb.legal (b : Vwb) : Bool := b.bump < 4 && (b.exp = 0xFF || b.q.all (fun x => x ≠ 0x80#8))

/-- The integer an element rounds to at exponent `X` and bump `b` (R177). -/
def vwbElem (X b : Nat) (x : FVal) (rnd : Nat) : Int :=
  match x.scale (133 - (X : Int) - b) with
  | .fin s m e =>
    let q : Int := if 0 ≤ e then ((m <<< e.toNat : Nat) : Int) else (roundBits (.sr rnd) m (-e).toNat : Nat)
    if s then -q else q
  | _ => 0

/-- Encode at the least bump from `b` to 3 with no overflow; none: the block travels in 16-bit form (R177, R178). -/
def vwbEncode (X : Nat) (xs : List FVal) (rnds : List Nat) : Nat → Nat → Option Vwb
  | 0, _ => none
  | n + 1, b =>
    if b > 3 then none
    else if xs.any (fun x => !x.isFinite) then some ⟨xs.map (fun _ => 0), 0xFF, 0⟩
    else
      let qs := (xs.zip rnds).map (fun p => vwbElem X b p.1 p.2)
      if qs.any (fun v => decide (v.natAbs > 127)) then vwbEncode X xs rnds n (b + 1)
      else some ⟨qs.map (BitVec.ofInt 8), X, b⟩

/-! Random bits (R192 to R195). -/

def rotl32 (v n : Nat) : Nat := ((v <<< n) ||| (v >>> (32 - n))) % 2 ^ 32

/-- The quarter round of R194. -/
def rngQr (x0 x1 x2 x3 : Nat) : Nat × Nat × Nat × Nat :=
  let x0 := (x0 + x1) % 2 ^ 32
  let x3 := rotl32 (x3 ^^^ x0) 16
  let x2 := (x2 + x3) % 2 ^ 32
  let x1 := rotl32 (x1 ^^^ x2) 12
  let x0 := (x0 + x1) % 2 ^ 32
  let x3 := rotl32 (x3 ^^^ x0) 8
  let x2 := (x2 + x3) % 2 ^ 32
  let x1 := rotl32 (x1 ^^^ x2) 7
  (x0, x1, x2, x3)

/-- A stream key as four 32-bit words. -/
structure RngKey where
  k0 : Nat
  k1 : Nat
  k2 : Nat
  k3 : Nat
  deriving DecidableEq, Repr

def rngRounds (k : RngKey) : Nat → Nat → Nat × Nat × Nat × Nat → Nat × Nat × Nat × Nat
  | 0, _, x => x
  | n + 1, i, (x0, x1, x2, x3) =>
    let add := fun a b => (a + b) % 2 ^ 32
    rngRounds k n (i + 1) (rngQr (add x0 k.k0 ^^^ i) (add x1 k.k1) (add x2 k.k2) (add x3 k.k3))

/-- The 128-bit block of step `st` and index `b` (R194). -/
def rngBlock (k : RngKey) (st b : Nat) : List Nat :=
  let r := rngRounds k 10 0 (b % 2 ^ 32, b >>> 32, st % 2 ^ 32, st >>> 32)
  [(r.1 + k.k0) % 2 ^ 32, (r.2.1 + k.k1) % 2 ^ 32, (r.2.2.1 + k.k2) % 2 ^ 32, (r.2.2.2 + k.k3) % 2 ^ 32]

/-- The 16-bit value of element index `e` (R195). -/
def draw (k : RngKey) (st e : Nat) : Nat :=
  let w := ((rngBlock k st (e / 8)).drop ((e % 8) / 2)).headD 0
  (w >>> (16 * (e % 2))) % 65536

end Sys2Proof.Machine
end

