-- ==== Sys2Proof/Machine/StateRed.lean ====
section
/-!
DEFINITION. The state of gradient reduction (R532 to R572).
-/
namespace Sys2Proof.Machine

/-- A block of 32 elements as it travels: 16-bit form, or VWB8 (R555, R562). -/
inductive RedBlock where
  | half (e : List (BitVec 16))
  | vwb (v : Vwb)
  deriving DecidableEq, Repr

/-- `JOB_STATE.STATE` (R572) of an entry in use. -/
inductive RedRun where
  | opening | idle | active | closing | failed
  deriving DecidableEq, Repr

def RedRun.code : RedRun → Nat
  | .opening => 1 | .idle => 2 | .active => 3 | .closing => 4 | .failed => 5

/-- A bucket in flight (R547 to R551): RED_READY received from the group and the fabric successor; whether the group values are final; blocks
already received, by KIND; group sums held; blocks that wait for a successor's RED_READY; blocks in the result range. -/
structure RedBucket where
  n : Nat
  groupReady : Bool
  fabReady : Bool
  groupFinal : Bool
  seen : List (Nat × Nat)
  sums : List (Nat × RedBlock)
  waitG : List (Nat × RedBlock)
  waitF : List (Nat × RedBlock)
  done : List Nat
  deriving DecidableEq, Repr

/-- A job-table entry (R538 to R546): its command slot's bytes and the slot's window offset; the neighbours whose digest has matched; landed
bytes by bucket; buckets started and completed in this round; RED_READY received for buckets not yet in flight, by KIND; neighbours whose RED_ABORT has come;
the slot offset of a CLOSE that waits. -/
structure RedJob where
  entry : Nat
  part : Nat
  cmd : List (BitVec 8)
  slotOff : Nat
  run : RedRun
  matched : List Nat
  round : Nat
  landed : List (Nat × Nat)
  started : Nat
  complete : Nat
  flight : List RedBucket
  early : List (Nat × Nat × Nat)
  aborted : List Nat
  closeOff : Option Nat
  deriving DecidableEq, Repr

/-- A RED_OPEN that came before this chip's own OPEN (R540): partition, job, sender, digest. -/
structure EarlyOpen where
  part : Nat
  job : Nat
  src : Nat
  digest : Nat
  deriving DecidableEq, Repr

/-- A reduction command ring (R537): partition, first page, slots, next sequence number. -/
structure RedRing where
  part : Nat
  vpage : Nat
  slots : Nat
  seq : Nat
  deriving DecidableEq, Repr

structure Reduce where
  rings : List RedRing
  jobs : List RedJob
  early : List EarlyOpen
  adds : Nat
  deal : Nat
  deriving DecidableEq, Repr

def Reduce.reset : Reduce := ⟨[], [], [], 0, 0⟩

end Sys2Proof.Machine
end

