-- ==== Sys2Proof/Machine/StateCore.lean ====
section
/-!
DEFINITION. The state of one core: its square buffer, accumulator tiles and chains, registers, scoreboard, mover
slots, Brim slots and control registers (R49, R62, R73, R78, R92, R93, R97, R205, R516, R597).
-/
namespace Sys2Proof.Machine

/-- CORE_STATUS.STATE (R92). -/
inductive CoreRun where
  | asleep | idle | running | draining | quarantined | stopped
  deriving DecidableEq, Repr

/-- The value STATE reads as (R92). -/
def CoreRun.code : CoreRun → Nat
  | .asleep => 0 | .idle => 1 | .running => 2 | .draining => 3 | .quarantined => 4 | .stopped => 5

/-- The chain state beside an accumulator tile (R205). `started` is R119's, `zcFixed` says that ZC has been set (R222). -/
structure Chain where
  int32 : Bool
  zc : Int
  b : Nat
  rc : Nat
  kcount : Nat
  iv : Nat
  spen : Option Bool
  spilled : Bool
  poison : Bool
  started : Bool
  zcFixed : Bool
  deriving DecidableEq, Repr

def Chain.none : Chain := ⟨false, 0, 0, 0, 0, 0, Option.none, false, false, false, false⟩

/-- What an unretired instruction reads and writes (R75, R127, R147): line ranges (first, count), the lines of its spill tile, which it reads and writes,
accumulator tiles, vector registers, predicates. -/
structure Footprint where
  readLines : List (Nat × Nat)
  writeLines : List (Nat × Nat)
  spill : List (Nat × Nat)
  readAcc : List Nat
  writeAcc : List Nat
  readV : List Nat
  writeV : List Nat
  readP : List Nat
  writeP : List Nat
  deriving DecidableEq, Repr

def Footprint.none : Footprint := ⟨[], [], [], [], [], [], [], [], []⟩

/-- A tile descriptor (R111). -/
abbrev Td := BitVec 64

/-- A tile instruction with every operand it reads at issue (R99): descriptors, and the random-draw position of R98. -/
structure TileJob where
  op : Nat
  acc : Nat
  tda : Td
  tdb : Td
  tds : Td
  tdo : Td
  g : Nat
  start : Bool
  spillEn : Bool
  epi : Nat
  ve : Nat
  sr : Bool
  iv : Nat
  stream : Nat
  step : Nat
  elem : Nat
  deriving DecidableEq, Repr

/-- A vector instruction with every operand it reads at issue. -/
structure VecJob where
  op : Nat
  vd : Nat
  va : Nat
  vb : Nat
  vc : Nat
  pg : Nat
  tile : Bool
  bm : Nat
  cm : Nat
  func : Nat
  srf : Bool
  addr : Nat
  scalar : BitVec 32
  stream : Nat
  step : Nat
  elem : Nat
  deriving DecidableEq, Repr

/-- Work held back for a re-fill (R85). -/
inductive Job where
  | tile (j : TileJob)
  | vec (j : VecJob)
  deriving DecidableEq, Repr

/-- An issued tile or vector instruction that has not retired (R73, R74, R147). `index`: its place in the window. `held`: kept from retirement (R82,
R86, R166, R226). `redo`: its work waits for a re-fill to land, of the slot `await` or, where that is none, of one that an earlier instruction awaits (R85). -/
structure Unretired where
  id : Nat
  isTile : Bool
  product : Option Nat
  epilogue : Bool
  foot : Footprint
  held : Bool
  redo : Option Job
  await : Option Nat
  index : Nat
  deriving DecidableEq, Repr

/-- Where a mover operation stands (R140, R522, R502). -/
inductive MoverStage where
  | waiting | quota | passed | sent | done
  deriving DecidableEq, Repr

/-- A request of an operation that awaits its reply: the chip asked, the offset from aAF of its first byte, its bytes. -/
structure MoverReq where
  chip : Nat
  rel : Nat
  len : Nat
  deriving DecidableEq, Repr

/-- One mover slot in use (R78, R137, R502 to R526). `order` is the place in issue order. `failAt` is the least offset
from aAF of a failing piece (R515). `progress` counts the bytes whose pieces have been dealt
with, `owed` the local writes still to land, `reqs` the requests to other chips still to be answered, `signalOwed` the SIGNAL still to be sent (R506). -/
structure MoverOp where
  slot : Nat
  order : Nat
  op : Nat
  af : BitVec 64
  al : BitVec 64
  as_ : BitVec 64
  cc : Nat
  len : Nat
  relax : Bool
  dtype : Nat
  sv : BitVec 64
  sw : BitVec 64
  job : Nat
  index : Nat
  slotno : BitVec 32
  stage : MoverStage
  status : Nat
  code : Nat
  failAt : Nat
  owed : Nat
  signalOwed : Bool
  tokens : Nat
  floored : Bool
  progress : Nat
  reqs : List MoverReq
  deriving DecidableEq, Repr

/-- One Brim slot as its two registers hold it (R597, R824). -/
structure BrimSlot where
  lo : BitVec 32
  hi : BitVec 32
  deriving DecidableEq, Repr

def BrimSlot.none : BrimSlot := ⟨0, 0⟩

/-- The special registers (R97), CORE_ID as the chip and partition that placement sets. -/
structure Special where
  chip : BitVec 13
  part : BitVec 5
  stream : BitVec 64
  step : BitVec 64
  elemBase : BitVec 64
  spillIv : BitVec 64
  wdog : BitVec 64
  srec : BitVec 64
  cycle : BitVec 64
  slotno : BitVec 32
  slotWait : BitVec 64
  retired : BitVec 64
  deriving DecidableEq, Repr

/-- Reset values of R97: SPILL_IV reads 14. (DESIGN CHOICE, log entry 3) -/
def Special.reset : Special := ⟨0, 0, 0, 0, 0, 14, 0, 0, 0, 0, 0, 0⟩

/-- Why issue has stopped for good until the window is written again (R151, R82, R85, R226, R232, R591). -/
structure StopCause where
  code : Nat
  info : Nat
  deriving DecidableEq, Repr

/-- The control registers of R92 and the sequencer's own state. `waiting`: an instruction waits to issue (R145), `waitWord` is its word, and holds every
later one (R72); `brimWait`: a BAR or BWAIT waits on this slot (R583);
`ending`: END has issued and its waits run (R109); `stopping`: a stop on error drains (R151); `escalated` holds the
codes escalated to the region and not yet taken (R152). -/
structure CoreCtl where
  enable : Bool
  draining : Bool
  quar : Bool
  run : CoreRun
  iwinBase : BitVec 14
  iwinLinesM1 : BitVec 14
  pc : Nat
  moverBoost : BitVec 8
  errFlags : BitVec 5
  lastCode : Nat
  residueCnt : Nat
  parityCnt : Nat
  errLine : Nat
  errProduced : Bool
  busy : Nat
  maccyc : Nat
  sqbStall : Nat
  sbFull : Nat
  waiting : Bool
  waitWord : BitVec 64
  brimWait : Option Nat
  ending : Bool
  stopping : Option StopCause
  escalated : List Nat
  boosted : Option Nat
  diagPassed : Bool
  deriving DecidableEq, Repr

/-- Reset values of R92. -/
def CoreCtl.reset : CoreCtl :=
  ⟨false, false, false, .asleep, 0, 0, 0, 64, 0, 0, 0, 0, 0, false, 0, 0, 0, 0, false, 0, none, false, none, [], none, false⟩

/-- One core. `acc` is keyed 1024·tile + 32·row + col, `v` 256·register + lane; `p` holds p1 to p7. `clean` maps a slot
of the square buffer to the fabric address that fills it (R84); an absent slot is produced. `refills` are the slots whose re-fill has not landed, in
order (R85). `seenWslot`: a WSLOT has issued since the window was written (R257); `slotOpen`: its slot has not closed (R259). -/
structure Core where
  ctl : CoreCtl
  spec : Special
  sqb : Sparse Byte
  acc : Sparse (BitVec 32)
  chains : Sparse Chain
  s : Sparse (BitVec 64)
  a : Sparse (BitVec 64)
  td : Sparse (BitVec 64)
  v : Sparse (BitVec 32)
  p : Sparse (BitVec 256)
  cc : Sparse (BitVec 32)
  brim : Sparse BrimSlot
  unret : List Unretired
  nextId : Nat
  clean : List (Nat × BitVec 64)
  refills : List Nat
  mover : List MoverOp
  nextOrder : Nat
  records : Nat
  seenWslot : Bool
  slotOpen : Bool
  deriving DecidableEq, Repr

/-- A core after cold reset. (DESIGN CHOICE, log entry 3) -/
def Core.reset : Core :=
  ⟨CoreCtl.reset, Special.reset, [], [], [], [], [], [], [], [], [], [], [], 0, [], [], [], 0, 0, false, false⟩

end Sys2Proof.Machine
end

