-- ==== Sys2Proof/Machine/StateMem.lean ====
section
/-!
DEFINITION. The state of bonded memory, the Page Record Table, the regions' buffers and caches, the Cuffs and the update
engines (R303 to R338, R374 to R414, R268 to R301).
-/
namespace Sys2Proof.Machine

/-! Residency states (R314). -/
def prtFree : Nat := 0
def prtLocal : Nat := 1
def prtMigrating : Nat := 2
def prtPinned : Nat := 3
def prtGuest : Nat := 4
def prtPoisoned : Nat := 5
def prtScrubbing : Nat := 6

/-- A page record (R312). A null CHAIN or HEAD (R319) is `none`; the record's 128 bits, PARITY and the null word among them, are computed from it.
`becomes` is the state a page being initialised goes to (R327). -/
structure PrtRec where
  valid : Bool
  part : BitVec 5
  vpage : BitVec 31
  kgen : Bool
  epoch : BitVec 24
  state : BitVec 3
  dirty : Bool
  heat : BitVec 8
  affinity : BitVec 4
  chain : Option Nat
  head : Option Nat
  becomes : BitVec 3
  deriving DecidableEq, Repr

def PrtRec.free : PrtRec := ⟨false, 0, 0, false, 0, 0, false, 0, 0, none, none, 0⟩

/-- A translation-cache entry (R323). -/
structure TcEntry where
  set : Nat
  part : Nat
  vpage : Nat
  page : Nat
  guest : Bool
  deriving DecidableEq, Repr

/-- A region-buffer frame (R331): its page, partition and valid lines. Its bytes are memory's own (R332). -/
structure RbFrame where
  set : Nat
  way : Nat
  page : Nat
  part : Nat
  valid : BitVec 256
  deriving DecidableEq, Repr

/-- Who waits for a memory access: a core's mover slot, another chip's write or atomic or its SIGNAL, which came on a link in
a partition, or an engine that needs no answer. -/
inductive Requester where
  | core (core slot : Nat)
  | peer (part chip core slot link : Nat)
  | signal (part chip core slot link : Nat)
  | engine
  deriving DecidableEq, Repr

/-- What a partial write does to its bytes (R393, R502). -/
inductive PartialOp where
  | bytes (b : List Byte)
  | add64 (x : BitVec 64)
  | add32 (x : BitVec 32)
  | cas (expect swap : BitVec 64)
  deriving DecidableEq, Repr

/-- A partial write that waits for its line (R394, R396). -/
structure PendWrite where
  off : Nat
  op : PartialOp
  who : Requester
  deriving DecidableEq, Repr

/-- A merge-buffer entry (R394): pinned while its line read is in flight, with the writes behind it in arrival order. -/
structure MergeEntry where
  page : Nat
  line : Nat
  pinned : Bool
  pend : List PendWrite
  deriving DecidableEq, Repr

/-- Jobs of the Cuff scrubber, in its priority order (R392). -/
inductive ScrubKind where
  | reencrypt | zeroFill | sweep | erase
  deriving DecidableEq, Repr

structure ScrubJob where
  kind : ScrubKind
  page : Nat
  deriving DecidableEq, Repr

/-- A whole-page tracker (R386): the generation of the write, and who is answered when it closes. -/
structure Tracker where
  page : Nat
  written : BitVec 256
  kgen : Bool
  who : Requester
  deriving DecidableEq, Repr

/-- A memory Cuff (R386, R388, R390, R392, R394). -/
structure MemCuff where
  trackers : List Tracker
  scrubQ : List ScrubJob
  running : Option ScrubJob
  crownList : List ScrubJob
  merge : List MergeEntry
  threshNoted : List Nat
  stallNoted : List (Nat × Requester)
  deriving DecidableEq, Repr

/-- DESIGN CHOICE, log entries 4 and 48. -/
def MemCuff.reset : MemCuff := ⟨[], [], none, [], [], [], []⟩

/-- A flit as it crosses a die-to-die edge (R401): header, payload as ciphertext, tag, CRC. -/
structure Flit where
  header : BitVec 64
  payload : List Byte
  tag : List Byte
  crc : BitVec 32
  deriving DecidableEq, Repr

/-- One end of a die-to-die edge (R402, R403): whether it is trained and keyed, the sending counter, the counter
expected, the replay buffer (counter, flit), the CRC failures of the flit now expected, where SMD's draw of its sending direction's salt begins, and slots
that it no longer sends under (R377). -/
structure D2d where
  up : Bool
  txCtr : Nat
  rxCtr : Nat
  replay : List (Nat × Flit)
  fails : Nat
  salt : Nat
  txClosed : BitVec 64
  deriving DecidableEq, Repr

def D2d.reset : D2d := ⟨false, 0, 0, [], 0, 0, 0⟩

/-- A registration of the tensor table (R279, R283). `foff` is the place of its first group within its factor pages, once a
part of a registration has been released or changed mode. (DEDUCED, log entry 54) -/
structure Registration where
  part : Nat
  tensor : Nat
  opt : Nat
  first : Nat
  count : Nat
  comp : Nat
  lin : Nat
  m : Nat
  v : Nat
  gacc : Nat
  stream : Nat
  accN : Nat
  wide : Bool
  foff : Nat
  deriving DecidableEq, Repr

/-- A command in the window (R276, R277): its slot's 64 bytes and the slot's window offset, whether it has started, its next group,
its hyperparameters once read (R290), its count of results not finite, whether the group has been retried (R299). -/
structure UeCmd where
  part : Nat
  slotOff : Nat
  slot : List Byte
  started : Bool
  next : Nat
  hyp : List (BitVec 32)
  nonFinite : Nat
  retried : Bool
  deriving DecidableEq, Repr

/-- A partition's command ring in a region (R275): its first page, its length in slots, the next sequence number. -/
structure UeRing where
  part : Nat
  vpage : Nat
  slots : Nat
  seq : Nat
  deriving DecidableEq, Repr

/-- Micro-steps completed for a page group of a tensor at a step (R286, R287). -/
structure AccDone where
  part : Nat
  tensor : Nat
  group : Nat
  step : Nat
  micro : Nat
  deriving DecidableEq, Repr

/-- The update engine of a region (R275 to R301). `state` is 3 while it drains, 4 once it has stopped on an error, otherwise 0: the
other values of STATE follow from ENABLE, the window and the quiesce. `elems` are the element counters of the streams that it draws from (R198), by
4096·partition + stream. -/
structure UpdateEngine where
  enable : Bool
  state : Nat
  lastCode : Nat
  residueCnt : Nat
  refusedCnt : Nat
  params : Nat
  rings : List UeRing
  window : List UeCmd
  table : List Registration
  done : List AccDone
  elems : Sparse Nat
  deriving DecidableEq, Repr

def UpdateEngine.reset : UpdateEngine := ⟨false, 0, 0, 0, 0, 0, [], [], [], [], []⟩

/-- What a line was sealed under when it was last written (R379, R380): its key (where SMD's draw of it begins, plus one), EPOCH, KGEN, PART. -/
structure Seal where
  key : Nat
  epoch : Nat
  kgen : Bool
  part : Nat
  deriving DecidableEq, Repr

/-- A line that nothing has written. (DESIGN CHOICE, log entry 4) -/
def Seal.blank : Seal := ⟨0, 0, false, 0⟩

/-- A write of an engine of the device that waits (R326, R386, R396): which engine's, as the region it stands in or none on LD, and in whose window. -/
structure EngWrite where
  region : Option Nat
  part : Nat
  off : Nat
  op : PartialOp
  deriving DecidableEq, Repr

/-- Lines that an engine has asked of another chip (R290, R366): replies still to come, what they have brought, the code of one that was refused. -/
structure EngFetch where
  part : Nat
  vpage : Nat
  line : Nat
  lines : Nat
  chip : Nat
  left : Nat
  got : List Byte
  code : Nat
  deriving DecidableEq, Repr

/-- Bonded memory and its table (R303, R312, R318, R336, R337). A line in DRAM is held as the plaintext it was written from, in `dram` by physical byte
address, what it was sealed under, in `seals` by line (256·page + index), and the symbols of its 72 in error since, in `flips`: its ciphertext, tag and check
symbols (R307) are computed from these. An unlisted byte reads as zero. `engine` holds engines' writes that wait, oldest first, and `fetched` their reads of lent pages. `repairs` are record repairs under way (record, parity groups); `retired` is the retired-page map and
`retireQ` the pages waiting to be retired (R749). -/
structure Memory where
  dram : List Host.Cell
  seals : Sparse Seal
  flips : Sparse (Sparse Byte)
  engine : List EngWrite
  fetched : List EngFetch
  prt : Sparse PrtRec
  salt : BitVec 64
  repairs : List (Nat × Nat)
  chainMax0 : Nat
  chainMax1 : Nat
  errIndex : Nat
  errGroups : Nat
  retired : List Nat
  retireQ : List Nat
  deriving DecidableEq, Repr

/-- DESIGN CHOICE, log entries 4 and 48. -/
def Memory.reset : Memory := ⟨[], [], [], [], [], [], 0, [], 0, 0, 0, 0, [], []⟩

/-- The canonical form of memory: bytes, seals, errors and records at strictly rising keys, none of them a default. -/
def Memory.wf (m : Memory) : Bool :=
  Sparse.wf 0 m.dram && Sparse.wf Seal.blank m.seals && Sparse.wf [] m.flips && Sparse.wf PrtRec.free m.prt

end Sys2Proof.Machine
end

