-- ==== Sys2Proof/Machine/StateSys.lean ====
section
/-!
DEFINITION. The state of partitions, sessions and keys (R416 to R462), of Crown (R340 to R372) and of the Brim nodes
(R574 to R598).
-/
namespace Sys2Proof.Machine

/-! Partitions, the Charter and sessions. -/

/-- One partition of a Charter (R424, R521). -/
structure PartDecl where
  number : Nat
  joint : Bool
  owners : BitVec 16
  reads : BitVec 32
  quotaPages : Nat
  inflight : Nat
  rate : Nat
  burst : Nat
  fid : BitVec 32
  deriving DecidableEq, Repr

/-- An export rule (R440): form 0 sealed, 1 plain, 2 escrow. -/
structure ExportRule where
  src : Nat
  dest : Nat
  form : Nat
  cap : Nat
  deriving DecidableEq, Repr

/-- A reduction ring table of a Charter (R534). `chips` lists the members' chip numbers row by row. -/
structure RingTable where
  job : Nat
  part : Nat
  stream : Nat
  width : Nat
  rows : Nat
  chips : List Nat
  deriving DecidableEq, Repr

/-- A Charter as decoded (R423, R424): 48-byte digests and 16-byte identifiers as bytes; `ownerKeys` are the owners' public keys, in the order of `owners`, `escrow` the keys of ESCROW. `digests` are the DeviceID digests of
`chips`, in the same order. (DESIGN CHOICE, log entry 76) -/
structure Charter where
  digest : List Byte
  sessionId : List Byte
  owners : List Nat
  ownerKeys : List (List Byte)
  parts : List PartDecl
  chips : List Nat
  digests : List (List Byte)
  rings : List RingTable
  exports : List ExportRule
  escrow : List (List Byte)
  seedCommit : List (List Byte)
  workgraphs : List (List Byte)
  notAfter : Nat
  rotateS : Nat
  restore : Option (List Byte)
  bytes : Nat
  deriving DecidableEq, Repr

/-- An owner's ingest and egress pair (R436): which agreement made it, its record counters, and for each direction the key and its salt. -/
structure OwnerPair where
  owner : Nat
  agreement : Nat
  nextIn : Nat
  nextOut : Nat
  keyIn : List Byte
  keyOut : List Byte
  deriving DecidableEq, Repr

/-- How far a teardown has come (R451). -/
inductive Teardown where
  | none | fenced | drained
  deriving DecidableEq, Repr

/-- States of a session slot (R421). -/
inductive SessState where
  | none | keying | active | ending
  deriving DecidableEq, Repr

def SessState.code : SessState → Nat
  | .none => 0 | .keying => 1 | .active => 2 | .ending => 3

/-- States of a partition (R419). -/
inductive PartState where
  | free | open_ | rotating | ending | erasing
  deriving DecidableEq, Repr

def PartState.code : PartState → Nat
  | .free => 0 | .open_ => 1 | .rotating => 2 | .ending => 3 | .erasing => 4

/-- A session slot. `shares` are the matched seed shares by owner; `used` counts exported bytes by (rule, step);
`escrow` holds the escrow shares received; `ckKnown` says that the checkpoint key of a restore has been recovered. -/
structure Session where
  state : SessState
  charter : Option Charter
  shares : List (Nat × List Byte)
  seed : Option (List Byte)
  pairs : List OwnerPair
  used : List (Nat × Nat × Nat)
  escrow : List (Nat × List Byte)
  ckKnown : Bool
  teardown : Teardown
  cause : Nat
  deriving DecidableEq, Repr

def Session.none : Session := ⟨.none, Option.none, [], Option.none, [], [], [], false, .none, 0⟩

structure Partition where
  state : PartState
  gen : Nat
  exhausted : Bool
  session : Nat
  inflight : Nat
  tokens : Nat
  schedulePending : Bool
  deriving DecidableEq, Repr

def Partition.free : Partition := ⟨.free, 0, false, 0, 0, 0, false⟩

/-- The SPDM responder on one transport (R433): 0 Stolulter, 1 PCIe DOE, 2 the BMC over I3C. -/
structure SpdmConn where
  transport : Nat
  version : Bool
  caps : Bool
  algs : Bool
  deriving DecidableEq, Repr

/-- A secure session (R433): open once FINISH has come. -/
structure SecureSession where
  id : Nat
  transport : Nat
  finished : Bool
  deriving DecidableEq, Repr

/-- `slotKeys` is what each slot of each Cuff holds, by 64·Cuff + slot (R374), and `store` SMD's key store, by 64·kind + slot (R376, R407), both as the place
in the key generator's output where the keys begin, plus one, 0 being none; `control` is the place of the keys of
the control path (R26). `flipped` are places of `slotKeys`, `storeFlipped` places of `store`, at which a word fails its parity (R751). (DESIGN CHOICE, log entry 140) -/
structure Keys where
  parts : Sparse Partition
  sessions : Sparse Session
  conns : List SpdmConn
  secure : List SecureSession
  nextSecure : Nat
  agreements : Nat
  svnFuses : Nat
  boots : Nat
  slotKeys : Sparse Nat
  store : Sparse Nat
  control : Nat
  flipped : List Nat
  storeFlipped : List Nat
  deriving DecidableEq, Repr

/-- DESIGN CHOICE, log entry 17. -/
def Keys.reset : Keys := ⟨[], [], [], [], 0, 0, 0, 0, [], [], 0, [], []⟩

/-! Crown. -/

/-- A slot-table entry (R344). -/
structure SlotDecl where
  start : Nat
  close : Nat
  restart : Bool
  deriving DecidableEq, Repr

/-- A Brim plan entry (R576) as its 64-bit word. -/
abbrev PlanWord := BitVec 64

structure StreamDecl where
  imageVp : Nat
  imageLines : Nat
  winBase : Nat
  group : Nat
  rng : Nat
  slots : List SlotDecl
  tlist : List Nat
  plan : List PlanWord
  deriving DecidableEq, Repr

structure TensorDecl where
  first : Nat
  pages : Nat
  kind : Nat
  pin : Bool
  consumers : Nat
  deriving DecidableEq, Repr

/-- A work graph as parsed (R344): variants as lists of streams. -/
structure WorkGraph where
  part : Nat
  nSlots : Nat
  nGroups : Nat
  variants : List (List StreamDecl)
  tensors : List TensorDecl
  deriving DecidableEq, Repr

/-- A placed stream: its number, its core, whether it has reached END this step. -/
structure Placed where
  stream : Nat
  core : Nat
  ended : Bool
  deriving DecidableEq, Repr

/-- What Crown knows of one partition (R342 to R352). `withdraw` holds slot offset and signal of a WITHDRAW that waits, `restarts` and `replaces` the streams
to restart and to re-place, each with its slot (R743, R360), `prev` the page runs of a withdrawn work graph, `timeout` the stream and slot of a first
timeout (R745). -/
structure CrownPart where
  ringSeq : Nat
  wg : Option WorkGraph
  held : Bool
  begun : Bool
  step : Nat
  variant : Nat
  groups : List (Nat × Nat)
  placed : List Placed
  withdraw : Option (Nat × Nat)
  restarts : List (Nat × Nat)
  prev : List (Nat × Nat)
  replaces : List (Nat × Nat)
  timeout : Option (Nat × Nat)
  digest : List Byte
  deriving DecidableEq, Repr

def CrownPart.none : CrownPart := ⟨0, Option.none, false, false, 0, 0, [], [], Option.none, [], [], [], Option.none, []⟩

/-- A placement record (R369) without its time, which is the fabric time when written. -/
structure PlaceRec where
  kind : Nat
  part : Nat
  step : Nat
  time : Nat
  a : Nat
  b : Nat
  c : Nat
  d : Nat
  deriving DecidableEq, Repr

/-- A loan-table entry (R366); `asked`: the lender has asked for it back, `heat` its own sampling (R367). -/
structure Loan where
  part : Nat
  vpage : Nat
  lender : Nat
  index : Nat
  recalling : Bool
  asked : Bool
  heat : Nat
  deriving DecidableEq, Repr

/-- A page copy under way (R355, R365, R367): from, to, and what it is for. -/
inductive CopyKind where
  | migrate
  | lend (part vpage lender index : Nat)
  | recall (part vpage lender index : Nat)
  deriving DecidableEq, Repr

structure PageCopy where
  src : Nat
  dst : Nat
  kind : CopyKind
  deriving DecidableEq, Repr

/-- Crown. `escalations` are those on their way to it (core, code, whether the core was quarantined); `unitAsks` the restores of R747 with their times and whether
a restore has followed; `asks` the positions asked to lend that have not answered, `offers` those that have, with their pages, `noLender` that the last such
round found none, `granted` the pages that this chip has granted to a position and not yet mapped (R363); `selected` the pages selected for migration that wait
for their update engine (R298). -/
structure Crown where
  parts : Sparse CrownPart
  records : List PlaceRec
  loans : List Loan
  copies : List PageCopy
  lowHeat : List Nat
  lastLate : Sparse Nat
  escalations : List (Nat × Nat × Bool)
  wakePend : BitVec 16
  unitAsks : List (Nat × Bool)
  ringCount : Sparse Nat
  asks : List Nat
  offers : List (Nat × Nat)
  noLender : Bool
  granted : List (Nat × Nat)
  selected : List Nat
  deriving DecidableEq, Repr

def Crown.reset : Crown := ⟨[], [], [], [], [], [], [], 0, [], [], [], [], false, [], []⟩

/-! Brim (R577 to R591). -/

/-- Identity of a barrier or flag (R577); a region-scope one stands with its region. -/
structure BrimId where
  part : Nat
  scope : Nat
  name : Nat
  region : Nat
  deriving DecidableEq, Repr

/-- A node entry. `members` are the participants' (core, slot) pairs; `even` and `odd` the two arrival counters (R581);
`gen` is the next generation to complete on this chip, `rel` the next to be released; `value` a flag's value; `plan` the plan word
and `quadVp` the first page of its tensor (R576, R588). -/
structure BrimNode where
  id : BrimId
  entry : Nat
  flag : Bool
  members : List (Nat × Nat)
  even : Nat
  odd : Nat
  gen : Nat
  rel : Nat
  value : BitVec 32
  broken : Bool
  plan : BitVec 64
  quadVp : Nat
  deriving DecidableEq, Repr

/-- What a slot's registers name a node by: region (scope 0), scope, entry (R597). -/
structure BrimKey where
  region : Nat
  scope : Nat
  entry : Nat
  deriving DecidableEq, Repr

/-- Messages of the network on their way (R580, R585, R589): `counter` is the old value of a counter atomic that the
agent has read. -/
inductive BrimMsg where
  | arrive (key : BrimKey) (gen : Nat)
  | set (key : BrimKey) (v : BitVec 32)
  | add (key : BrimKey) (v : BitVec 32)
  | release (core slot : Nat)
  | value (core slot : Nat) (v : BitVec 32)
  | counter (id : BrimId) (fabric odd : Bool) (old : Nat)
  deriving DecidableEq, Repr

/-- `atomics` are the agent's counter atomics in flight to a root chip; `dirty` the slots left dirty at the last END report of a region, `dirtyCore` its core
(R594); `dirtyFlags` flags to be reset before the next step. -/
structure BrimNet where
  nodes : List BrimNode
  wire : List BrimMsg
  atomics : List (Nat × BrimId)
  dirtyCore : Sparse Nat
  dirty : Sparse (BitVec 48)
  dirtyFlags : List BrimKey
  deriving DecidableEq, Repr

def BrimNet.reset : BrimNet := ⟨[], [], [], [], [], []⟩

end Sys2Proof.Machine
end

