-- ==== Sys2Proof/Machine/StateCkpt.lean ====
section
/-!
DEFINITION. The state of the checkpoint controller (R599 to R636).
-/
namespace Sys2Proof.Machine

/-- A CONFIG in force (R606), with the session's lead partition. -/
structure CkptCfg where
  lead : Nat
  everyStep : Bool
  job : Nat
  alpha : Nat
  ctlVp : Nat
  settle : Nat
  tMin : Nat
  tMax : Nat
  m0 : Nat
  deriving DecidableEq, Repr

/-- `CKPT.SESSn_STATUS.STATE` (R635). -/
inductive CkptRun where
  | off | idle | quiescing | copying | draining | restoring | held
  deriving DecidableEq, Repr

def CkptRun.code : CkptRun → Nat
  | .off => 0 | .idle => 1 | .quiescing => 2 | .copying => 3 | .draining => 4 | .restoring => 5 | .held => 6

/-- A plan record (R618). -/
structure CkptPlan where
  n : Nat
  sN : Nat
  next : Nat
  t : Nat
  p : Nat
  restores : Nat
  m : Nat
  deriving DecidableEq, Repr

def CkptPlan.none : CkptPlan := ⟨0, 0, 0, 0, 0, 0, 0⟩

/-- The state record (R603): ingest cursors by (owner, agreement, next SEQ), registrations, rings and windows by region, reduction rings and jobs,
Brim nodes, slot registers by (partition, stream, slot, LO, HI), element counters by (region, key, count), work-graph digests by partition, the page set in copy
order as (partition, virtual page). (DESIGN CHOICE, log entry 94) -/
structure CkptRecord where
  gen : Nat
  step : Nat
  pause : Nat
  cursors : List (Nat × Nat × Nat)
  tables : List (Nat × Registration)
  ueRings : List (Nat × UeRing)
  windows : List (Nat × UeCmd)
  dones : List (Nat × AccDone)
  redRings : List RedRing
  jobs : List RedJob
  nodes : List BrimNode
  slots : List (Nat × Nat × Nat × BitVec 32 × BitVec 32)
  rng : List (Nat × Nat × Nat)
  digests : List (Nat × List Byte)
  pages : List (Nat × Nat)
  deriving DecidableEq, Repr

/-- A moving average kept exactly: num / 2^exp. (DEDUCED, log entry 95) -/
structure CkptMean where
  num : Nat
  exp : Nat
  deriving DecidableEq, Repr

/-- How far a restore has come on a chip (R626): its work ends and its pages are written back; it waits for its image; it has reported; its first step
loads. -/
inductive RestorePhase where
  | none | ending | image | reported | resuming
  deriving DecidableEq, Repr

/-- The controller's state for one session slot. `begun` is the newest generation begun, at the end of step `taken`; `even` and `odd` are the
state records of the two local areas; `owed` the drain's replies still to come; `landed` the quarter pages that have landed in this chip's buddy slots, as
(parity, quarter index); `absorbed` the restore requests taken by this coordinator, `wrote` the last RSEQ it has written; `target` the generation and step of a
restore, `rseq` its number, `phase` how far it is, `applied` the state record it has written back; `mean` is M and `tau` the mean step time in ns, `lastStep`
and `lastRestore` the times they run from; `since` is when the quiesce began, `stepEnd` when a step ended whose boundary is held (R623); `copied` the pages
that a copy or a write-back under way has done; `cks` the keys of generations (R456); `asked` says that the escrow holders have been asked (R628). -/
structure CkptSess where
  cfg : Option CkptCfg
  run : CkptRun
  begun : Nat
  taken : Option Nat
  plan : CkptPlan
  even : Option CkptRecord
  odd : Option CkptRecord
  cursors : List (Nat × Nat × Nat)
  owed : Nat
  landed : List (Nat × Nat)
  absorbed : Nat
  rseq : Nat
  wrote : Nat
  target : Option (Nat × Nat)
  phase : RestorePhase
  applied : Option CkptRecord
  settleLeft : Nat
  mean : CkptMean
  tau : CkptMean
  lastStep : Option Nat
  lastRestore : Nat
  pause : Nat
  hold : Nat
  restores : Nat
  deferred : Nat
  since : Nat
  stepEnd : Option Nat
  copied : List Nat
  cks : List (Nat × List Byte)
  asked : Bool
  deriving DecidableEq, Repr

def CkptSess.off : CkptSess :=
  ⟨none, .off, 0, none, CkptPlan.none, none, none, [], 0, [], 0, 0, 0, none, .none, none, 0, ⟨0, 0⟩, ⟨0, 0⟩, none, 0, 0, 0, 0, 0, 0, none, [], [], false⟩

/-- `atRest` marks the partitions whose work is quiesced (R610); `rings` are the command rings (R606); `last` is the LAST map (R612), as pages. -/
structure Ckpt where
  atRest : BitVec 32
  sess : Sparse CkptSess
  rings : List RedRing
  last : List Nat
  deriving DecidableEq, Repr

def Ckpt.reset : Ckpt := ⟨0, [], [], []⟩

end Sys2Proof.Machine
end

