-- ==== Sys2Proof/Syntax.lean ====
section
/-!
DEFINITION. The commands of the device: one constructor for each row of the table of operations and events, with its operands.
-/
namespace Sys2Proof

open Machine

/-- A command. (DESIGN CHOICE, log entries 14, 69 and 123) -/
inductive Instr where
  /-- R14. -/
  | registerWrite (who : Writer) (addr value : BitVec 32)
  /-- R92. -/
  | coreEnable (cr : BitVec 9) (who : Writer)
  /-- R92. -/
  | coreStop (cr : BitVec 9) (who : Writer)
  /-- R92. -/
  | coreDrain (cr : BitVec 9) (who : Writer)
  /-- R92. -/
  | coreDrained (cr : BitVec 9)
  /-- R741. -/
  | coreQuar (cr : BitVec 9) (who : Writer) (on : Bool)
  /-- R96. -/
  | coreIwinWrite (cr : BitVec 9) (who : Writer) (value : BitVec 32)
  /-- R74. -/
  | tileRetire (cr : BitVec 9) (id : Nat)
  /-- R60. -/
  | moverBoost (cr : BitVec 9) (slot : BitVec 6)
  /-- R85. -/
  | sqbRefillLanded (cr : BitVec 9) (far : Option (List (BitVec 8)))
  /-- R151. -/
  | coreStopOnError (cr : BitVec 9)
  /-- R101. -/
  | undefinedOpcode (cr : BitVec 9) (w : Waits) (word : BitVec 64)
  /-- R105. -/
  | nop (cr : BitVec 9) (w : Waits) (f : BitVec 56)
  /-- R109. -/
  | endStream (cr : BitVec 9) (w : Waits) (f : BitVec 56)
  /-- R109. -/
  | endComplete (cr : BitVec 9) (wait : Nat)
  /-- R105. -/
  | trapS (cr : BitVec 9) (w : Waits) (f : BitVec 56)
  /-- R107. -/
  | jmp (cr : BitVec 9) (w : Waits) (f : BitVec 56)
  /-- R107. -/
  | br (cr : BitVec 9) (w : Waits) (f : BitVec 56)
  /-- R107. -/
  | loop (cr : BitVec 9) (w : Waits) (f : BitVec 56)
  /-- R105. -/
  | add (cr : BitVec 9) (w : Waits) (f : BitVec 56)
  /-- R105. -/
  | sub (cr : BitVec 9) (w : Waits) (f : BitVec 56)
  /-- R105. -/
  | mul (cr : BitVec 9) (w : Waits) (f : BitVec 56)
  /-- R105. -/
  | andS (cr : BitVec 9) (w : Waits) (f : BitVec 56)
  /-- R105. -/
  | orS (cr : BitVec 9) (w : Waits) (f : BitVec 56)
  /-- R105. -/
  | xorS (cr : BitVec 9) (w : Waits) (f : BitVec 56)
  /-- R105. -/
  | shl (cr : BitVec 9) (w : Waits) (f : BitVec 56)
  /-- R105. -/
  | shr (cr : BitVec 9) (w : Waits) (f : BitVec 56)
  /-- R105. -/
  | sra (cr : BitVec 9) (w : Waits) (f : BitVec 56)
  /-- R105. -/
  | addi (cr : BitVec 9) (w : Waits) (f : BitVec 56)
  /-- R105. -/
  | li (cr : BitVec 9) (w : Waits) (f : BitVec 56)
  /-- R105. -/
  | lih (cr : BitVec 9) (w : Waits) (f : BitVec 56)
  /-- R105. -/
  | minS (cr : BitVec 9) (w : Waits) (f : BitVec 56)
  /-- R105. -/
  | maxS (cr : BitVec 9) (w : Waits) (f : BitVec 56)
  /-- R110. -/
  | lds (cr : BitVec 9) (w : Waits) (f : BitVec 56)
  /-- R110. -/
  | sts (cr : BitVec 9) (w : Waits) (f : BitVec 56)
  /-- R105. -/
  | mova (cr : BitVec 9) (w : Waits) (f : BitVec 56)
  /-- R105. -/
  | movs (cr : BitVec 9) (w : Waits) (f : BitVec 56)
  /-- R105. -/
  | adda (cr : BitVec 9) (w : Waits) (f : BitVec 56)
  /-- R111. -/
  | tdset (cr : BitVec 9) (w : Waits) (f : BitVec 56)
  /-- R105. -/
  | tdget (cr : BitVec 9) (w : Waits) (f : BitVec 56)
  /-- R105. -/
  | tdadv (cr : BitVec 9) (w : Waits) (f : BitVec 56)
  /-- R97. -/
  | mfs (cr : BitVec 9) (w : Waits) (f : BitVec 56)
  /-- R97. -/
  | mts (cr : BitVec 9) (w : Waits) (f : BitVec 56)
  /-- R117. -/
  | tmma (cr : BitVec 9) (w : Waits) (f : BitVec 56) (ev : CheckEvent)
  /-- R219. -/
  | tpre (cr : BitVec 9) (w : Waits) (f : BitVec 56) (ev : CheckEvent)
  /-- R236. -/
  | tfin (cr : BitVec 9) (w : Waits) (f : BitVec 56) (ev : CheckEvent)
  /-- R126. -/
  | tacst (cr : BitVec 9) (w : Waits) (f : BitVec 56) (ev : CheckEvent)
  /-- R126. -/
  | tcvt (cr : BitVec 9) (w : Waits) (f : BitVec 56) (ev : CheckEvent)
  /-- R122. -/
  | tepi (cr : BitVec 9) (w : Waits) (f : BitVec 56) (ev : CheckEvent)
  /-- R132. -/
  | vadd (cr : BitVec 9) (w : Waits) (f : BitVec 56) (ev : CheckEvent)
  /-- R132. -/
  | vsub (cr : BitVec 9) (w : Waits) (f : BitVec 56) (ev : CheckEvent)
  /-- R132. -/
  | vmul (cr : BitVec 9) (w : Waits) (f : BitVec 56) (ev : CheckEvent)
  /-- R132. -/
  | vfma (cr : BitVec 9) (w : Waits) (f : BitVec 56) (ev : CheckEvent)
  /-- R132. -/
  | vmax (cr : BitVec 9) (w : Waits) (f : BitVec 56) (ev : CheckEvent)
  /-- R132. -/
  | vmin (cr : BitVec 9) (w : Waits) (f : BitVec 56) (ev : CheckEvent)
  /-- R132. -/
  | vexp2 (cr : BitVec 9) (w : Waits) (f : BitVec 56) (ev : CheckEvent)
  /-- R132. -/
  | vlog2 (cr : BitVec 9) (w : Waits) (f : BitVec 56) (ev : CheckEvent)
  /-- R132. -/
  | vrcp (cr : BitVec 9) (w : Waits) (f : BitVec 56) (ev : CheckEvent)
  /-- R132. -/
  | vrsq (cr : BitVec 9) (w : Waits) (f : BitVec 56) (ev : CheckEvent)
  /-- R133. -/
  | vcmp (cr : BitVec 9) (w : Waits) (f : BitVec 56) (ev : CheckEvent)
  /-- R132. -/
  | vsel (cr : BitVec 9) (w : Waits) (f : BitVec 56) (ev : CheckEvent)
  /-- R132. -/
  | vbcast (cr : BitVec 9) (w : Waits) (f : BitVec 56) (ev : CheckEvent)
  /-- R135. -/
  | vld (cr : BitVec 9) (w : Waits) (f : BitVec 56) (ev : CheckEvent)
  /-- R135. -/
  | vst (cr : BitVec 9) (w : Waits) (f : BitVec 56) (ev : CheckEvent)
  /-- R132. -/
  | vredsum (cr : BitVec 9) (w : Waits) (f : BitVec 56) (ev : CheckEvent)
  /-- R132. -/
  | vredmax (cr : BitVec 9) (w : Waits) (f : BitVec 56) (ev : CheckEvent)
  /-- R132. -/
  | viadd (cr : BitVec 9) (w : Waits) (f : BitVec 56) (ev : CheckEvent)
  /-- R134. -/
  | vcvt (cr : BitVec 9) (w : Waits) (f : BitVec 56) (ev : CheckEvent)
  /-- R132. -/
  | pand (cr : BitVec 9) (w : Waits) (f : BitVec 56) (ev : CheckEvent)
  /-- R132. -/
  | por (cr : BitVec 9) (w : Waits) (f : BitVec 56) (ev : CheckEvent)
  /-- R132. -/
  | pnot (cr : BitVec 9) (w : Waits) (f : BitVec 56) (ev : CheckEvent)
  /-- R132. -/
  | vacq (cr : BitVec 9) (w : Waits) (f : BitVec 56) (ev : CheckEvent)
  /-- R132. -/
  | vstq (cr : BitVec 9) (w : Waits) (f : BitVec 56) (ev : CheckEvent)
  /-- R502. -/
  | get (cr : BitVec 9) (w : Waits) (f : BitVec 56)
  /-- R502. -/
  | put (cr : BitVec 9) (w : Waits) (f : BitVec 56)
  /-- R506. -/
  | putSignal (cr : BitVec 9) (w : Waits) (f : BitVec 56)
  /-- R502. -/
  | atomicAdd (cr : BitVec 9) (w : Waits) (f : BitVec 56)
  /-- R503. -/
  | atomicCas (cr : BitVec 9) (w : Waits) (f : BitVec 56)
  /-- R543. -/
  | reducePut (cr : BitVec 9) (w : Waits) (f : BitVec 56)
  /-- R510. -/
  | fence (cr : BitVec 9) (w : Waits) (f : BitVec 56)
  /-- R140. -/
  | moverOpStart (cr : BitVec 9) (slot : BitVec 6) (ev : List MemEvent)
  /-- R522. -/
  | quotaStagePass (cr : BitVec 9) (slot : BitVec 6) (ns : Nat)
  /-- R522. -/
  | rmoQuota (cr : BitVec 9) (slot : BitVec 6)
  /-- R524. -/
  | rmoLifetime (cr : BitVec 9) (slot : BitVec 6)
  /-- R514. -/
  | moverOpComplete (cr : BitVec 9) (slot : BitVec 6) (us : Nat) (blocks : List HostBlock)
  /-- R583. -/
  | bar (cr : BitVec 9) (w : Waits) (f : BitVec 56)
  /-- R580. -/
  | barv (cr : BitVec 9) (w : Waits) (f : BitVec 56)
  /-- R583. -/
  | bwait (cr : BitVec 9) (w : Waits) (f : BitVec 56)
  /-- R585. -/
  | fset (cr : BitVec 9) (w : Waits) (f : BitVec 56)
  /-- R585. -/
  | fadd (cr : BitVec 9) (w : Waits) (f : BitVec 56)
  /-- R586. -/
  | fwait (cr : BitVec 9) (w : Waits) (f : BitVec 56)
  /-- R143. -/
  | cwait (cr : BitVec 9) (w : Waits) (f : BitVec 56)
  /-- R143. -/
  | cread (cr : BitVec 9) (w : Waits) (f : BitVec 56)
  /-- R143. -/
  | twait (cr : BitVec 9) (w : Waits) (f : BitVec 56)
  /-- R143. -/
  | mwait (cr : BitVec 9) (w : Waits) (f : BitVec 56)
  /-- R257. -/
  | wslot (cr : BitVec 9) (w : Waits) (f : BitVec 56)
  /-- R145. -/
  | waitTimeout (cr : BitVec 9)
  /-- R260. -/
  | weaveLateClear (rg : BitVec 4) (who : Writer)
  /-- R276. -/
  | ueSlotConsume (rg : BitVec 4) (part : BitVec 5)
  /-- R281. -/
  | ueRegister (rg : BitVec 4) (k : BitVec 6)
  /-- R284. -/
  | ueRelease (rg : BitVec 4) (k : BitVec 6)
  /-- R285. -/
  | ueAccum (rg : BitVec 4) (k : BitVec 6)
  /-- R291. -/
  | ueStep (rg : BitVec 4) (k : BitVec 6)
  /-- R295. -/
  | ueMode (rg : BitVec 4) (k : BitVec 6)
  /-- R278. -/
  | ueUndefinedOp (rg : BitVec 4) (k : BitVec 6)
  /-- R301. -/
  | ueEnable (rg : BitVec 4) (who : Writer) (on : Bool)
  /-- R301. -/
  | ueDrain (rg : BitVec 4) (who : Writer)
  /-- R301. -/
  | ueDrainComplete (rg : BitVec 4)
  /-- R310. -/
  | patrolPass (rg : BitVec 4) (ev : List MemEvent)
  /-- R338. -/
  | patrolRun (rg : BitVec 4) (who : Writer)
  /-- R316. -/
  | heatDecaySweep (flips : List (BitVec 21 × BitVec 128))
  /-- R336. -/
  | prtRepairComplete
  /-- R337. -/
  | chainMaxClear (who : Writer)
  /-- R331. -/
  | rbLineFill (rg : BitVec 4) (page : BitVec 21) (line : BitVec 8)
  /-- R394. -/
  | mergeReadDone (page : BitVec 21) (line : BitVec 8) (ev : List MemEvent)
  /-- R386. -/
  | wholePageWriteDone (page : BitVec 21)
  /-- R392. -/
  | scrubJobStart (rg : BitVec 4)
  /-- R327. -/
  | scrubZeroFillDone (rg : BitVec 4)
  /-- R327. -/
  | scrubEraseDone (rg : BitVec 4)
  /-- R392. -/
  | scrubSweepDone (rg : BitVec 4) (ev : List MemEvent)
  /-- R389. -/
  | scrubReencryptDone (rg : BitVec 4) (ev : List MemEvent)
  /-- R377. -/
  | keySlotLoad (cuff : Fin 59) (slot : BitVec 6)
  /-- R377. -/
  | keySlotZeroise (cuff : Fin 59) (slot : BitVec 6)
  /-- R402. -/
  | d2dFlitSend (dcuff : Fin 6) (part : BitVec 5) (kgen : Bool) (cls : BitVec 2) (units : BitVec 3) (route : BitVec 48) (payload : List (BitVec 8))
  /-- R403. -/
  | d2dFlitReceive (dcuff : Fin 6) (flit : Flit) (owner : Option (BitVec 9 × BitVec 6))
  /-- R403. -/
  | d2dReplayRequest (dcuff : Fin 6) (ctr : BitVec 64)
  /-- R407. -/
  | integrityHalt
  /-- R426. -/
  | charterSubmit (c : Charter) (encOk sigsOk operOk : Bool)
  /-- R659. -/
  | doeDiscovery (index : BitVec 8)
  /-- R433. -/
  | getVersion (t : Fin 3)
  /-- R433. -/
  | getCapabilities (t : Fin 3)
  /-- R433. -/
  | negotiateAlgorithms (t : Fin 3) (offered : Bool)
  /-- R433. -/
  | getDigests (t : Fin 3)
  /-- R433. -/
  | getCertificate (t : Fin 3) (slot : BitVec 4)
  /-- R433. -/
  | challenge (t : Fin 3) (slot : BitVec 4)
  /-- R434. -/
  | getMeasurements (t : Fin 3) (index : BitVec 8)
  /-- R433. -/
  | keyExchange (t : Fin 3)
  /-- R433. -/
  | spdmFinish (t : Fin 3) (sec : Nat) (good : Bool)
  /-- R433. -/
  | endSession (t : Fin 3) (sec : Nat)
  /-- R430. -/
  | seedShare (sec owner : Nat) (id share : List (BitVec 8)) (sigOk : Bool)
  /-- R436. -/
  | ownerAgree (sec owner : Nat) (id : List (BitVec 8)) (sigOk : Bool) (pub : List (BitVec 8))
  /-- R447. -/
  | ownerRotate (sec owner : Nat) (id : List (BitVec 8)) (sigOk : Bool) (part : BitVec 5)
  /-- R451. -/
  | ownerEnd (sec owner : Nat) (id : List (BitVec 8)) (sigOk : Bool)
  /-- R457. -/
  | escrowShare (sec owner : Nat) (id : List (BitVec 8)) (sigOk : Bool) (index : Nat) (share : List (BitVec 8))
  /-- R438. -/
  | ingestRecord (ring : Fin 8) (header payload tag : List (BitVec 8))
  /-- R674. -/
  | restoreRecord (ring : Fin 8) (header payload : List (BitVec 8))
  /-- R668. -/
  | egressPost
  /-- R669. -/
  | egrFull (cr : BitVec 9) (slot : BitVec 6)
  /-- R462. -/
  | keysRotateGo (part : BitVec 5) (who : Writer)
  /-- R462. -/
  | sessCtrlEnd (slot : Fin 8) (who : Writer)
  /-- R424. -/
  | scheduledRotation (slot : Fin 8)
  /-- R447. -/
  | rotationComplete (part : BitVec 5)
  /-- R451. -/
  | notAfterExpiry (slot : Fin 8)
  /-- R451. -/
  | teardownDrained (slot : Fin 8)
  /-- R451. -/
  | sessionClosed (slot : Fin 8)
  /-- R454. -/
  | teardownStall (slot : Fin 8)
  /-- R345. -/
  | submit (part : BitVec 5) (rings : List (Nat × Nat × Nat))
  /-- R343. -/
  | withdraw (part : BitVec 5)
  /-- R343. -/
  | withdrawTakeEffect (part : BitVec 5)
  /-- R352. -/
  | crownStepBoundary (part : BitVec 5)
  /-- R354. -/
  | migrationScan
  /-- R355. -/
  | migrationCopyDone (k : Nat)
  /-- R357. -/
  | regionSleep (rg : BitVec 4)
  /-- R721. -/
  | regionSleepEntryDone (rg : BitVec 4)
  /-- R357. -/
  | regionWake (rg : BitVec 4) (core : Option (Fin 32))
  /-- R357. -/
  | regionWakeDone (rg : BitVec 4) (ns : Nat)
  /-- R738. -/
  | coreEscalation (cr : BitVec 9)
  /-- R742. -/
  | crownEscalationReceive
  /-- R360. -/
  | streamReplace (part : BitVec 5) (stream : Nat)
  /-- R743. -/
  | slotRestart (part : BitVec 5) (stream : Nat)
  /-- R363. -/
  | borrow
  /-- R363. -/
  | crownFrame (f : RxFrame) (msg : LendMsg)
  /-- R365. -/
  | loanCopyDone (k : Nat)
  /-- R367. -/
  | recall
  /-- R748. -/
  | crownStall
  /-- R471. -/
  | linkTrainStart (j : Fin 36)
  /-- R471. -/
  | linkTrainPhaseDone (j : Fin 36) (peer : BitVec 16) (peerLink : BitVec 6) (good : Bool) (pub : List (BitVec 8))
  /-- R471. -/
  | linkTrainPhaseTimeout (j : Fin 36)
  /-- R474. -/
  | fastRetrain (j : Fin 36)
  /-- R474. -/
  | fastRetrainDone (j : Fin 36) (good : Bool)
  /-- R475. -/
  | flitReceive (j : Fin 36) (periods : List (List (List (BitVec 10))))
  /-- R475. -/
  | linkNak (j : Fin 36) (ack : BitVec 12)
  /-- R479. -/
  | frameSend (j : Fin 36) (fseq : BitVec 12)
  /-- R479. -/
  | classFloor (j : Fin 36) (cls : Fin 4)
  /-- R488. -/
  | heartbeatSend
  /-- R488. -/
  | heartbeat (f : RxFrame)
  /-- R488. -/
  | linkSilence (j : Fin 36) (path : Bool)
  /-- R488. -/
  | carrierLost (j : Fin 36)
  /-- R488. -/
  | lockLost (j : Fin 36)
  /-- R488. -/
  | retrainTimeout (pos : Fin 8)
  /-- R488. -/
  | haltFrame (f : RxFrame)
  /-- R453. -/
  | teardownFrame (f : RxFrame)
  /-- R492. -/
  | timeReqSend (pos : Fin 8)
  /-- R492. -/
  | timeReq (f : RxFrame)
  /-- R493. -/
  | timeRsp (f : RxFrame)
  /-- R493. -/
  | timeUnlocked (lost : Bool)
  /-- R730. -/
  | syncPps (high : Bool)
  /-- R487. -/
  | rekeyLimit (peer : BitVec 13) (part : BitVec 5)
  /-- R487. -/
  | rekeyOffer (f : RxFrame) (pub : List (BitVec 8))
  /-- R487. -/
  | rekeyAccept (f : RxFrame) (pub : List (BitVec 8))
  /-- R487. -/
  | rekeyDone (f : RxFrame)
  /-- R487. -/
  | rekeyTimeout (peer : BitVec 13) (part : BitVec 5)
  /-- R482. -/
  | pathSetup (f : RxFrame) (fid : BitVec 32) (digest device : List (BitVec 8)) (chainOk : Bool) (pub : List (BitVec 8))
  /-- R482. -/
  | pathReply (f : RxFrame) (fid : BitVec 32) (digest device : List (BitVec 8)) (chainOk : Bool) (pub : List (BitVec 8))
  /-- R473. -/
  | confirmFrame (f : RxFrame)
  /-- R488. -/
  | unreachable (f : RxFrame) (chip : BitVec 13)
  /-- R486. -/
  | pathStoreFull (chip : BitVec 13) (part : BitVec 5)
  /-- R474. -/
  | linkRetrain (j : Fin 36) (who : Writer)
  /-- R496. -/
  | linkTrain (j : Fin 36) (who : Writer)
  /-- R496. -/
  | linkEnable (j : Fin 36) (who : Writer) (on : Bool)
  /-- R525. -/
  | putLines (f : RxFrame)
  /-- R525. -/
  | putBytes (f : RxFrame)
  /-- R526. -/
  | signalFrame (f : RxFrame)
  /-- R526. -/
  | getReq (f : RxFrame) (ev : List MemEvent)
  /-- R525. -/
  | getData (f : RxFrame)
  /-- R503. -/
  | atomicReq (f : RxFrame)
  /-- R525. -/
  | atomicRsp (f : RxFrame)
  /-- R526. -/
  | ack (f : RxFrame)
  /-- R540. -/
  | openJob (part : BitVec 5)
  /-- R541. -/
  | closeJob (part : BitVec 5)
  /-- R541. -/
  | redCloseDone (entry : Fin 32)
  /-- R781. -/
  | testHop
  /-- R540. -/
  | redOpen (f : RxFrame)
  /-- R547. -/
  | bucketFull (entry : Fin 32)
  /-- R547. -/
  | redReady (f : RxFrame)
  /-- R550. -/
  | redData (f : RxFrame) (residue : Nat)
  /-- R567. -/
  | redAbort (f : RxFrame)
  /-- R564. -/
  | bucketComplete (entry : Fin 32)
  /-- R581. -/
  | brimArrival (k : Nat)
  /-- R589. -/
  | brimLastAdder (k : Nat)
  /-- R590. -/
  | brimFrame (f : RxFrame)
  /-- R580. -/
  | brimReleaseDeliver (cr : BitVec 9) (slot : Fin 48)
  /-- R585. -/
  | brimFlagUpdate (k : Nat)
  /-- R585. -/
  | brimFlagDeliver (cr : BitVec 9) (slot : Fin 48)
  /-- R824. -/
  | brimSlotWrite (cr : BitVec 9) (who : Writer) (slot : Fin 48) (hi : Bool) (value : BitVec 32)
  /-- R606. -/
  | ckptConfig (part : BitVec 5) (place : Option (Nat × Nat))
  /-- R610. -/
  | ckptQuiesce (slot : Fin 8)
  /-- R611. -/
  | ckptQuiesceTimeout (slot : Fin 8)
  /-- R612. -/
  | ckptCopy (slot : Fin 8)
  /-- R614. -/
  | ckptResume (slot : Fin 8)
  /-- R616. -/
  | ckptDrainDone (slot : Fin 8)
  /-- R617. -/
  | ckptImageCheck (slot : Fin 8) (odd : Bool)
  /-- R618. -/
  | ckptCommit (slot : Fin 8)
  /-- R620. -/
  | ckptPlanReceive (slot : Fin 8) (vps : List (Nat × Nat))
  /-- R625. -/
  | restoreBegin (slot : Fin 8) (back : Bool)
  /-- R626. -/
  | restoreRecordReceive (slot : Fin 8)
  /-- R628. -/
  | restoreImageFetched (slot : Fin 8) (record : CkptRecord)
  /-- R626. -/
  | restoreComplete (slot : Fin 8)
  /-- R629. -/
  | settleEnd (slot : Fin 8) (vps : List (Nat × Nat))
  /-- R638. -/
  | coldBoot (b : BootFacts)
  /-- R654. -/
  | bootReady (rings : List (Nat × Nat × Nat))
  /-- R652. -/
  | bootTimeout
  /-- R664. -/
  | ingestDoorbell (ring : Fin 8) (who : Writer) (value : BitVec 32)
  /-- R665. -/
  | ingestRingReset (ring : Fin 8) (who : Writer)
  /-- R667. -/
  | egressHeadWrite (who : Writer) (value : BitVec 32)
  /-- R661. -/
  | werrClear (who : Writer)
  /-- R675. -/
  | pcieReset
  /-- R658. -/
  | ideIntegrity
  /-- R770. -/
  | pcieLoopbackFollower
  /-- R684. -/
  | mgmtConnect (key : List (BitVec 8)) (chainOk inDate : Bool)
  /-- R683. -/
  | mgmtDiscard
  /-- R687. -/
  | mgmtInfo (conn : Fin 4) (id : BitVec 32)
  /-- R688. -/
  | readReg (conn : Fin 4) (id addr : BitVec 32) (n : Nat)
  /-- R688. -/
  | writeReg (conn : Fin 4) (id addr value : BitVec 32)
  /-- R691. -/
  | telemSet (conn : Fin 4) (id : BitVec 32) (period : Nat)
  /-- R691. -/
  | telemPush (conn : Fin 4) (measured : List Nat)
  /-- R695. -/
  | flogRead (conn : Fin 4) (id seq : BitVec 32)
  /-- R689. -/
  | mgmtCharter (conn : Fin 4) (id : BitVec 32) (c : Charter) (encOk sigsOk operOk : Bool)
  /-- R687. -/
  | mgmtSessions (conn : Fin 4) (id : BitVec 32)
  /-- R687. -/
  | sessionEnd (conn : Fin 4) (id : BitVec 32) (slot : Fin 8)
  /-- R687. -/
  | mgmtRotate (conn : Fin 4) (id : BitVec 32) (part : BitVec 5)
  /-- R696. -/
  | stageBegin (conn : Fin 4) (id : BitVec 32) (slot : Fin 2) (total : BitVec 32)
  /-- R696. -/
  | stageData (conn : Fin 4) (id off : BitVec 32) (data : List (BitVec 8)) (flashOk : Bool)
  /-- R696. -/
  | stageCommit (conn : Fin 4) (id : BitVec 32) (unread kSig iSig flashOk : Bool)
  /-- R699. -/
  | stageTimeout
  /-- R687. -/
  | mgmtSpdm (conn : Fin 4) (id : BitVec 32) (q : SpdmReq)
  /-- R700. -/
  | ppsSecond (conn : Fin 4) (id : BitVec 32) (sec : BitVec 64)
  /-- R687. -/
  | placementRead (conn : Fin 4) (id : BitVec 32) (start : Nat)
  /-- R687. -/
  | visorReport (conn : Fin 4) (id : BitVec 32)
  /-- R687. -/
  | mgmtMsgIllegal (conn : Fin 4) (type : BitVec 16) (id : BitVec 32)
  /-- R694. -/
  | flogFlashWrite
  /-- R703. -/
  | mgmtRestart
  /-- R701. -/
  | mctpControl (cmd eid : BitVec 8)
  /-- R702. -/
  | bmcHealth
  /-- R702. -/
  | bmcFlog
  /-- R702. -/
  | bmcCap (watts : BitVec 16)
  /-- R709. -/
  | pllLock (d : Fin 26) (mhz : Nat)
  /-- R709. -/
  | pllUnlock (d : Fin 26) (mhz : Nat)
  /-- R708. -/
  | xtalFail
  /-- R715. -/
  | seamStall (near far : Fin 26)
  /-- R713. -/
  | seamRelease (d : Fin 26)
  /-- R716. -/
  | vrFault (rg : BitVec 4) (mv : Nat)
  /-- R722. -/
  | dvfsChange (rg : BitVec 4)
  /-- R726. -/
  | powerSample (readings : List (Nat × Nat))
  /-- R727. -/
  | thermalSample (regions : List Nat) (ld smd : Nat) (dramStacks : List Nat)
  /-- R718. -/
  | coldRstN (low : Bool)
  /-- R728. -/
  | pwrgd (low : Bool)
  /-- R728. -/
  | perst (low : Bool)
  /-- R728. -/
  | throttleN (low : Bool)
  /-- R729. -/
  | inputStuck (pin : Fin 5)
  /-- R753. -/
  | visorSample (days : Nat) (readings rings : List (Nat × Nat × Nat))
  /-- R756. -/
  | visorPeriod (days : Nat)
  /-- R756. -/
  | visorRun (who : Writer)
  /-- R756. -/
  | visorPlanApply (flashOk : Bool)
  /-- R780. -/
  | coreDiag (rg : BitVec 4) (core : Fin 32) (who : Writer)
  /-- R780. -/
  | coreDiagDone (rg : BitVec 4) (pass : Bool) (failOp : BitVec 16)
  /-- R765. -/
  | linkLoop (j : Fin 36) (who : Writer) (mode : BitVec 3) (seconds : BitVec 8)
  /-- R768. -/
  | linkLoopEnd (j : Fin 36) (cnt err : Nat)
  /-- R773. -/
  | idcode
  /-- R773. -/
  | samplePreload (pins shift : List Bool)
  /-- R774. -/
  | extest (pins shift : List Bool)
  /-- R774. -/
  | extestPulse (pins shift : List Bool)
  /-- R774. -/
  | extestTrain (pins shift : List Bool)
  /-- R774. -/
  | tapClamp
  /-- R774. -/
  | tapHighz
  /-- R773. -/
  | tapBypass
  /-- R776. -/
  | dbgChallenge
  /-- R777. -/
  | dbgToken (token : List (BitVec 8)) (sigOk : Bool)
  /-- R773. -/
  | dbgStatus
  /-- R794. -/
  | powerUp
  /-- R794. -/
  | railInRange
  /-- R796. -/
  | railFault (rail : Fin 11) (mv : Nat)
  /-- R795. -/
  | railFall
  /-- R299. -/
  | groupWriteBack (rg : BitVec 4) (k : BitVec 6) (bad : Bool)
  /-- R147. -/
  | vectorRetire (cr : BitVec 9) (id : Nat)
  /-- R367. -/
  | recallCopyDone (k : Nat)
  /-- R657. -/
  | ideKm (sec : Nat) (set go : Bool)
  /-- R701. -/
  | entdaa
  /-- R675. -/
  | pcieLinkUp (speed width : Nat) (flit : Bool)
  /-- R699. -/
  | mgmtConnectionClose (conn : Fin 4)
  /-- R491. -/
  | aonPowerLoss
  /-- R775. -/
  | fieldBist (rows : List (Nat × Nat × Nat))
  /-- R683. -/
  | sgmiiLink (up addr : Bool)
  deriving DecidableEq, Repr

end Sys2Proof
end

