-- ==== Sys2Proof/Decode.lean ====
section
/-!
DEFINITION. The words of the core's instructions (R100, R105, R117, R132, R138, R143): their decoder, total on words, and their encoder. The table of the
device's commands gives no bits, so that no word spells a command of it.
-/
namespace Sys2Proof

open Machine

/-- A word of the table's bits: no row gives any. (DESIGN CHOICE, log entry 15) -/
def decodeTableWord (_nbits _w : Nat) : Option Instr := none

/-- Opcodes that the tables of the core's instructions define (R105, R117, R132, R138, R143). -/
def definedOpcode (op : Nat) : Bool :=
  decide (op ≤ 0x05 ∨ (0x08 ≤ op ∧ op ≤ 0x15) ∨ (0x18 ≤ op ∧ op ≤ 0x21) ∨ (0x40 ≤ op ∧ op ≤ 0x45) ∨
    (0x80 ≤ op ∧ op ≤ 0x97) ∨ (0xC0 ≤ op ∧ op ≤ 0xC6) ∨ (0xE0 ≤ op ∧ op ≤ 0xEA))

/-- The word of an opcode and the 56 bits below it (R100). -/
def coreWord (op : BitVec 8) (f : BitVec 56) : BitVec 64 := op ++ f

/-- The instruction that core `cr` issues for a word: opcodes that no table defines are undefined (R101). `w` and `ev` are what the environment tells of the
issue. -/
def decodeCoreWord (cr : BitVec 9) (w : Waits) (ev : CheckEvent) (word : BitVec 64) : Instr :=
  let f : BitVec 56 := word.setWidth 56
  match (word >>> 56).toNat with
  | 0x00 => .nop cr w f
  | 0x01 => .endStream cr w f
  | 0x02 => .trapS cr w f
  | 0x03 => .jmp cr w f
  | 0x04 => .br cr w f
  | 0x05 => .loop cr w f
  | 0x08 => .add cr w f
  | 0x09 => .sub cr w f
  | 0x0A => .mul cr w f
  | 0x0B => .andS cr w f
  | 0x0C => .orS cr w f
  | 0x0D => .xorS cr w f
  | 0x0E => .shl cr w f
  | 0x0F => .shr cr w f
  | 0x10 => .sra cr w f
  | 0x11 => .addi cr w f
  | 0x12 => .li cr w f
  | 0x13 => .lih cr w f
  | 0x14 => .minS cr w f
  | 0x15 => .maxS cr w f
  | 0x18 => .lds cr w f
  | 0x19 => .sts cr w f
  | 0x1A => .mova cr w f
  | 0x1B => .movs cr w f
  | 0x1C => .adda cr w f
  | 0x1D => .tdset cr w f
  | 0x1E => .tdget cr w f
  | 0x1F => .tdadv cr w f
  | 0x20 => .mfs cr w f
  | 0x21 => .mts cr w f
  | 0x40 => .tmma cr w f ev
  | 0x41 => .tpre cr w f ev
  | 0x42 => .tfin cr w f ev
  | 0x43 => .tacst cr w f ev
  | 0x44 => .tcvt cr w f ev
  | 0x45 => .tepi cr w f ev
  | 0x80 => .vadd cr w f ev
  | 0x81 => .vsub cr w f ev
  | 0x82 => .vmul cr w f ev
  | 0x83 => .vfma cr w f ev
  | 0x84 => .vmax cr w f ev
  | 0x85 => .vmin cr w f ev
  | 0x86 => .vexp2 cr w f ev
  | 0x87 => .vlog2 cr w f ev
  | 0x88 => .vrcp cr w f ev
  | 0x89 => .vrsq cr w f ev
  | 0x8A => .vcmp cr w f ev
  | 0x8B => .vsel cr w f ev
  | 0x8C => .vbcast cr w f ev
  | 0x8D => .vld cr w f ev
  | 0x8E => .vst cr w f ev
  | 0x8F => .vredsum cr w f ev
  | 0x90 => .vredmax cr w f ev
  | 0x91 => .viadd cr w f ev
  | 0x92 => .vcvt cr w f ev
  | 0x93 => .pand cr w f ev
  | 0x94 => .por cr w f ev
  | 0x95 => .pnot cr w f ev
  | 0x96 => .vacq cr w f ev
  | 0x97 => .vstq cr w f ev
  | 0xC0 => .get cr w f
  | 0xC1 => .put cr w f
  | 0xC2 => .putSignal cr w f
  | 0xC3 => .atomicAdd cr w f
  | 0xC4 => .atomicCas cr w f
  | 0xC5 => .reducePut cr w f
  | 0xC6 => .fence cr w f
  | 0xE0 => .bar cr w f
  | 0xE1 => .barv cr w f
  | 0xE2 => .bwait cr w f
  | 0xE3 => .fset cr w f
  | 0xE4 => .fadd cr w f
  | 0xE5 => .fwait cr w f
  | 0xE6 => .cwait cr w f
  | 0xE7 => .cread cr w f
  | 0xE8 => .twait cr w f
  | 0xE9 => .mwait cr w f
  | 0xEA => .wslot cr w f
  | _ => .undefinedOpcode cr w word

/-- The word of an instruction of the core; none for every other command. -/
def encodeWord : Instr → Option (BitVec 64)
  | .nop _ _ f => some (coreWord 0x00 f)
  | .endStream _ _ f => some (coreWord 0x01 f)
  | .trapS _ _ f => some (coreWord 0x02 f)
  | .jmp _ _ f => some (coreWord 0x03 f)
  | .br _ _ f => some (coreWord 0x04 f)
  | .loop _ _ f => some (coreWord 0x05 f)
  | .add _ _ f => some (coreWord 0x08 f)
  | .sub _ _ f => some (coreWord 0x09 f)
  | .mul _ _ f => some (coreWord 0x0A f)
  | .andS _ _ f => some (coreWord 0x0B f)
  | .orS _ _ f => some (coreWord 0x0C f)
  | .xorS _ _ f => some (coreWord 0x0D f)
  | .shl _ _ f => some (coreWord 0x0E f)
  | .shr _ _ f => some (coreWord 0x0F f)
  | .sra _ _ f => some (coreWord 0x10 f)
  | .addi _ _ f => some (coreWord 0x11 f)
  | .li _ _ f => some (coreWord 0x12 f)
  | .lih _ _ f => some (coreWord 0x13 f)
  | .minS _ _ f => some (coreWord 0x14 f)
  | .maxS _ _ f => some (coreWord 0x15 f)
  | .lds _ _ f => some (coreWord 0x18 f)
  | .sts _ _ f => some (coreWord 0x19 f)
  | .mova _ _ f => some (coreWord 0x1A f)
  | .movs _ _ f => some (coreWord 0x1B f)
  | .adda _ _ f => some (coreWord 0x1C f)
  | .tdset _ _ f => some (coreWord 0x1D f)
  | .tdget _ _ f => some (coreWord 0x1E f)
  | .tdadv _ _ f => some (coreWord 0x1F f)
  | .mfs _ _ f => some (coreWord 0x20 f)
  | .mts _ _ f => some (coreWord 0x21 f)
  | .tmma _ _ f _ => some (coreWord 0x40 f)
  | .tpre _ _ f _ => some (coreWord 0x41 f)
  | .tfin _ _ f _ => some (coreWord 0x42 f)
  | .tacst _ _ f _ => some (coreWord 0x43 f)
  | .tcvt _ _ f _ => some (coreWord 0x44 f)
  | .tepi _ _ f _ => some (coreWord 0x45 f)
  | .vadd _ _ f _ => some (coreWord 0x80 f)
  | .vsub _ _ f _ => some (coreWord 0x81 f)
  | .vmul _ _ f _ => some (coreWord 0x82 f)
  | .vfma _ _ f _ => some (coreWord 0x83 f)
  | .vmax _ _ f _ => some (coreWord 0x84 f)
  | .vmin _ _ f _ => some (coreWord 0x85 f)
  | .vexp2 _ _ f _ => some (coreWord 0x86 f)
  | .vlog2 _ _ f _ => some (coreWord 0x87 f)
  | .vrcp _ _ f _ => some (coreWord 0x88 f)
  | .vrsq _ _ f _ => some (coreWord 0x89 f)
  | .vcmp _ _ f _ => some (coreWord 0x8A f)
  | .vsel _ _ f _ => some (coreWord 0x8B f)
  | .vbcast _ _ f _ => some (coreWord 0x8C f)
  | .vld _ _ f _ => some (coreWord 0x8D f)
  | .vst _ _ f _ => some (coreWord 0x8E f)
  | .vredsum _ _ f _ => some (coreWord 0x8F f)
  | .vredmax _ _ f _ => some (coreWord 0x90 f)
  | .viadd _ _ f _ => some (coreWord 0x91 f)
  | .vcvt _ _ f _ => some (coreWord 0x92 f)
  | .pand _ _ f _ => some (coreWord 0x93 f)
  | .por _ _ f _ => some (coreWord 0x94 f)
  | .pnot _ _ f _ => some (coreWord 0x95 f)
  | .vacq _ _ f _ => some (coreWord 0x96 f)
  | .vstq _ _ f _ => some (coreWord 0x97 f)
  | .get _ _ f => some (coreWord 0xC0 f)
  | .put _ _ f => some (coreWord 0xC1 f)
  | .putSignal _ _ f => some (coreWord 0xC2 f)
  | .atomicAdd _ _ f => some (coreWord 0xC3 f)
  | .atomicCas _ _ f => some (coreWord 0xC4 f)
  | .reducePut _ _ f => some (coreWord 0xC5 f)
  | .fence _ _ f => some (coreWord 0xC6 f)
  | .bar _ _ f => some (coreWord 0xE0 f)
  | .barv _ _ f => some (coreWord 0xE1 f)
  | .bwait _ _ f => some (coreWord 0xE2 f)
  | .fset _ _ f => some (coreWord 0xE3 f)
  | .fadd _ _ f => some (coreWord 0xE4 f)
  | .fwait _ _ f => some (coreWord 0xE5 f)
  | .cwait _ _ f => some (coreWord 0xE6 f)
  | .cread _ _ f => some (coreWord 0xE7 f)
  | .twait _ _ f => some (coreWord 0xE8 f)
  | .mwait _ _ f => some (coreWord 0xE9 f)
  | .wslot _ _ f => some (coreWord 0xEA f)
  | .undefinedOpcode _ _ word => some word
  | _ => none

/-- The core that issues an instruction; none for every other command. -/
def issuingCore : Instr → Option (BitVec 9)
  | .nop cr _ _ => some cr
  | .endStream cr _ _ => some cr
  | .trapS cr _ _ => some cr
  | .jmp cr _ _ => some cr
  | .br cr _ _ => some cr
  | .loop cr _ _ => some cr
  | .add cr _ _ => some cr
  | .sub cr _ _ => some cr
  | .mul cr _ _ => some cr
  | .andS cr _ _ => some cr
  | .orS cr _ _ => some cr
  | .xorS cr _ _ => some cr
  | .shl cr _ _ => some cr
  | .shr cr _ _ => some cr
  | .sra cr _ _ => some cr
  | .addi cr _ _ => some cr
  | .li cr _ _ => some cr
  | .lih cr _ _ => some cr
  | .minS cr _ _ => some cr
  | .maxS cr _ _ => some cr
  | .lds cr _ _ => some cr
  | .sts cr _ _ => some cr
  | .mova cr _ _ => some cr
  | .movs cr _ _ => some cr
  | .adda cr _ _ => some cr
  | .tdset cr _ _ => some cr
  | .tdget cr _ _ => some cr
  | .tdadv cr _ _ => some cr
  | .mfs cr _ _ => some cr
  | .mts cr _ _ => some cr
  | .tmma cr _ _ _ => some cr
  | .tpre cr _ _ _ => some cr
  | .tfin cr _ _ _ => some cr
  | .tacst cr _ _ _ => some cr
  | .tcvt cr _ _ _ => some cr
  | .tepi cr _ _ _ => some cr
  | .vadd cr _ _ _ => some cr
  | .vsub cr _ _ _ => some cr
  | .vmul cr _ _ _ => some cr
  | .vfma cr _ _ _ => some cr
  | .vmax cr _ _ _ => some cr
  | .vmin cr _ _ _ => some cr
  | .vexp2 cr _ _ _ => some cr
  | .vlog2 cr _ _ _ => some cr
  | .vrcp cr _ _ _ => some cr
  | .vrsq cr _ _ _ => some cr
  | .vcmp cr _ _ _ => some cr
  | .vsel cr _ _ _ => some cr
  | .vbcast cr _ _ _ => some cr
  | .vld cr _ _ _ => some cr
  | .vst cr _ _ _ => some cr
  | .vredsum cr _ _ _ => some cr
  | .vredmax cr _ _ _ => some cr
  | .viadd cr _ _ _ => some cr
  | .vcvt cr _ _ _ => some cr
  | .pand cr _ _ _ => some cr
  | .por cr _ _ _ => some cr
  | .pnot cr _ _ _ => some cr
  | .vacq cr _ _ _ => some cr
  | .vstq cr _ _ _ => some cr
  | .get cr _ _ => some cr
  | .put cr _ _ => some cr
  | .putSignal cr _ _ => some cr
  | .atomicAdd cr _ _ => some cr
  | .atomicCas cr _ _ => some cr
  | .reducePut cr _ _ => some cr
  | .fence cr _ _ => some cr
  | .bar cr _ _ => some cr
  | .barv cr _ _ => some cr
  | .bwait cr _ _ => some cr
  | .fset cr _ _ => some cr
  | .fadd cr _ _ => some cr
  | .fwait cr _ _ => some cr
  | .cwait cr _ _ => some cr
  | .cread cr _ _ => some cr
  | .twait cr _ _ => some cr
  | .mwait cr _ _ => some cr
  | .wslot cr _ _ => some cr
  | .undefinedOpcode cr _ _ => some cr
  | _ => none

end Sys2Proof
end

