-- ==== Sys2Proof/Config.lean ====
section
/-!
DEFINITION. What an implementation fixes and the manual does not give: opaque constants, so that no proof can lean on a
value of theirs. Each is named in an assumption log entry.
-/
namespace Sys2Proof.Config

/-- The special functions away from the inputs that R69 lists: fixed functions of the input bits, bounded by R68. (DESIGN CHOICE, log entry 6) -/
opaque exp2Bits : BitVec 32 → BitVec 32
/-- DESIGN CHOICE, log entry 6. -/
opaque log2Bits : BitVec 32 → BitVec 32
/-- DESIGN CHOICE, log entry 6. -/
opaque rcpBits : BitVec 32 → BitVec 32
/-- DESIGN CHOICE, log entry 6. -/
opaque rsqBits : BitVec 32 → BitVec 32

/-- Bytes the manual leaves undefined (R92, R514, R717), drawn by number. (DESIGN CHOICE, log entry 7) -/
opaque freeByte : Nat → BitVec 8

/-- 32-bit elements the manual leaves undefined (R92), drawn by number. (DESIGN CHOICE, log entry 7) -/
opaque freeWord : Nat → BitVec 32

/-- S(k), the fused sensitivity of a unit at a point, in µV per ps (R752, R754). (DESIGN CHOICE, log entry 9) -/
opaque sensitivity : Nat → Nat → Nat

/-- A path-delay monitor's reading in ps, normalised to point 14 at 85 °C with its fused coefficients, in fs (R752, R753): of a unit, a monitor, the reading, the
unit's voltage in mV, its temperature in 0.1 °C and its point. (DESIGN CHOICE, log entry 117) -/
opaque normalDelay : Nat → Nat → Nat → Nat → Nat → Nat → Int

/-- A monitor's fused delay at point 14 and 85 °C, in fs (R752). (DESIGN CHOICE, log entry 117) -/
opaque fusedDelay : Nat → Nat → Int

/-- The degradation, in fs, that a unit's ring oscillators imply (R753): of the unit, its oscillators with their counts, voltage, temperature and point. (DESIGN CHOICE, log entry 117) -/
opaque ringDelta : Nat → List (Nat × Nat) → Nat → Nat → Nat → Int

/-- The key of the Visor's plan in flash (R758), derived from CDI₀ in a way that the manual does not give. (DESIGN CHOICE, log entry 117) -/
opaque visorKeyByte : List (BitVec 8) → Nat → BitVec 8

/-- Byte of a plan's copy in flash after its count (R758), whose layout the manual does not give: of the plan, the retired points, each unit's last plan. (DESIGN CHOICE, log entry 117) -/
opaque planByte : List (Nat × Nat × Nat) → List (Nat × Nat) → List (Nat × Option Int × Nat × Nat × Nat) → Nat → BitVec 8

/-- Window offset of STEP_FLAG of a partition's stream (R347), which no field of a work graph gives. (DESIGN CHOICE, log entry 60) -/
opaque stepFlag : Nat → Nat → BitVec 64

/-- The public key of a P-384 private key, uncompressed, as its 97 bytes. (DESIGN CHOICE, log entry 142) -/
opaque ecPublicByte : List (BitVec 8) → Nat → BitVec 8

/-- The 48 bytes of the secret that a P-384 private key shares with a public key (R436, R456). (DESIGN CHOICE, log entry 142) -/
opaque ecSharedByte : List (BitVec 8) → List (BitVec 8) → Nat → BitVec 8

def ecPublic (priv : List (BitVec 8)) : List (BitVec 8) := (List.range 97).map (ecPublicByte priv)
def ecShared (priv pub : List (BitVec 8)) : List (BitVec 8) := (List.range 48).map (ecSharedByte priv pub)

/-- Digest of the boot ROM, which the manual does not print (R432, R434). (DESIGN CHOICE, log entry 150) -/
opaque romByte : Nat → BitVec 8

/-- Measurement 7: a fixed function of the anti-rollback count, the test fuse and the debug lock (R434, R646). (DESIGN CHOICE, log entry 150) -/
opaque fuseByte : Nat → Bool → Bool → Nat → BitVec 8

/-- A fresh random byte of SMD's entropy source (R776), drawn by number. (DESIGN CHOICE, log entry 8) -/
opaque entropy : Nat → BitVec 8

end Sys2Proof.Config
end

