-- ==== Sys2Proof/Machine/Aes.lean ====
section
/-!
DEFINITION. AES-256 and the modes in which the Cuffs use it (R379, R380, R402): XTS, GHASH and GCM, and the CRC-32 of a flit (R403). The manual names the
standards and gives no algorithm: those written here are the published standards' (FIPS 197, IEEE 1619, SP 800-38D, IEEE 802.3). (PRESUMED, log entry 5)
-/
namespace Sys2Proof.Machine

/-- The S-box, byte 0 lowest. -/
def aesBox : Nat :=
  0x16BB54B00F2D99416842E6BF0D89A18CDF2855CEE9871E9B948ED9691198F8E19E1DC186B95735610EF6034866B53E708A8BBD4B1F74DDE8C6B4A61C2E2578BA08AE7A65EAF4566CA94ED58D6D37C8E779E4959162ACD3C25C2406490A3A32E0DB0B5EDE14B8EE4688902A22DC4F816073195D643D7EA7C41744975FEC130CCDD2F3FF1021DAB6BCF5389D928F40A351A89F3C507F02F94585334D43FBAAEFD0CF584C4A39BECB6A5BB1FC20ED00D153842FE329B3D63B52A05A6E1B1A2C830975B227EBE28012079A059618C323C7041531D871F1E5A534CCF73F362693FDB7C072A49CAFA2D4ADF04759FA7DC982CA76ABD7FE2B670130C56F6BF27B777C63

/-- The inverse S-box. -/
def aesInvBox : Nat :=
  0x7D0C2155631469E126D677BA7E042B17619953833CBBEBC8B0F52AAE4D3BE0A0EF9CC9939F7AE52D0D4AB519A97F51605FEC8027591012B131C7078833A8DD1FF45ACD78FEC0DB9A2079D2C64B3E56FC1BBE18AA0E62B76F89C5291D711AF1476EDF751CE837F9E28535ADE72274AC9673E6B4F0CECFF297EADC674F4111913A6B8A130103BDAFC1020F3FCA8F1E2CD00645B3B80558E4F70AD3BC8C00ABD890849D8DA75746155EDAB9EDFD5048706C92B6655DCC5CA4D41698688664F6F87225D18B6D49A25B76B224D92866A12E084EC3FA420B954CEE3D23C2A632947B54CBE9DEC444438E3487FF2F9B8239E37CFBD7F3819EA340BF38A53630D56A0952

def boxAt (box : Nat) (b : Byte) : Byte := BitVec.ofNat 8 (box >>> (8 * b.toNat))

/-- Bytes combined by exclusive or. -/
def xorBytes (x y : Bytes) : Bytes := List.zipWith (· ^^^ ·) x y

/-- Doubling in the field of AES. -/
def aesDouble (b : Byte) : Byte := (b <<< 1) ^^^ (if b.msb then 0x1B#8 else 0#8)

/-- Multiplication in the field of AES by a constant below 16. -/
def aesTimes (k : Nat) (b : Byte) : Byte :=
  let b2 := aesDouble b
  let b4 := aesDouble b2
  (if k.testBit 0 then b else 0) ^^^ (if k.testBit 1 then b2 else 0) ^^^ (if k.testBit 2 then b4 else 0) ^^^ (if k.testBit 3 then aesDouble b4 else 0)

/-- The words of an AES-256 key schedule, newest first; `i` counts the words made. -/
def aesExpand : Nat → Nat → Byte → List Bytes → List Bytes
  | 0, _, _, ws => ws
  | n + 1, i, rcon, ws =>
    let last := ws.headD []
    let old := (ws.drop 7).headD []
    let t := if i % 8 = 0 then xorBytes ((last.drop 1 ++ last.take 1).map (boxAt aesBox)) [rcon, 0, 0, 0]
      else if i % 8 = 4 then last.map (boxAt aesBox) else last
    aesExpand n (i + 1) (if i % 8 = 0 then aesDouble rcon else rcon) (xorBytes old t :: ws)

/-- The fifteen round keys of an AES-256 key. -/
def aesKeys (key : Bytes) : List Bytes :=
  let first := (List.range 8).map (fun i => (key.drop (4 * i)).take 4)
  let ws := (aesExpand 52 8 1 first.reverse).reverse
  (List.range 15).map (fun r => ((ws.drop (4 * r)).take 4).flatten)

/-- Bytes of a block taken in a given order. -/
def pick (order : List Nat) (b : Bytes) : Bytes := order.map (fun i => (b[i]?).getD 0)

def aesShift : List Nat := [0, 5, 10, 15, 4, 9, 14, 3, 8, 13, 2, 7, 12, 1, 6, 11]
def aesUnshift : List Nat := [0, 13, 10, 7, 4, 1, 14, 11, 8, 5, 2, 15, 12, 9, 6, 3]

/-- A column multiplied by the circulant matrix of four constants. -/
def aesColumn (k : List Nat) (col : Bytes) : Bytes :=
  (List.range 4).map (fun r => ((List.range 4).map (fun j => aesTimes ((k[(j + 4 - r) % 4]?).getD 0) ((col[j]?).getD 0))).foldl (· ^^^ ·) 0)

def aesColumns (k : List Nat) (b : Bytes) : Bytes := (List.range 4).flatMap (fun j => aesColumn k ((b.drop (4 * j)).take 4))

/-- One block enciphered under the round keys. -/
def aesWith (ks : List Bytes) (b : Bytes) : Bytes :=
  let mid := ((ks.drop 1).take 13).foldl (fun b k => xorBytes (aesColumns [2, 3, 1, 1] (pick aesShift (b.map (boxAt aesBox)))) k) (xorBytes b (ks.headD []))
  xorBytes (pick aesShift (mid.map (boxAt aesBox))) ((ks.drop 14).headD [])

/-- One block deciphered under the round keys. -/
def aesUndo (ks : List Bytes) (b : Bytes) : Bytes :=
  let mid := ((ks.drop 1).take 13).reverse.foldl (fun b k =>
    aesColumns [14, 11, 13, 9] (xorBytes ((pick aesUnshift b).map (boxAt aesInvBox)) k)) (xorBytes b ((ks.drop 14).headD []))
  xorBytes ((pick aesUnshift mid).map (boxAt aesInvBox)) (ks.headD [])

/-- AES-256 of one block. -/
def aes256 (key block : Bytes) : Bytes := aesWith (aesKeys key) block

/-! XTS (R379). -/

/-- The tweak of the next block: multiplication by α. -/
def xtsNext (t : Bytes) : Bytes :=
  let n := 2 * leNat t
  leBytes 16 (if 2 ^ 128 ≤ n then (n - 2 ^ 128) ^^^ 0x87 else n)

/-- The tweaks of the four blocks of a line. -/
def xtsTweaks (k2 tweak : Bytes) : List Bytes :=
  let t0 := aes256 k2 tweak
  let t1 := xtsNext t0
  let t2 := xtsNext t1
  [t0, t1, t2, xtsNext t2]

def xtsWith (f : Bytes → Bytes) (k2 tweak line : Bytes) : Bytes :=
  (((List.range 4).map (fun j => (line.drop (16 * j)).take 16)).zip (xtsTweaks k2 tweak)).flatMap (fun p => xorBytes (f (xorBytes p.1 p.2)) p.2)

/-- XTS-AES-256 of a 64-byte line. -/
def xtsEncrypt (k1 k2 tweak line : Bytes) : Bytes := let ks := aesKeys k1; xtsWith (aesWith ks) k2 tweak line
def xtsDecrypt (k1 k2 tweak line : Bytes) : Bytes := let ks := aesKeys k1; xtsWith (aesUndo ks) k2 tweak line

/-! GHASH and GCM (R380, R402). -/

/-- A product in the field of GHASH, both factors as big-endian numbers. -/
def ghashMul (x y : Nat) : Nat :=
  ((List.range 128).foldl (fun a i =>
    (if x.testBit (127 - i) then a.1 ^^^ a.2 else a.1, if a.2.testBit 0 then (a.2 >>> 1) ^^^ (0xE1 <<< 120) else a.2 >>> 1)) (0, y)).1

/-- The big-endian bytes of a block. -/
def beBytes (n w : Nat) : Bytes := (leBytes n w).reverse

/-- GHASH of a list of blocks. -/
def ghash (h : Bytes) (blocks : List Bytes) : Bytes :=
  beBytes 16 (blocks.foldl (fun y b => ghashMul (y ^^^ beNat b) (beNat h)) 0)

/-- A string cut into 16-byte blocks, the last filled up with zeros. -/
def blocks16 (b : Bytes) : List Bytes :=
  (List.range (ceilDiv b.length 16)).map (fun i => ((b.drop (16 * i)).take 16 ++ List.replicate 16 0).take 16)

/-- The key stream of GCM for a number of bytes. -/
def gcmStream (ks : List Bytes) (iv : Bytes) (n : Nat) : Bytes :=
  (List.range (ceilDiv n 16)).flatMap (fun i => aesWith ks (iv ++ beBytes 4 (i + 2)))

/-- The tag of GCM over additional data and ciphertext. -/
def gcmTag (key iv aad ct : Bytes) : Bytes :=
  let ks := aesKeys key
  let h := aesWith ks (List.replicate 16 0)
  xorBytes (ghash h (blocks16 aad ++ blocks16 ct ++ [beBytes 8 (8 * aad.length) ++ beBytes 8 (8 * ct.length)])) (aesWith ks (iv ++ beBytes 4 1))

/-- A text under AES-256-GCM; enciphering and deciphering are one operation. -/
def gcmText (key iv text : Bytes) : Bytes := xorBytes text (gcmStream (aesKeys key) iv text.length)

/-! CRC-32 (R403). -/

/-- The remainder after one more byte, the polynomial of IEEE 802.3 reflected. -/
def crcByte (c : Nat) (b : Byte) : Nat := (List.range 8).foldl (fun c _ => if c.testBit 0 then (c >>> 1) ^^^ 0xEDB88320 else c >>> 1) (c ^^^ b.toNat)

/-- CRC-32 of a string. -/
def crc32 (m : Bytes) : Nat := m.foldl crcByte 0xFFFFFFFF ^^^ 0xFFFFFFFF

end Sys2Proof.Machine
end

