-- ==== Sys2Proof/Machine/Code.lean ====
section
/-!
DEFINITION. The check of a memory line, RS(72, 70) over GF(2⁸) (R308).
-/
namespace Sys2Proof.Machine

/-- Multiplication by α = x in GF(2⁸) with polynomial x⁸ + x⁴ + x³ + x² + 1 (R308). -/
def gfAlpha (b : Byte) : Byte := (b <<< 1) ^^^ (if b.msb then 0x1D#8 else 0#8)

/-- Multiplication by α to a power. -/
def gfAlphas : Nat → Byte → Byte
  | 0, b => b
  | n + 1, b => gfAlphas n (gfAlpha b)

/-- Check symbols c0 and c1 of 70 message symbols (R308): the remainder of the message times x² by the generator (x − 1)(x − α), the first message symbol
being the highest coefficient and c0 the one before the last. (DEDUCED, log entry 138) -/
def rsCheck (m : Bytes) : Bytes :=
  let r := m.foldl (fun (r : Byte × Byte) b => let f := b ^^^ r.1; (r.2 ^^^ f ^^^ gfAlpha f, gfAlpha f)) (0, 0)
  [r.1, r.2]

/-- The values at 1 and at α of a codeword's error, given by its symbols in error (place, difference); the code is linear, so that they are the received
word's own. -/
def rsSyndromes (e : Sparse Byte) : Byte × Byte :=
  e.foldl (fun s x => (s.1 ^^^ x.2, s.2 ^^^ gfAlphas (71 - x.1) x.2)) (0, 0)

/-- The correction of a word (R308, R309): what is left of its error once the one symbol that its syndromes name has been corrected; none where they name
no symbol. -/
def rsCorrect (e : Sparse Byte) : Option (Sparse Byte) :=
  let s := rsSyndromes e
  if s.1 = 0 ∧ s.2 = 0 then some e
  else
    match (List.range 72).find? (fun i => decide (s.1 ≠ 0) && gfAlphas (71 - i) s.1 == s.2) with
    | some i => some (Sparse.update 0 e i (· ^^^ s.1))
    | none => none

end Sys2Proof.Machine
end

