-- ==== Sys2Proof/Machine/Operands.lean ====
section
/-!
DEFINITION. Operand forms: the fields of the five instruction forms (R104, R116, R129, R137, R142), the tile
descriptor (R111 to R114), and the ranking of trap codes (R154). An instruction is given by the 56 bits below its opcode.
-/
namespace Sys2Proof.Machine

/-- The operand bits [55:0] of an instruction. -/
abbrev Opnd := BitVec 56

/-- Field [hi:lo] of an instruction's operand bits. -/
def Opnd.field (f : Opnd) (hi lo : Nat) : Nat := bitsNat f.toNat hi lo

/-- One bit of an instruction's operand bits. -/
def Opnd.bit (f : Opnd) (i : Nat) : Bool := f.toNat.testBit i

/-- Whether any bit outside the listed [hi:lo] fields is set (R102). -/
def Opnd.unusedSet (f : Opnd) (used : List (Nat × Nat)) : Bool :=
  (List.range 56).any (fun i => f.toNat.testBit i && !used.any (fun u => decide (u.2 ≤ i ∧ i ≤ u.1)))

/-- A signed field. -/
def signed (w v : Nat) : Int := if v < 2 ^ (w - 1) then (v : Int) else (v : Int) - 2 ^ w

/-- The lowest code among the breaches that hold (R154). -/
def lowestCode (bs : List (Bool × Nat)) : Option Nat :=
  bs.foldl (fun acc b => if b.1 then some (match acc with | none => b.2 | some c => min c b.2) else acc) none

/-! Trap codes of R153, R240, R257, R599. -/
def cIllegalOpcode : Nat := 0x1007
def cIllegalField : Nat := 0x1008
def cFormat : Nat := 0x1009
def cRange : Nat := 0x100A
def cOverrun : Nat := 0x100B
def cWaitTimeout : Nat := 0x100C
def cSoftTrap : Nat := 0x100D
def cCompletionSat : Nat := 0x100E
def cAccMode : Nat := 0x100F
def cSlotKind : Nat := 0x1010
def cIntNanScale : Nat := 0x1011
def cWslotSeq : Nat := 0x1012

/-! Control forms (R104). -/
def Opnd.crD (f : Opnd) : Nat := f.field 55 51
def Opnd.crA (f : Opnd) : Nat := f.field 50 46
def Opnd.crB (f : Opnd) : Nat := f.field 45 41
def Opnd.imm32 (f : Opnd) : Nat := f.field 31 0
def Opnd.imm48 (f : Opnd) : Nat := f.field 47 0
def Opnd.cond (f : Opnd) : Nat := f.field 45 43

/-- A 5-bit field that names an address register or accumulator tile needs bit 4 clear (R103). -/
def narrow (v : Nat) : Bool × Nat := (decide (16 ≤ v), cIllegalField)

/-! Tile form (R116). -/
def Opnd.tAcc (f : Opnd) : Nat := f.field 55 52
def Opnd.tTda (f : Opnd) : Nat := f.field 51 47
def Opnd.tTdb (f : Opnd) : Nat := f.field 46 42
def Opnd.tG (f : Opnd) : Nat := f.field 41 40
def Opnd.tStart (f : Opnd) : Bool := f.bit 39
def Opnd.tAdva (f : Opnd) : Bool := f.bit 38
def Opnd.tAdvb (f : Opnd) : Bool := f.bit 37
def Opnd.tSpill (f : Opnd) : Bool := f.bit 36
def Opnd.tTds (f : Opnd) : Nat := f.field 35 31
def Opnd.tEpi (f : Opnd) : Nat := f.field 30 27
def Opnd.tVe (f : Opnd) : Nat := f.field 26 22
def Opnd.tTdo (f : Opnd) : Nat := f.field 21 17
def Opnd.tSr (f : Opnd) : Bool := f.bit 16

/-! Vector form (R129). -/
def Opnd.vD (f : Opnd) : Nat := f.field 55 51
def Opnd.vA (f : Opnd) : Nat := f.field 50 46
def Opnd.vB (f : Opnd) : Nat := f.field 45 41
def Opnd.vC (f : Opnd) : Nat := f.field 40 36
def Opnd.vPg (f : Opnd) : Nat := f.field 35 33
def Opnd.vTile (f : Opnd) : Bool := f.bit 32
def Opnd.vBm (f : Opnd) : Nat := f.field 31 30
def Opnd.vCm (f : Opnd) : Nat := f.field 29 28
def Opnd.vFunc (f : Opnd) : Nat := f.field 27 24
def Opnd.vSrf (f : Opnd) : Bool := f.bit 23
def Opnd.vImm (f : Opnd) : Int := signed 23 (f.field 22 0)

/-! Move form (R137). -/
def Opnd.mAf (f : Opnd) : Nat := f.field 55 52
def Opnd.mAl (f : Opnd) : Nat := f.field 51 48
def Opnd.mCc (f : Opnd) : Nat := f.field 47 44
def Opnd.mSl (f : Opnd) : Nat := f.field 43 39
def Opnd.mRelax (f : Opnd) : Bool := f.bit 38
def Opnd.mAs (f : Opnd) : Nat := f.field 37 34
def Opnd.mDtype (f : Opnd) : Nat := f.field 33 31
def Opnd.mSv (f : Opnd) : Nat := f.field 30 26
def Opnd.mSw (f : Opnd) : Nat := f.field 25 21
def Opnd.mJob (f : Opnd) : Nat := f.field 20 13

/-! Sync form (R142). -/
def Opnd.ySlot (f : Opnd) : Nat := f.field 55 50
def Opnd.yCc (f : Opnd) : Nat := f.field 49 46
def Opnd.ySv (f : Opnd) : Nat := f.field 45 41
def Opnd.yCond (f : Opnd) : Nat := f.field 40 38

/-! Tile descriptors (R111, R112). -/
def Td.base (d : Td) : Nat := bitsNat d.toNat 19 0
def Td.stride (d : Td) : Int := signed 12 (bitsNat d.toNat 31 20)
def Td.format (d : Td) : Nat := bitsNat d.toNat 35 32
def Td.orient (d : Td) : Bool := d.toNat.testBit 36
def Td.scale (d : Td) : Nat := bitsNat d.toNat 51 37 * 32
def Td.tscale (d : Td) : Nat := bitsNat d.toNat 59 52
def Td.reserved (d : Td) : Nat := bitsNat d.toNat 63 60

/-- BASE advanced by 512 × STRIDE modulo 2^20, the rest unchanged (TDADV, R105). -/
def Td.advance (d : Td) : Td :=
  let b := (((d.base : Int) + 512 * d.stride) % 1048576).toNat
  BitVec.ofNat 64 (d.toNat - d.base + b)

def isMx (fmt : Nat) : Bool := decide (4 ≤ fmt ∧ fmt ≤ 7)

/-- Elements packed into one 16-bit word (R53, R112). -/
def fmtQ (fmt : Nat) : Nat := if fmt ≤ 1 then 1 else if fmt = 6 then 4 else 2

/-- Bytes of one tile in the layout of R53 or R112. -/
def tileBytes (fmt : Nat) : Nat :=
  if fmt ≤ 1 then 2048 else if fmt = 6 then 512 else if fmt ≤ 8 then 1024 else if fmt ≤ 10 then 4096 else 8192

/-- The part a descriptor plays in an instruction (R113, R114). -/
inductive TdRole where
  | product | source | output | spill
  deriving DecidableEq, Repr

/-- The size that applies to the descriptor's use (R113): two K tiles for an MXFP4 product operand. -/
def tdSize (d : Td) (r : TdRole) : Nat :=
  if d.format = 6 ∧ r = .product then 1024 else tileBytes d.format

def tdScaleBytes (d : Td) (r : TdRole) : Nat := if d.format = 6 ∧ r = .product then 64 else 32

/-- The breaches of R112 and R113 for one use of a descriptor. -/
def tdBreaches (d : Td) (r : TdRole) : List (Bool × Nat) :=
  [(decide (12 ≤ d.format), cIllegalField),
   (decide (d.base % tdSize d r ≠ 0), cRange),
   (decide (d.base + tdSize d r > 0x100000), cRange),
   (isMx d.format && decide (d.scale + tdScaleBytes d r > 0x100000), cRange),
   (!isMx d.format && decide (d.scale ≠ 0), cIllegalField),
   (decide (d.format ≠ 8 ∧ d.tscale ≠ 0), cIllegalField),
   (decide (d.format = 8 ∧ d.tscale = 0xFF), cIllegalField),
   (d.orient && decide (r ≠ .product ∨ 9 ≤ d.format), cIllegalField),
   (decide (d.reserved ≠ 0), cIllegalField)]

/-- The lines a byte range touches, as (first, count) (R77). -/
def linesOf (a n : Nat) : Nat × Nat := (a / 64, (a + n + 63) / 64 - a / 64)

/-- The lines a descriptor's tile, and its scale array where it has one, occupy (R127). -/
def tdLines (d : Td) (r : TdRole) : List (Nat × Nat) :=
  linesOf d.base (tdSize d r) :: (if isMx d.format then [linesOf d.scale (tdScaleBytes d r)] else [])

/-- Float element format of a FORMAT code (R112); binary32 for the codes that hold no narrower float. -/
def fmtFloat (fmt : Nat) : Fmt :=
  match fmt with
  | 0 => bf16 | 1 => fp16 | 2 => e4m3 | 3 => e5m2 | 4 => e4m3 | 5 => e5m2 | 6 => e2m1 | _ => fp32

end Sys2Proof.Machine
end

