-- ==== Sys2Proof/Machine/Accumulate.lean ====
section
/-!
DEFINITION. Tile images and the arithmetic of accumulation chains: the tile layout (R53, R57), group sums (R207 to
R214), the accumulate step (R215), integer chains and their retries (R222 to R226), spills (R229 to R236).
-/
namespace Sys2Proof.Machine

/-- The 16-bit word that holds stored element (r, c) of a tile, as an offset from its base (R53). -/
def tileWord (q r c : Nat) : Nat := 64 * (r % (32 / q)) + 2 * ((r + c) % 32)

/-- The code of stored element (r, c) of a tile image (R53, R112). -/
def tileCode (fmt : Nat) (img : Array Byte) (r c : Nat) : Nat :=
  let at_ := fun i => (img.getD i 0).toNat
  if fmt = 9 ∨ fmt = 10 then
    let o := 128 * r + 4 * c
    at_ o + 256 * at_ (o + 1) + 65536 * at_ (o + 2) + 16777216 * at_ (o + 3)
  else
    let q := fmtQ fmt
    let o := tileWord q r c
    let w := at_ o + 256 * at_ (o + 1)
    (w >>> (16 / q * (r / (32 / q)))) % 2 ^ (16 / q)

/-- The image of a tile whose stored element (r, c) has code `f r c` (R53, R112). -/
def tileImage (fmt : Nat) (f : Nat → Nat → Nat) : Bytes :=
  if fmt = 9 ∨ fmt = 10 then (List.range 1024).flatMap (fun i => leBytes 4 (f (i / 32) (i % 32)))
  else
    let q := fmtQ fmt
    (List.range (32 / q * 32)).flatMap (fun i =>
      let l := i / 32
      let b := i % 32
      let slots := (List.range q).map (fun s =>
        let r := l + s * (32 / q)
        f r ((b + 32 - r % 32) % 32) <<< (16 / q * s))
      leBytes 2 (slots.foldl (· + ·) 0))

/-- A product operand: descriptor, image, scales (R113, R114). -/
structure Operand where
  td : Td
  img : Array Byte
  scales : Array Byte

/-- Read a descriptor's tile and scales. -/
def readOperand (sqb : Sparse Byte) (d : Td) (r : TdRole) : Operand :=
  ⟨d, (Sparse.getRun 0 sqb d.base (tdSize d r)).toArray,
   if isMx d.format then (Sparse.getRun 0 sqb d.scale (tdScaleBytes d r)).toArray else #[]⟩

/-- Scale byte of index `i` (the axis other than K) in K tile `kt` (R57). -/
def Operand.scaleAt (o : Operand) (kt i : Nat) : Nat := (o.scales.getD (32 * kt + i) 0).toNat

/-- Code of operand element (i along M or N, k along K): `kCols` says that K runs along stored columns (R114). -/
def Operand.code (o : Operand) (kCols : Bool) (i k : Nat) : Nat :=
  let img := if k < 32 then o.img else o.img.extract 512 1024
  if kCols then tileCode o.td.format img i (k % 32) else tileCode o.td.format img (k % 32) i

/-- Exact value of a float operand element; a block with scale 0xFF reads as NaN (R165). -/
def Operand.fval (o : Operand) (kCols : Bool) (i k : Nat) : FVal :=
  if isMx o.td.format && o.scaleAt (k / 32) i = 0xFF then .nan
  else (fmtFloat o.td.format).decode (o.code kCols i k)

/-- Signed element byte of an integer operand (R164, R167). -/
def Operand.ival (o : Operand) (kCols : Bool) (i k : Nat) : Int := signed 8 (o.code kCols i k)

/-- The significand width P of a format (R207). -/
def sigWidth (F : Fmt) : Int := F.manBits + 1

/-- A product in its exact form for the tree word: sign, significand product, weight. -/
def placeInWord (t : Int) (s : Bool) (m : Nat) (e : Int) : Int :=
  let lsb := t - 51
  let v : Nat := if lsb ≤ e then m <<< (e - lsb).toNat else m >>> (lsb - e).toNat
  if s then -(v : Int) else v

/-- One float group sum (R208 to R212); `none` is the exact zero of R210. -/
def floatGroup (pa pb : Int) (pairs : List (FVal × FVal)) : Option FVal :=
  let prods := pairs.map (fun p => p.1.mul p.2)
  if prods.any FVal.isNan then some .nan
  else if prods.any (· == .inf false) && prods.any (· == .inf true) then some .nan
  else if prods.any (· == .inf false) then some (.inf false)
  else if prods.any (· == .inf true) then some (.inf true)
  else
    let nz := prods.filterMap (fun p => match p with | .fin s m e => if m = 0 then none else some (s, m, e) | _ => none)
    match nz with
    | [] => none
    | x :: xs =>
      let t := (xs.foldl (fun a p => max a p.2.2) x.2.2) + pa + pb
      some (FVal.ofInt false ((nz.map (fun p => placeInWord t p.1 p.2.1 p.2.2)).foldl (· + ·) 0) (t - 51))

/-- A group sum enters an FP32 accumulator element (R215). -/
def accAdd (acc : F32) : Option FVal → F32
  | none => acc
  | some g =>
    match val32 acc, g with
    | .nan, _ => nan32
    | _, .nan => nan32
    | .fin sa ma ea, .fin sb mb eb =>
      let e0 := min ea eb
      rne32 (FVal.ofInt false (FVal.atExp sa ma ea e0 + FVal.atExp sb mb eb e0) e0)
    | x, y => rne32 (x.add y)

/-- Group size of the G field (R116). -/
def groupSize (g : Nat) : Nat := if g = 0 then 16 else if g = 1 then 8 else 4

/-- K-elements of one tile product (R46). -/
def productK (fmt : Nat) : Nat := if fmt = 6 then 64 else 32

/-- K-elements of one K-slice (R47). -/
def sliceK (fmt : Nat) : Nat := if fmt ≤ 1 then 16 else productK fmt

/-- Duration of a tile product in REG cycles (R47). -/
def productCycles (fmt : Nat) : Nat := if fmt ≤ 1 then 16 else 8

/-- Lane mode of a FORMAT code (R40): 0 16-bit, 1 8-bit float, 2 MXFP8, 3 INT8, 4 MXINT8, 5 4-bit, 6 none. Pairs of R118
are those of one lane mode here. -/
def laneMode (fmt : Nat) : Nat :=
  match fmt with
  | 0 | 1 => 0 | 2 | 3 => 1 | 4 | 5 => 2 | 8 => 3 | 7 => 4 | 6 => 5 | _ => 6

def isIntMode (m : Nat) : Bool := decide (m = 3 ∨ m = 4)

/-- The group sums of the first `kEnd` K-elements enter one FP32 element in ascending order (R211, R217). -/
def floatElement (oa ob : Operand) (g kEnd m n : Nat) (acc : F32) : F32 :=
  let pa := sigWidth (fmtFloat oa.td.format)
  let pb := sigWidth (fmtFloat ob.td.format)
  (List.range (kEnd / g)).foldl (fun acc j =>
    let ks := (List.range g).map (fun i => g * j + i)
    let sum := floatGroup pa pb (ks.map (fun k => (oa.fval (!oa.td.orient) m k, ob.fval ob.td.orient n k)))
    let kt := g * j / 32
    let sum := if isMx oa.td.format then
        sum.map (FVal.scale ((oa.scaleAt kt m : Int) + ob.scaleAt kt n - 254)) else sum
    accAdd acc sum) acc

/-- Combined exponent of an integer group (R214). -/
def intExponent (oa ob : Operand) (m n : Nat) : Int :=
  if oa.td.format = 8 then (oa.td.tscale : Int) + ob.td.tscale - 254
  else (oa.scaleAt 0 m : Int) + ob.scaleAt 0 n - 266

/-- The largest combined exponent of a product, which fixes ZC (R222). -/
def intZc (oa ob : Operand) : Int :=
  if oa.td.format = 8 then intExponent oa ob 0 0
  else
    let top := fun (o : Operand) => (List.range 32).foldl (fun a i => max a (o.scaleAt 0 i)) 0
    (top oa : Int) + top ob - 266

/-- Whether some block of the product has scale 0xFF (R166). -/
def nanScale (oa ob : Operand) : Bool :=
  decide (oa.td.format = 7) && ((List.range 32).any (fun i => oa.scaleAt 0 i = 0xFF || ob.scaleAt 0 i = 0xFF))

def int32Min : Int := -2147483648
def int32Max : Int := 2147483647
def inRange (lo hi v : Int) : Bool := decide (lo ≤ v ∧ v ≤ hi)

/-- The addend of a group sum at shift d (R223). -/
def intAddend (s : Int) (d : Int) : Int := if 0 ≤ d then s * 2 ^ d.toNat else rneShift s (-d).toNat

/-- All group sums of a product enter one INT32 element; `none` when an add saturates (R223, R224). -/
def intElement (oa ob : Operand) (g kEnd m n : Nat) (e : Int) (acc : Int) : Option Int :=
  (List.range (kEnd / g)).foldl (fun acc j =>
    acc.bind (fun a =>
      let s := ((List.range g).map (fun i =>
        oa.ival (!oa.td.orient) m (g * j + i) * ob.ival ob.td.orient n (g * j + i))).foldl (· + ·) 0
      let x := intAddend s (intExponent oa ob m n - e)
      if inRange int32Min int32Max x && inRange int32Min int32Max (a + x) then some (a + x) else none)) (some acc)

/-- Where a product that meets a second residue mismatch is cut short (R82): the K-slice and the patch of R47 under work, after how many retries. -/
structure Cut where
  slice : Nat
  patch : Nat
  retries : Nat
  deriving DecidableEq, Repr

/-- The patch of an output element (R47). -/
def patchOf (i : Nat) : Nat := 2 * (i / 32 / 8) + i % 32 / 16

/-- How many K-elements of an element have entered when the product is cut: patches that the slice has visited hold it, the others do not (R47, R82). The
sums of the failing patch and slice are discarded whole. (DEDUCED, log entry 136) -/
def Cut.kEnd (x : Cut) (fmt i : Nat) : Nat :=
  min (productK fmt) ((if patchOf i < x.patch then x.slice + 1 else x.slice) * sliceK fmt)

/-- One attempt at an integer product over a whole tile. -/
def intAttempt (oa ob : Operand) (g kEnd : Nat) (e : Int) (acc : List (BitVec 32)) : Option (List (BitVec 32)) :=
  ((List.range 1024).zip acc).foldr (fun p rest =>
    rest.bind (fun xs => (intElement oa ob g kEnd (p.1 / 32) (p.1 % 32) e p.2.toInt).map (fun v => BitVec.ofInt 32 v :: xs)))
    (some [])

/-- Outcome of the arithmetic of a product: the tile, the chain, how many retries it took, whether it hit the limit. -/
structure ProductResult where
  acc : List (BitVec 32)
  chain : Chain
  retries : Nat
  limit : Bool
  deriving DecidableEq, Repr

/-- An attempt cut short (R82): what has entered stays; an element that would saturate keeps its value. -/
def intCut (oa ob : Operand) (g : Nat) (x : Cut) (e : Int) (acc : List (BitVec 32)) : List (BitVec 32) :=
  ((List.range 1024).zip acc).map (fun p => BitVec.ofInt 32
    ((intElement oa ob g (x.kEnd oa.td.format p.1) (p.1 / 32) (p.1 % 32) e p.2.toInt).getD p.2.toInt))

/-- An integer product with its saturation retries (R225, R226); `fuel` bounds the retries by RC's four values. A cut ends the attempt that follows its
retries, or the last that is made (R239). -/
def intProduct (oa ob : Operand) (g : Nat) (cut : Option Cut) : Nat → List (BitVec 32) → Chain → Nat → ProductResult
  | 0, acc, ch, n => ⟨acc, ch, n, true⟩
  | fuel + 1, acc, ch, n =>
    match cut, intAttempt oa ob g (productK oa.td.format) (ch.zc + ch.b) acc with
    | none, some acc' => ⟨acc', ch, n, false⟩
    | some x, some _ => ⟨intCut oa ob g x (ch.zc + ch.b) acc, ch, n, false⟩
    | _, none =>
      match cut with
      | some x =>
        if x.retries ≤ n then ⟨intCut oa ob g x (ch.zc + ch.b) acc, ch, n, false⟩
        else if ch.rc < 3 then
          intProduct oa ob g cut fuel (acc.map (fun x => BitVec.ofInt 32 (rneShift x.toInt 1))) { ch with b := ch.b + 1, rc := ch.rc + 1 } (n + 1)
        else ⟨acc, ch, n, true⟩
      | none =>
        if ch.rc < 3 then
          intProduct oa ob g cut fuel (acc.map (fun x => BitVec.ofInt 32 (rneShift x.toInt 1))) { ch with b := ch.b + 1, rc := ch.rc + 1 } (n + 1)
        else ⟨acc, ch, n, true⟩

/-- A whole product, or one cut short, in either mode; the first product of an INT32 chain fixes ZC (R222). -/
def runProduct (oa ob : Operand) (g : Nat) (cut : Option Cut) (acc : List (BitVec 32)) (ch : Chain) : ProductResult :=
  if isIntMode (laneMode oa.td.format) then
    let ch := if ch.zcFixed then ch else { ch with zc := intZc oa ob, zcFixed := true }
    intProduct oa ob g cut 5 acc ch 0
  else
    let kEnd := fun i => match cut with
      | none => productK oa.td.format
      | some x => x.kEnd oa.td.format i
    ⟨((List.range 1024).zip acc).map (fun p => floatElement oa ob g (kEnd p.1) (p.1 / 32) (p.1 % 32) p.2), ch, 0, false⟩

/-! Spills (R229 to R236). -/

/-- A spill word of 64 bits at element i of a spill tile. -/
def spillWords (sqb : Sparse Byte) (base : Nat) : List Nat :=
  let bs := Sparse.getRun 0 sqb base 8192
  (List.range 1024).map (fun i => leNat ((bs.drop (8 * i)).take 8))

/-- One FP32 element spilled (R230). -/
def spillFloat (spilled : Bool) (s : Nat) (acc : F32) : Nat :=
  let v := val32 acc
  encode fp64 .rne (if spilled then (fp64.decode s).add v else v)

/-- One INT32 element spilled exactly (R231); `none` when it leaves the INT64 range (R232). -/
def spillInt (spilled : Bool) (s b : Nat) (acc : BitVec 32) : Option Nat :=
  let v := (if spilled then signed 64 s else 0) + acc.toInt * 2 ^ b
  if inRange (-(2 ^ 63)) (2 ^ 63 - 1) v then some (BitVec.ofInt 64 v).toNat else none

/-- The whole spill: new spill words, or none under R232. -/
def spillTile (ch : Chain) (s : List Nat) (acc : List (BitVec 32)) : Option (List Nat) :=
  if ch.int32 then
    (s.zip acc).foldr (fun p rest => rest.bind (fun xs => (spillInt ch.spilled p.1 ch.b p.2).map (· :: xs))) (some [])
  else some ((s.zip acc).map (fun p => spillFloat ch.spilled p.1 p.2))

/-- Value of INT32 chain element at TFIN (R236). -/
def tfinInt (s b : Nat) (acc : BitVec 32) : Int := signed 64 s + acc.toInt * 2 ^ b

/-- Least B in b … at which every value fits INT32 (R236). -/
def tfinB (vs : List Int) : Nat → Nat → Nat
  | 0, b => b
  | fuel + 1, b => if vs.all (fun v => inRange int32Min int32Max (rneShift v b)) then b else tfinB vs fuel (b + 1)

/-- One FP32 element at TFIN: one rounding of the exact sum (R236). -/
def tfinFloat (s : Nat) (acc : F32) : F32 := rne32 ((fp64.decode s).add (val32 acc))

end Sys2Proof.Machine
end

