-- ==== Sys2Proof/Machine/CoreOps.lean ====
section
/-!
DEFINITION. The named operations of one core: register access (R93, R94), square-buffer access with slot records (R84),
hazards (R75, R125, R147), issue (R72, R108), and taking a trap (R151, R152).
-/
namespace Sys2Proof.Machine

/-- What a core operation gives: the core, and the codes to be logged with the last two arguments of R822. -/
structure CoreRes where
  core : Core
  log : List (Nat × Nat × Nat)
  deriving DecidableEq, Repr

namespace Core

def quiet (c : Core) : CoreRes := ⟨c, []⟩

def getS (c : Core) (i : Nat) : BitVec 64 := Sparse.get 0 c.s i
def setS (c : Core) (i : Nat) (v : BitVec 64) : Core := { c with s := Sparse.set 0 c.s i v }
def getA (c : Core) (i : Nat) : BitVec 64 := Sparse.get 0 c.a i
def setA (c : Core) (i : Nat) (v : BitVec 64) : Core := { c with a := Sparse.set 0 c.a i v }
def getTd (c : Core) (i : Nat) : Td := Sparse.get 0 c.td i
def setTd (c : Core) (i : Nat) (v : Td) : Core := { c with td := Sparse.set 0 c.td i v }
def getCc (c : Core) (i : Nat) : BitVec 32 := Sparse.get 0 c.cc i
def setCc (c : Core) (i : Nat) (v : BitVec 32) : Core := { c with cc := Sparse.set 0 c.cc i v }
def getV (c : Core) (i : Nat) : List F32 := Sparse.getRun 0 c.v (256 * i) 256
def setV (c : Core) (i : Nat) (vs : List F32) : Core := { c with v := Sparse.setRun 0 c.v (256 * i) vs }

/-- p0 reads as all ones (R94). -/
def getP (c : Core) (i : Nat) : BitVec 256 := if i = 0 then BitVec.allOnes 256 else Sparse.get 0 c.p i

/-- A write to p0 is discarded (R94). -/
def setP (c : Core) (i : Nat) (v : BitVec 256) : Core := if i = 0 then c else { c with p := Sparse.set 0 c.p i v }

def getAcc (c : Core) (t : Nat) : List F32 := Sparse.getRun 0 c.acc (1024 * t) 1024
def setAcc (c : Core) (t : Nat) (vs : List F32) : Core := { c with acc := Sparse.setRun 0 c.acc (1024 * t) vs }
def chain (c : Core) (t : Nat) : Chain := Sparse.get Chain.none c.chains t
def setChain (c : Core) (t : Nat) (ch : Chain) : Core := { c with chains := Sparse.set Chain.none c.chains t ch }
def brimSlot (c : Core) (i : Nat) : BrimSlot := Sparse.get BrimSlot.none c.brim i
def setBrimSlot (c : Core) (i : Nat) (b : BrimSlot) : Core := { c with brim := Sparse.set BrimSlot.none c.brim i b }

/-- Bytes of the square buffer. -/
def readSqb (c : Core) (a n : Nat) : Bytes := Sparse.getRun 0 c.sqb a n

/-- Slots of 2 KiB that a byte range touches (R84). -/
def slotTouched (a n k : Nat) : Bool := decide (a / 2048 ≤ k ∧ k * 2048 < a + n)

/-- A write that is not a fill makes every slot it touches produced (R84). -/
def writeSqb (c : Core) (a : Nat) (bs : Bytes) : Core :=
  { c with sqb := Sparse.setRun 0 c.sqb a bs,
           clean := c.clean.filter (fun e => !slotTouched a bs.length e.1) }

/-- The slot record after a mover fill of `n` bytes at `a` from `src` (R84). -/
def fillRecord (clean : List (Nat × BitVec 64)) (a n : Nat) (src : BitVec 64) (k : Nat) : Option (BitVec 64) :=
  let lo := k * 2048
  if a ≤ lo ∧ lo + 2048 ≤ a + n then some (src + BitVec.ofNat 64 (lo - a))
  else
    match assocGet clean k with
    | some base =>
      let first := max a lo
      if base + BitVec.ofNat 64 (first - lo) = src + BitVec.ofNat 64 (first - a) then some base else none
    | none => none

/-- The slot records of the slots that a byte range touches, after a fill of `n` bytes at `a` from `src` of which the range is a part (R84). -/
def fillClean (clean : List (Nat × BitVec 64)) (touch : Nat → Bool) (a n : Nat) (src : BitVec 64) : List (Nat × BitVec 64) :=
  ((List.range 512).filter touch).foldl (fun cl k =>
    let rest := cl.filter (fun e => e.1 ≠ k)
    match fillRecord clean a n src k with
    | some b => rest ++ [(k, b)]
    | none => rest) clean

/-- A mover fill lands bytes copied from memory at `src` (R84). -/
def fillSqb (c : Core) (a : Nat) (bs : Bytes) (src : BitVec 64) : Core :=
  { c with sqb := Sparse.setRun 0 c.sqb a bs, clean := fillClean c.clean (slotTouched a bs.length) a bs.length src }

/-- A piece of a GET lands at an offset of its target; the fill that R84 speaks of is the whole operation. -/
def fillPiece (c : Core) (m : MoverOp) (rel : Nat) (bs : Bytes) : Core :=
  { c with sqb := Sparse.setRun 0 c.sqb (m.al.toNat + rel) bs,
           clean := fillClean c.clean (slotTouched (m.al.toNat + rel) bs.length) m.al.toNat m.len m.af }

def withCtl (c : Core) (f : CoreCtl → CoreCtl) : Core := { c with ctl := f c.ctl }
def withSpec (c : Core) (f : Special → Special) : Core := { c with spec := f c.spec }

/-- Length of the instruction window in instructions (R92). -/
def windowLen (c : Core) : Nat := 8 * (c.ctl.iwinLinesM1.toNat + 1)

/-- Whether the sequencer may issue (R92, R109, R151). -/
def mayIssue (c : Core) : Bool :=
  c.ctl.enable && c.ctl.run == .running && !c.ctl.draining && !c.ctl.ending && c.ctl.brimWait.isNone && c.ctl.stopping.isNone

/-- Lines that a mover operation still fills or reads, as an earlier instruction of R75 (R76); a FENCE touches none. A send has read its source once all
its pieces are under way. (DEDUCED, log entry 135) -/
def moverFoot (m : MoverOp) : Footprint :=
  let a := m.al.toNat
  let lines := [(a / 64, (a + max m.len 1 - 1) / 64 - a / 64 + 1)]
  if m.stage = .done ∨ m.op = 0xC6 then Footprint.none
  else if m.op = 0xC0 ∨ m.op = 0xC3 ∨ m.op = 0xC4 then { Footprint.none with writeLines := lines }
  else if m.len ≤ m.progress then Footprint.none
  else { Footprint.none with readLines := lines }

/-- A code is recorded: LAST_CODE, and its flag in CORE_ERR where it has one (R92). Corrected codes reach the region as reports (R738). -/
def note (c : Core) (code : Nat) : Core :=
  c.withCtl (fun k => { k with
    lastCode := code,
    escalated := if code = 0x1001 ∨ code = 0x1003 then k.escalated ++ [code] else k.escalated,
    errFlags := if 0x1001 ≤ code ∧ code ≤ 0x1005 then k.errFlags ||| (1#5 <<< (code - 0x1001)) else k.errFlags })

/-- The log entry of a core code: its arguments after the core number are the pc and the slot number (R822). (DEDUCED, log entry 31) -/
def logOf (c : Core) (code : Nat) : Nat × Nat × Nat := (code, c.ctl.pc, c.spec.slotno.toNat)

/-- Issue stops for an error; the core enters STATE 5 once earlier work has drained (R151), and the region is told (R152). The first of several stops
stands. (DEDUCED, log entry 31) -/
def stopWith (c : Core) (code info : Nat) : Core :=
  c.withCtl (fun k => { k with stopping := some (k.stopping.getD ⟨code, info⟩), waiting := false, ending := false, brimWait := none, escalated := k.escalated ++ [code] })

/-- A stop on error of the issued instruction at an index of the window: the pc points at it, as at a trap (R151). -/
def stopBack (c : Core) (index code info : Nat) : Core :=
  (c.withCtl (fun k => { k with pc := if k.stopping.isSome then k.pc else index })).stopWith code info

/-- A parity error on a line (R85): counts, line, and whether its slot is clean. -/
def noteParity (c : Core) (line : Nat) : Core × Bool :=
  let clean := (assocGet c.clean (line / 32)).isSome
  (c.withCtl (fun k => { k with parityCnt := satAdd 16 k.parityCnt 1, errLine := line, errProduced := !clean }), clean)

/-- A re-fill of the slot of a line is asked for (R85). -/
def askRefill (c : Core) (line : Nat) : Core :=
  if c.refills.contains (line / 32) then c else { c with refills := c.refills ++ [line / 32] }

/-- Second outcome of a parity error: the slot counts as produced, issue stops at the consumer, recompute-from is asked (R85). -/
def parityLost (c : Core) (index line : Nat) : CoreRes :=
  let c := c.note 0x1004
  ⟨c.stopBack index 0x1004 line, [(0x1004, index, line)]⟩

/-- The line of the window that holds the instruction at the pc (R71, R92). -/
def fetchLine (c : Core) : Nat := c.ctl.iwinBase.toNat + c.ctl.pc / 8

/-- Fetch or a scalar load meets a parity error (R83, R85): the instruction does not issue; it waits for the re-fill, or issue stops. -/
def parityAtIssue (c : Core) (line : Nat) : CoreRes :=
  let p := c.noteParity line
  if p.2 then ((p.1.askRefill line).withCtl (fun k => { k with waiting := decide (line ≠ c.fetchLine) })).quiet
  else p.1.parityLost p.1.ctl.pc line

/-- A trap: no state changes but the stop (R151). -/
def trap (c : Core) (code info : Nat) : CoreRes := ⟨c.stopWith code info, [c.logOf code]⟩

/-- Issue of one instruction: the pc moves on, the waits before it and its own cycle are counted (R97, R146), before it
reads any register: an MFS of RETIRED counts itself. (DEDUCED, log entry 145) -/
def advance (c : Core) (w : Waits) (retires : Bool) : Core :=
  { c with
    ctl := { c.ctl with pc := c.ctl.pc + 1, waiting := false, sbFull := satAdd 32 c.ctl.sbFull w.sbFull,
                        sqbStall := satAdd 32 c.ctl.sqbStall w.sqbStall },
    spec := { c.spec with cycle := c.spec.cycle + BitVec.ofNat 64 (w.wait + 1),
                          slotWait := c.spec.slotWait + BitVec.ofNat 64 w.wait,
                          retired := if retires then c.spec.retired + 1 else c.spec.retired } }

/-- One try at issue (R72, R108, R145, R151, R154): nothing where the core does not issue; a trap where a rule is
breached; a wait where the instruction cannot issue yet; else the effect, on the core with its pc moved on. (DESIGN CHOICE, log entries 10 and 11; DEDUCED, log entry 128) -/
def issue (c : Core) (w : Waits) (retires : Bool) (breaches : List (Bool × Nat)) (ready : Bool)
    (eff : Core → CoreRes) : CoreRes :=
  if !c.mayIssue then c.quiet
  else if c.windowLen ≤ c.ctl.pc then c.trap cOverrun 0
  else
    match w.parity with
    | some line => c.parityAtIssue line
    | none =>
      match lowestCode breaches with
      | some code => c.trap code 0
      | none => if c.refills.contains (c.fetchLine / 32) then c.quiet
        else if ready then eff (c.advance w retires)
        else (c.withCtl (fun k => { k with waiting := true })).quiet

/-- An instruction that waits holds every later one: only its own word may try again (R72, R256). -/
def holding (c : Core) (word : BitVec 64) (g : Core → CoreRes) : CoreRes :=
  if c.ctl.waiting && c.ctl.waitWord != word then c.quiet
  else
    let r := g c
    if r.core.ctl.waiting && r.core.ctl.brimWait.isNone then { r with core := r.core.withCtl (fun k => { k with waitWord := word }) } else r

/-! Hazards. -/

def rangesMeet (x y : Nat × Nat) : Bool := decide (x.1 < y.1 + y.2 ∧ y.1 < x.1 + x.2)
def linesMeet (xs ys : List (Nat × Nat)) : Bool := xs.any (fun x => ys.any (fun y => rangesMeet x y))
def meet (xs ys : List Nat) : Bool := xs.any (fun x => ys.contains x)

/-- Whether an earlier footprint holds back a later one, accumulators aside (R75, R147). -/
def clashes (e l : Footprint) : Bool :=
  linesMeet e.writeLines l.readLines || linesMeet e.readLines l.writeLines || linesMeet e.writeLines l.writeLines ||
  linesMeet e.spill l.writeLines || linesMeet (e.readLines ++ e.writeLines) l.spill ||
  meet e.writeV l.readV || meet e.readV l.writeV || meet e.writeV l.writeV ||
  meet e.writeP l.readP || meet e.readP l.writeP || meet e.writeP l.writeP

def accClashes (e l : Footprint) : Bool :=
  meet e.writeAcc l.readAcc || meet e.readAcc l.writeAcc || meet e.writeAcc l.writeAcc

/-- Whether an earlier spill tile holds back a later reader or spill. -/
def spillClashes (e l : Footprint) : Bool := linesMeet e.spill (l.readLines ++ l.spill)

/-- Whether an unretired instruction lets a later one issue: a chained product follows a product into the same tile at
once, whatever the two do to the chain's tile and spill tile, unless that product carries an epilogue (R48, R75, R125). -/
def letsPass (chained : Option Nat) (l : Footprint) (u : Unretired) : Bool :=
  !clashes u.foot l && (!(accClashes u.foot l || spillClashes u.foot l) || (u.product.isSome && u.product == chained && !u.epilogue))

/-- No earlier instruction or mover operation holds back a later one (R75, R76, R147), and it reads no slot that is being filled again (R85). -/
def noHazard (c : Core) (chained : Option Nat) (l : Footprint) : Bool :=
  c.unret.all (letsPass chained l) && c.mover.all (fun m => !clashes (moverFoot m) l && !spillClashes (moverFoot m) l) &&
  !linesMeet (c.refills.map (fun k => (32 * k, 32))) (l.readLines ++ l.spill)

/-- Scoreboard entries taken (R73). -/
def tilesInFlight (c : Core) : Nat := (c.unret.filter (fun u => u.isTile)).length

/-- Whether every earlier tile and vector instruction has retired or is held (R151). -/
def drained (c : Core) : Bool := c.unret.all (fun u => u.held)

/-- Whether every tile instruction has retired (R109, R143). -/
def tilesDone (c : Core) : Bool := c.unret.all (fun u => !u.isTile)

/-- An issued tile or vector instruction takes its place among the unretired. -/
def enter (c : Core) (isTile : Bool) (product : Option Nat) (epi : Bool) (foot : Footprint) (held : Bool)
    (redo : Option Job) (await : Option Nat) (index : Nat) : Core :=
  { c with unret := c.unret ++ [⟨c.nextId, isTile, product, epi, foot, held, redo, await, index⟩], nextId := c.nextId + 1 }

/-- Re-fills that have not landed are given up, and the work that awaits them is held (R87, R239). -/
def abandon (c : Core) : Core :=
  { c with refills := [],
           unret := c.unret.map (fun (u : Unretired) => if u.redo.isSome then { u with redo := none, await := none, held := true } else u) }

/-- Whether a tile is poisoned (R86). -/
def poisoned (c : Core) (t : Nat) : Bool := (c.chain t).poison

/-- POISON_MAP (R92). -/
def poisonMap (c : Core) : Nat := ((List.range 16).map (fun t => if c.poisoned t then 2 ^ t else 0)).foldl (· + ·) 0

/-- The random value of an element (R98, R195). -/
def rndOf (seed : Bytes) (stream step elem : Nat) : Nat → Nat :=
  let k := streamKey seed stream
  fun i => draw k step ((elem + i) % 2 ^ 48)

end Core

end Sys2Proof.Machine
end

