-- ==== Sys2Proof/Machine/CoreTile.lean ====
section
/-!
DEFINITION. Tile instructions in one core: legality (R113 to R126), footprints (R127), the work itself (R117, R122,
R219, R236), and its issue (R73, R75, R81 to R86, R98, R149).
-/
namespace Sys2Proof.Machine

/-! Legality. -/

/-- Output formats that a source may be converted into (R126): source kinds 0 FP32 accumulator, 1 INT32 accumulator,
2 FP32 tile, 3 16-bit tile. -/
def legalOut (src fmt : Nat) : Bool :=
  match src with
  | 0 => decide (fmt ≤ 6 ∨ fmt = 9)
  | 1 => decide (fmt = 10 ∨ fmt = 9 ∨ fmt = 0)
  | 2 => decide (fmt ≤ 6)
  | _ => decide (fmt = 9 ∨ (2 ≤ fmt ∧ fmt ≤ 6))

def srcKind (int32 : Bool) : Nat := if int32 then 1 else 0

def outBreaches (d : Td) (src : Nat) (sr : Bool) : List (Bool × Nat) :=
  tdBreaches d .output ++ [(!legalOut src d.format, cFormat), (sr && decide (d.format = 9 ∨ d.format = 10), cIllegalField)]

def spillBreaches (d : Td) : List (Bool × Nat) := tdBreaches d .spill ++ [(decide (d.format ≠ 11), cFormat)]

/-- Breaches of an epilogue on a tile of the given mode (R122, R126). -/
def epiBreaches (j : TileJob) (int32 : Bool) : List (Bool × Nat) :=
  if j.epi = 0 ∨ 9 ≤ j.epi then [(decide (9 ≤ j.epi), cIllegalField)]
  else
    [(int32 && decide (j.epi ≠ 5), cFormat)] ++
    (if j.epi = 4 then tdBreaches j.tdo .source else []) ++
    (if j.epi = 4 ∨ j.epi = 7 then [(decide (j.tdo.format ≠ 0 ∧ j.tdo.format ≠ 1 ∧ j.tdo.format ≠ 9), cFormat)] else []) ++
    (if 5 ≤ j.epi then outBreaches j.tdo (srcKind int32) j.sr else [])

/-- Every breach a tile instruction's operands can make at issue (R118 to R121, R126). -/
def tileBreaches (c : Core) (j : TileJob) : List (Bool × Nat) :=
  let ch := c.chain j.acc
  match j.op with
  | 0x40 =>
    let ma := laneMode j.tda.format
    let pairOk := decide (ma = laneMode j.tdb.format ∧ ma ≠ 6)
    let int32 := isIntMode ma
    tdBreaches j.tda .product ++ tdBreaches j.tdb .product ++
    [(decide (j.g = 3), cIllegalField), (!pairOk, cFormat),
     (pairOk && !j.start && (!ch.started || ch.int32 != int32), cAccMode),
     (!j.start && ch.started && ch.spen.isSome && ch.spen != some j.spillEn, cIllegalField)] ++
    (if j.spillEn then spillBreaches j.tds else []) ++ epiBreaches j (pairOk && int32)
  | 0x41 => tdBreaches j.tda .source ++
    [(decide (j.tda.format ≠ 0 ∧ j.tda.format ≠ 1 ∧ j.tda.format ≠ 9 ∧ j.tda.format ≠ 10), cFormat)]
  | 0x42 => spillBreaches j.tds ++ [(!ch.started, cAccMode)]
  | 0x43 => outBreaches j.tdo (srcKind ch.int32) j.sr ++ [(!ch.started, cAccMode)]
  | 0x44 => tdBreaches j.tda .source ++
    (if j.tda.format = 9 then outBreaches j.tdo 2 j.sr
     else if j.tda.format ≤ 1 then outBreaches j.tdo 3 j.sr else [(true, cFormat)])
  | _ => epiBreaches j ch.int32 ++ [(!ch.started, cAccMode)]

/-! Footprints (R127). -/

def epiFoot (j : TileJob) (f : Footprint) : Footprint :=
  let usesVe := decide (j.epi = 1 ∨ j.epi = 2 ∨ j.epi = 3 ∨ j.epi = 4 ∨ j.epi = 6 ∨ j.epi = 8)
  let writesVe := usesVe && decide (j.epi ≠ 6)
  { f with
    readV := if usesVe then [j.ve] else [],
    writeV := if writesVe then [j.ve] else [],
    readLines := f.readLines ++ (if j.epi = 4 ∨ j.epi = 7 then tdLines j.tdo .output else []),
    writeLines := f.writeLines ++ (if 5 ≤ j.epi then tdLines j.tdo .output else []) }

def tileFoot (j : TileJob) : Footprint :=
  let z := Footprint.none
  match j.op with
  | 0x40 =>
    let sp := if j.spillEn then tdLines j.tds .spill else []
    epiFoot j { z with readLines := tdLines j.tda .product ++ tdLines j.tdb .product, spill := sp,
                       readAcc := [j.acc], writeAcc := [j.acc] }
  | 0x41 => { z with readLines := tdLines j.tda .source, writeAcc := [j.acc] }
  | 0x42 => { z with readLines := tdLines j.tds .spill, readAcc := [j.acc], writeAcc := [j.acc] }
  | 0x43 => { z with readAcc := [j.acc], writeLines := tdLines j.tdo .output }
  | 0x44 => { z with readLines := tdLines j.tda .source, writeLines := tdLines j.tdo .output }
  | _ => epiFoot j { z with readAcc := [j.acc] }

/-- Elements drawn for by the instruction (R98, R186): stochastic rounding, and every MX store. -/
def tileDraws (j : TileJob) : Nat :=
  let stores := decide (j.op = 0x43 ∨ j.op = 0x44 ∨ ((j.op = 0x40 ∨ j.op = 0x45) ∧ 5 ≤ j.epi))
  if stores && (j.sr || isMx j.tdo.format) then 1024 else 0

/-! The work. -/

/-- How the work of a tile instruction ended, with the codes of its retries: done; held with a code (code, argument); held and issue stopped. -/
inductive TileEnd where
  | done (codes : List (Nat × Nat))
  | held (code arg : Nat)
  | stop (codes : List (Nat × Nat)) (code arg : Nat)
  deriving DecidableEq, Repr

/-- A code from an integer source: a value that underflows to zero gives +0 (R162). -/
def intZero (F : Fmt) (fromInt : Bool) (code : Nat) : Nat := if fromInt && code = F.signBit then 0 else code

/-- 1 024 exact values converted into a tile (R126, R182, R185); a value of an FP32 tile keeps binary32. -/
def storeValues (c : Core) (j : TileJob) (rnd : Nat → Nat) (fromInt : Bool) (vals : List FVal) : Core :=
  let fmt := j.tdo.format
  let F := fmtFloat fmt
  if isMx fmt then
    let va := vals.toArray
    let blocks := (List.range 32).map (fun r =>
      mxEncode F j.sr (if j.sr then (List.range 32).map (fun k => rnd (32 * r + k)) else [])
        ((List.range 32).map (fun k => va.getD (32 * r + k) .nan)))
    let codes := (blocks.flatMap (fun b => b.2)).toArray
    let c := c.writeSqb j.tdo.scale (blocks.map (fun b => BitVec.ofNat 8 b.1))
    c.writeSqb j.tdo.base (tileImage fmt (fun r k => codes.getD (32 * r + k) 0))
  else
    let codes := (((List.range 1024).zip vals).map (fun p =>
      intZero F fromInt (encode F (if j.sr then .sr (rnd p.1) else .rne) p.2))).toArray
    c.writeSqb j.tdo.base (tileImage fmt (fun r k => codes.getD (32 * r + k) 0))

/-- An accumulator tile converted into TDO (R126, R206): INT32 values scaled by 2^E, an INT32 tile copied raw. -/
def storeAcc (c : Core) (j : TileJob) (rnd : Nat → Nat) (acc : List F32) : Core :=
  let ch := c.chain j.acc
  if ch.int32 then
    if j.tdo.format = 10 then
      let raw := acc.toArray
      c.writeSqb j.tdo.base (tileImage 10 (fun r k => (raw.getD (32 * r + k) 0).toNat))
    else storeValues c j rnd true (acc.map (fun x => FVal.ofInt false x.toInt (ch.zc + ch.b)))
  else storeValues c j rnd false (acc.map val32)

/-- Values of a 16-bit or binary32 tile as stored (R219, R122). -/
def tileValues (c : Core) (d : Td) : List FVal :=
  let img := (c.readSqb d.base (tileBytes d.format)).toArray
  (List.range 1024).map (fun i => (fmtFloat d.format).decode (tileCode d.format img (i / 32) (i % 32)))

/-- Raw 32-bit elements of an FP32 or INT32 tile. -/
def tileRaw (c : Core) (d : Td) : List (BitVec 32) :=
  let img := (c.readSqb d.base 4096).toArray
  (List.range 1024).map (fun i => BitVec.ofNat 32 (tileCode d.format img (i / 32) (i % 32)))

def rowsOf (xs : List F32) : List (List F32) := (List.range 32).map (fun r => (xs.drop (32 * r)).take 32)

/-- Lanes 0–31 of VE combined row by row (R122, R123). -/
def rowInto (ve : List F32) (f : F32 → F32 → F32) (stats : List F32) : List F32 :=
  (List.zipWith f (ve.take 32) stats) ++ ve.drop 32

/-- An epilogue on the tile's values (R122). -/
def runEpi (c : Core) (j : TileJob) (rnd : Nat → Nat) : Core :=
  let acc := c.getAcc j.acc
  let rows := rowsOf acc
  let ve := c.getV j.ve
  let rowsum := fun (c : Core) => c.setV j.ve (rowInto ve fadd (rows.map (treeSum 5)))
  match j.epi with
  | 1 => rowsum c
  | 2 =>
    let sq := rows.map (fun r => treeSum 5 (r.map (fun x => fmul x x)))
    let lo := List.zipWith fadd (ve.take 32) (rows.map (treeSum 5))
    let hi := List.zipWith fadd ((ve.drop 32).take 32) sq
    c.setV j.ve (lo ++ hi ++ ve.drop 64)
  | 3 => c.setV j.ve (rowInto ve fmax (rows.map (treeMax 5)))
  | 4 =>
    let t := (tileValues c j.tdo).map rne32
    let dots := (rowsOf (List.zipWith fmul acc t)).map (treeSum 5)
    c.setV j.ve (rowInto ve fadd dots)
  | 5 => storeAcc c j rnd acc
  | 6 =>
    let va := ve.toArray
    storeValues c j rnd false (((List.range 1024).zip acc).map (fun p => val32 (fmul p.2 (va.getD (p.1 / 32) 0))))
  | 7 =>
    let t := (tileValues c j.tdo).map rne32
    storeValues c j rnd false ((List.zipWith fadd t acc).map val32)
  | 8 => storeAcc (rowsum c) j rnd acc
  | _ => c

/-- Whether a product triggers a spill (R229). -/
def spillDue (ch : Chain) (fmt : Nat) : Bool := ch.spen == some true && decide (2 ^ ch.iv ≤ ch.kcount + productK fmt)

/-- The spill that follows a product, where the interval is reached (R229 to R234). -/
def spillAfter (c : Core) (j : TileJob) : Core × Option Nat :=
  let ch := c.chain j.acc
  let k := ch.kcount + productK j.tda.format
  if !spillDue ch j.tda.format then (c.setChain j.acc { ch with kcount := k }, none)
  else
    match spillTile ch (spillWords c.sqb j.tds.base) (c.getAcc j.acc) with
    | none => (c.setChain j.acc { ch with poison := true }, some ch.b)
    | some ws =>
      let c := c.writeSqb j.tds.base (ws.flatMap (leBytes 8))
      let c := c.setAcc j.acc (List.replicate 1024 0)
      (c.setChain j.acc { ch with kcount := 0, spilled := true, b := if ch.int32 then 0 else ch.b,
                                  rc := if ch.int32 then 0 else ch.rc }, none)

/-- Start of a chain on ACC where the product asks for it (R62, R205, R218). -/
def startChain (c : Core) (j : TileJob) (int32 : Bool) : Core :=
  if j.start then
    (c.setAcc j.acc (List.replicate 1024 0)).setChain j.acc
      { Chain.none with int32 := int32, iv := j.iv, spen := some j.spillEn, started := true }
  else
    let ch := c.chain j.acc
    if ch.spen.isNone then c.setChain j.acc { ch with spen := some j.spillEn } else c

/-- A tile product, its retries, its epilogue and its spill (R117, R225, R226, R233). A product cut short by a second residue mismatch runs no epilogue and
no spill (R82); one whose spill meets a parity error in its spill tile, at `line`, has run its epilogue and stops (R239). A block with scale 0xFF poisons the
tile as the chain's start has left it (R166, R218). (DEDUCED, log entry 137) -/
def runTmma (c : Core) (j : TileJob) (rnd : Nat → Nat) (cut : Option Cut) (line : Option Nat) : Core × TileEnd :=
  let int32 := isIntMode (laneMode j.tda.format)
  let oa := readOperand c.sqb j.tda .product
  let ob := readOperand c.sqb j.tdb .product
  let c := startChain c j int32
  let ch := c.chain j.acc
  if nanScale oa ob then (c.setChain j.acc { ch with poison := true }, .held cIntNanScale 0)
  else
    let r := runProduct oa ob (groupSize j.g) cut (c.getAcc j.acc) ch
    let codes := (List.range r.retries).map (fun n => (0x1101, ch.b + n + 1))
    let c := c.setAcc j.acc r.acc
    if r.limit then (c.setChain j.acc { r.chain with poison := true }, .stop codes 0x1102 r.chain.b)
    else
      let c := c.setChain j.acc r.chain
      if cut.isSome then (c, .done codes)
      else
        match line with
        | some l => (runEpi c j rnd, .stop codes 0x1004 l)
        | none =>
          match spillAfter (runEpi c j rnd) j with
          | (c, none) => (c, .done codes)
          | (c, some b) => (c, .stop codes 0x1103 b)

/-- The chain that a TPRE starts (R120, R205). -/
def startPre (c : Core) (j : TileJob) : Core :=
  c.setChain j.acc { Chain.none with int32 := decide (j.tda.format = 10), iv := j.iv, started := true }

/-- TPRE: a chain that begins with the source tile (R219). -/
def runTpre (c : Core) (j : TileJob) : Core :=
  let fmt := j.tda.format
  let vals : List F32 := if fmt = 10 then tileRaw c j.tda else (tileValues c j.tda).map rne32
  startPre (c.setAcc j.acc vals) j

/-- A chain begins at issue, so that later instructions are judged by it although its work may wait (R119, R121, R85). -/
def beginChain (c : Core) (j : TileJob) : Core :=
  if j.op = 0x40 then startChain c j (isIntMode (laneMode j.tda.format)) else if j.op = 0x41 then startPre c j else c

/-- TFIN (R236). -/
def runTfin (c : Core) (j : TileJob) : Core :=
  let ch := c.chain j.acc
  if !ch.spilled then c.setChain j.acc { ch with kcount := 0 }
  else
    let ws := spillWords c.sqb j.tds.base
    let acc := c.getAcc j.acc
    if ch.int32 then
      let vs := List.zipWith (fun s x => tfinInt s ch.b x) ws acc
      let b := tfinB vs 33 0
      (c.setAcc j.acc (vs.map (fun v => BitVec.ofInt 32 (rneShift v b)))).setChain j.acc
        { ch with b := b, rc := 0, spilled := false, kcount := 0 }
    else (c.setAcc j.acc (List.zipWith tfinFloat ws acc)).setChain j.acc { ch with spilled := false, kcount := 0 }

/-- The work of any tile instruction. -/
def runTile (c : Core) (j : TileJob) (seed : Bytes) (cut : Option Cut) : Core × TileEnd :=
  let rnd := Core.rndOf seed j.stream j.step j.elem
  match j.op with
  | 0x40 => runTmma c j rnd cut none
  | 0x41 => (runTpre c j, .done [])
  | 0x42 => (runTfin c j, .done [])
  | 0x43 => (storeAcc c j rnd (c.getAcc j.acc), .done [])
  | 0x44 => (storeValues c j rnd false (tileValues c j.tda), .done [])
  | _ => (runEpi c j rnd, .done [])

/-- Whether the instruction reads ACC as it stands, and so is held when the tile is poisoned (R86). -/
def readsAcc (j : TileJob) : Bool := decide (j.op ≠ 0x41 ∧ j.op ≠ 0x44) && !(j.op = 0x40 && j.start)

/-- A product's cycles are counted as busy and as fully used (R47, R92). (DEDUCED, log entry 128) -/
def countBusy (c : Core) (j : TileJob) : Core :=
  if j.op = 0x40 then
    c.withCtl (fun k => { k with busy := satAdd 64 k.busy (productCycles j.tda.format),
                                 maccyc := satAdd 64 k.maccyc (productCycles j.tda.format) })
  else c

/-- A re-execution from K-slice `n` on, with the 8 cycles before it (R91). (DEDUCED, log entry 128) -/
def countAgain (c : Core) (j : TileJob) (n : Nat) : Core :=
  if j.op = 0x40 then
    let k0 := productCycles j.tda.format - 8 * n
    c.withCtl (fun k => { k with busy := satAdd 64 k.busy (k0 + 8), maccyc := satAdd 64 k.maccyc k0 })
  else c

/-- The operands of a tile instruction, read at issue (R99, R121). -/
def captureTile (c : Core) (op : Nat) (f : Opnd) : TileJob :=
  { op := op, acc := f.tAcc, tda := c.getTd f.tTda, tdb := c.getTd f.tTdb, tds := c.getTd f.tTds, tdo := c.getTd f.tTdo,
    g := f.tG, start := f.tStart, spillEn := f.tSpill, epi := f.tEpi, ve := f.tVe, sr := f.tSr,
    iv := c.spec.spillIv.toNat, stream := c.spec.stream.toNat, step := c.spec.step.toNat, elem := c.spec.elemBase.toNat }

/-- Fields an opcode uses (R117). -/
def tileFields (op : Nat) : List (Nat × Nat) :=
  match op with
  | 0x40 => [(55, 16)]
  | 0x41 => [(55, 52), (51, 47)]
  | 0x42 => [(55, 52), (35, 31)]
  | 0x43 => [(55, 52), (21, 17), (16, 16)]
  | 0x44 => [(51, 47), (21, 17), (16, 16)]
  | _ => [(55, 52), (30, 27), (26, 22), (21, 17), (16, 16)]

/-- ADVA and ADVB (R149), and the advance of ELEM_BASE (R98). -/
def afterIssue (c : Core) (f : Opnd) (j : TileJob) : Core :=
  let c := if j.op = 0x40 && f.tAdva then c.setTd f.tTda (c.getTd f.tTda).advance else c
  let c := if j.op = 0x40 && f.tAdvb then c.setTd f.tTdb (c.getTd f.tTdb).advance else c
  c.withSpec (fun k => { k with elemBase := BitVec.ofNat 64 ((k.elemBase.toNat + tileDraws j) % 2 ^ 48) })

/-- What the end of a tile instruction's work records (R166, R225, R226, R232), and whether it holds the instruction; `index` is its place in the window. (DEDUCED, log entry 35) -/
def endTile (c : Core) (j : TileJob) (index : Nat) (e : TileEnd) : CoreRes × Bool :=
  match e with
  | .done codes => (⟨codes.foldl (fun c p => c.note p.1) c, codes.map (fun p => (p.1, j.acc, p.2))⟩, false)
  | .held code arg =>
    let c := (c.note code).withCtl (fun k => { k with escalated := k.escalated ++ [code] })
    (⟨c, [if code = cIntNanScale then (code, index, c.spec.slotno.toNat) else (code, j.acc, arg)]⟩, true)
  | .stop codes code arg =>
    let c := codes.foldl (fun c p => c.note p.1) c
    (⟨(c.note code).stopBack index code arg, codes.map (fun p => (p.1, j.acc, p.2)) ++
      [if code = 0x1004 then (code, index, arg) else (code, j.acc, arg)]⟩, true)

/-- The end of a tile instruction's work: retained, held or stopped (R82, R86, R166, R226, R232). (DEDUCED, log entry 35) -/
def finishTile (c : Core) (j : TileJob) (isEpi : Bool) (prod : Option Nat) (index : Nat) (e : TileEnd) : CoreRes :=
  let r := endTile c j index e
  ⟨r.1.core.enter true prod isEpi (tileFoot j) r.2 none none index, r.1.log⟩

/-- A parity error that a product's spill meets in its spill tile, all else of the product having run (R239). -/
def spillParity (c : Core) (j : TileJob) (line : Nat) : Bool :=
  decide (j.op = 0x40) && j.spillEn && (tdLines j.tds .spill).any (fun x => Core.rangesMeet x (line, 1)) && spillDue (c.chain j.acc) j.tda.format

/-- Issue and work of a tile instruction, with the checks' outcome (R81 to R86). (DESIGN CHOICE, log entry 34) -/
def issueTile (op : Nat) (f : Opnd) (w : Waits) (seed : Bytes) (ev : CheckEvent) (c : Core) : CoreRes :=
  let j := captureTile c op f
  let prod := if op = 0x40 then some j.acc else none
  let chained := if op = 0x40 && !j.start then some j.acc else none
  let foot := tileFoot j
  let isEpi := decide (op = 0x40 ∧ j.epi ≠ 0)
  let ready := c.noHazard chained foot && decide (c.tilesInFlight < 24)
  let index := c.ctl.pc
  let at_ (code : Nat) : Nat × Nat × Nat := (code, index, c.spec.slotno.toNat)
  c.issue w false ((f.unusedSet (tileFields op), cIllegalField) :: tileBreaches c j) ready (fun c =>
    let c := countBusy (afterIssue c f j) j
    let deferred := c.unret.any (fun u => u.redo.isSome && u.product == chained && chained.isSome)
    if readsAcc j && c.poisoned j.acc then ⟨c.enter true prod isEpi foot true none none index, []⟩
    else if deferred then ⟨(beginChain c j).enter true prod isEpi foot false (some (.tile j)) none index, []⟩
    else
      match ev with
      | .clear => let r := runTile c j seed none; finishTile r.1 j isEpi prod index r.2
      | .residue n =>
        let c := (countAgain (c.note 0x1001) j n).withCtl (fun k => { k with residueCnt := satAdd 16 k.residueCnt 1 })
        let r := runTile c j seed none
        let e := finishTile r.1 j isEpi prod index r.2
        ⟨e.core, at_ 0x1001 :: e.log⟩
      | .residueTwice n patch retries =>
        let c := ((countAgain c j n).note 0x1001).withCtl (fun k => { k with residueCnt := satAdd 16 k.residueCnt 2 })
        let r := if op = 0x40 then runTile c j seed (some ⟨n, patch, retries⟩) else (c, .done [])
        let e := (endTile r.1 j index r.2).1
        let c := (e.core.note 0x1002).stopBack index 0x1002 0
        ⟨c.enter true prod isEpi foot true none none index, at_ 0x1001 :: e.log ++ [at_ 0x1002]⟩
      | .parity line =>
        let p := c.noteParity line
        if p.2 then ⟨((beginChain p.1 j).askRefill line).enter true prod isEpi foot false (some (.tile j)) (some (line / 32)) index, []⟩
        else if spillParity c j line then
          let r := runTmma p.1 j (Core.rndOf seed j.stream j.step j.elem) none (some line)
          finishTile r.1 j isEpi prod index r.2
        else
          let r := p.1.parityLost index line
          ⟨r.core.enter true prod isEpi foot true none none index, r.log⟩
      | .accStore t =>
        let c := (c.note 0x1005).setChain t { c.chain t with poison := true }
        let c := c.withCtl (fun k => { k with escalated := k.escalated ++ [0x1005] })
        ⟨c.enter true prod isEpi foot true none none index, [at_ 0x1005]⟩)

end Sys2Proof.Machine
end

