-- ==== Sys2Proof/Machine/Special.lean ====
section
/-!
DEFINITION. The special functions of the vector unit away from the inputs of R69: a fixed function of the input bits, the implementation's own, held to the
bound of R68. (DESIGN CHOICE, log entry 6)
-/
namespace Sys2Proof.Machine

/-- The integer square root, bit by bit from bit `n` down. -/
def isqrt (x : Nat) : Nat → Nat → Nat
  | 0, r => r
  | n + 1, r => if (r + 2 ^ n) * (r + 2 ^ n) ≤ x then isqrt x n (r + 2 ^ n) else isqrt x n r

/-- Whether a result lies within one place of the last digit of a nonzero value, or within 2 to `floor` where that is larger (R68). Values are given to 2⁻³⁰ of
a place, and so is the bound. -/
def nearEnough (y : F32) (a : FVal) (least : Int) : Bool :=
  match val32 y, a with
  | .fin s m e, .fin t n k =>
    let u := max (max (floorLog2 n k) (-126) - 23) least
    let base := min (min e k) (u - 30)
    decide ((FVal.atExp s m e base - FVal.atExp t n k base).natAbs ≤ (2 ^ 30 + 1) * 2 ^ (u - 30 - base).toNat)
  | _, _ => false

/-- The implementation's result where it keeps the bound, else the value rounded. -/
def bounded (y : F32) (a : FVal) (least : Int) : F32 := if nearEnough y a least then y else rne32 a

/-! Values to at least 60 bits. -/

/-- 1/x. -/
def nearRcp (s : Bool) (m : Nat) (e : Int) : FVal := .fin s (2 ^ 120 / m) (-120 - e)

/-- 1/√x of a positive x. -/
def nearRsq (m : Nat) (e : Int) : FVal :=
  let m := if e % 2 = 0 then m else 2 * m
  let e := if e % 2 = 0 then e else e - 1
  .fin false (isqrt (2 ^ 240 / m) 121 0) (-120 - e / 2)

/-- Bits of the logarithm of x·2⁻¹²⁰ after the point, for x from 2¹²⁰ below 2¹²¹. -/
def logBits : Nat → Nat → Nat → Nat
  | 0, _, acc => acc
  | n + 1, x, acc =>
    let y := (x * x) >>> 120
    if 2 ^ 121 ≤ y then logBits n (y >>> 1) (2 * acc + 1) else logBits n y (2 * acc)

/-- log₂ of a positive x other than 1. -/
def nearLog2 (m : Nat) (e : Int) : FVal :=
  let l := Nat.log2 m
  let v : Int := ((l : Int) + e) * 2 ^ 64 + logBits 64 (m <<< (120 - l)) 0
  .fin (decide (v < 0)) v.natAbs (-64)

/-- 2 to the power of the bits of a fraction after the point, times 2¹⁰⁰; `r` is the root that the next bit stands for. -/
def expBits : Nat → Nat → Nat → Nat → Nat
  | 0, _, _, acc => acc
  | n + 1, f, r, acc =>
    let r := isqrt (r <<< 100) 101 0
    expBits n f r (if f.testBit n then (acc * r) >>> 100 else acc)

/-- 2ˣ, for x within the domain of R68. -/
def nearExp2 (s : Bool) (m : Nat) (e : Int) : FVal :=
  let v : Int := FVal.atExp s m e (min e (-64)) / 2 ^ (-64 - min e (-64)).toNat
  .fin false (expBits 64 (v % 2 ^ 64).toNat (2 ^ 101) (2 ^ 100)) (v / 2 ^ 64 - 100)

end Sys2Proof.Machine
end

