-- ==== Sys2Proof/Machine/CoreVector.lean ====
section
/-!
DEFINITION. Vector instructions in one core (R129 to R136): legality, footprints, work, issue (R70, R73 to R77, R81).
-/
namespace Sys2Proof.Machine

/-- Opcodes that have a tile form (R132). -/
def hasTileForm (op : Nat) : Bool := decide ((0x80 ≤ op ∧ op ≤ 0x89) ∨ op = 0x8B)

/-- Opcodes with a second source, and the one with a third. -/
def usesVb (op : Nat) : Bool := decide ((0x80 ≤ op ∧ op ≤ 0x85) ∨ op = 0x8A ∨ op = 0x8B ∨ op = 0x91)
def usesVc (op : Nat) : Bool := decide (op = 0x83)

/-- Fields an opcode uses (R129, R132, R136). TILE, BM and CM are checked by rules of their own. -/
def vecFields (op : Nat) : List (Nat × Nat) :=
  let d := (55, 51); let a := (50, 46); let b := (45, 41); let cc := (40, 36); let pg := (35, 33); let t := (32, 32)
  let bm := (31, 30); let cm := (29, 28); let fn := (27, 24); let srf := (23, 23); let imm := (22, 0)
  if op = 0x83 then [d, a, b, cc, pg, t, bm, cm]
  else if (0x80 ≤ op ∧ op ≤ 0x85) ∨ op = 0x8B then [d, a, b, pg, t, bm]
  else if 0x86 ≤ op ∧ op ≤ 0x89 then [d, a, pg, t]
  else if op = 0x8A then [d, a, b, pg, t, fn]
  else if op = 0x8C ∨ op = 0x8F ∨ op = 0x90 then [d, a, pg, t]
  else if op = 0x8D ∨ op = 0x8E then [d, a, pg, t, imm]
  else if op = 0x91 then [d, a, b, pg, t]
  else if op = 0x92 then [d, a, pg, t, fn, srf]
  else if op = 0x93 ∨ op = 0x94 then [d, a, b, t]
  else if op = 0x95 then [d, a, t]
  else [d, a, pg, t, fn]

/-- The operands of a vector instruction, read at issue (R99). -/
def captureVec (c : Core) (op : Nat) (f : Opnd) : VecJob :=
  { op := op, vd := f.vD, va := f.vA, vb := f.vB, vc := f.vC, pg := f.vPg, tile := f.vTile, bm := f.vBm, cm := f.vCm,
    func := f.vFunc, srf := f.vSrf,
    addr := (((c.getA f.vA).toInt + f.vImm) % 2 ^ 64).toNat,
    scalar := (c.getS f.vA).setWidth 32,
    stream := c.spec.stream.toNat, step := c.spec.step.toNat, elem := c.spec.elemBase.toNat }

/-- Accumulator tiles a vector instruction names (R130, R132). -/
def vecTiles (j : VecJob) : List Nat :=
  if j.tile then
    [j.vd, j.va] ++ (if usesVb j.op && j.bm = 0 then [j.vb] else []) ++ (if usesVc j.op && j.cm = 0 then [j.vc] else [])
  else []

/-- Breaches a vector instruction's operands can make at issue (R102, R103, R119, R130 to R136). -/
def vecBreaches (c : Core) (f : Opnd) (j : VecJob) : List (Bool × Nat) :=
  let op := j.op
  let tiles := vecTiles j
  let int32s := tiles.map (fun t => (c.chain t).int32)
  [(f.unusedSet (vecFields op), cIllegalField),
   (j.tile && !hasTileForm op, cIllegalField),
   (!j.tile && decide (j.bm ≠ 0 ∨ j.cm ≠ 0), cIllegalField),
   (j.tile && tiles.any (fun t => decide (16 ≤ t)), cIllegalField),
   (j.tile && hasTileForm op && tiles.any (fun t => !(c.chain t).started), cAccMode),
   (j.tile && hasTileForm op && decide (op ≠ 0x8B) && int32s.any id, cFormat),
   (j.tile && decide (op = 0x8B) && int32s.any id && !int32s.all id, cFormat),
   (decide (op = 0x8A ∧ (8 ≤ j.vd ∨ 5 ≤ j.func)), cIllegalField),
   (decide (op = 0x92 ∧ 6 ≤ j.func), cIllegalField),
   (decide (op = 0x92) && j.srf && decide (j.func = 2 ∨ j.func = 3 ∨ j.func = 5), cIllegalField),
   (decide ((op = 0x93 ∨ op = 0x94 ∨ op = 0x95) ∧ (8 ≤ j.vd ∨ 8 ≤ j.va ∨ 8 ≤ j.vb)), cIllegalField),
   (decide ((op = 0x8D ∨ op = 0x8E ∨ op = 0x96) ∧ 16 ≤ j.va), cIllegalField),
   (decide (op = 0x97 ∧ 16 ≤ j.vd), cIllegalField),
   (decide ((op = 0x96 ∨ op = 0x97) ∧ 4 ≤ j.func), cIllegalField),
   (decide ((op = 0x8D ∨ op = 0x8E) ∧ (j.addr % 64 ≠ 0 ∨ 0x100000 < j.addr + 1024)), cRange)]

/-- What a vector instruction reads and writes (R75, R76, R147). -/
def vecFoot (j : VecJob) : Footprint :=
  let z := Footprint.none
  let op := j.op
  let pgs := if op = 0x93 ∨ op = 0x94 ∨ op = 0x95 then [] else [j.pg]
  if j.tile then
    let vregs := (if usesVb op && j.bm ≠ 0 then [j.vb] else []) ++ (if usesVc op && j.cm ≠ 0 then [j.vc] else [])
    let accs := (if usesVb op && j.bm = 0 then [j.vb] else []) ++ (if usesVc op && j.cm = 0 then [j.vc] else [])
    { z with readAcc := j.va :: j.vd :: accs, writeAcc := [j.vd], readV := vregs, readP := pgs }
  else
    let srcs := j.va :: ((if usesVb op then [j.vb] else []) ++ (if usesVc op then [j.vc] else []))
    if op = 0x8A then { z with readV := srcs, readP := [j.pg, j.vd], writeP := [j.vd] }
    else if op = 0x8C then { z with writeV := [j.vd], readV := [j.vd], readP := pgs }
    else if op = 0x8D then { z with readLines := [linesOf j.addr 1024], writeV := [j.vd], readV := [j.vd], readP := pgs }
    else if op = 0x8E then { z with writeLines := [linesOf j.addr 1024], readV := [j.vd], readP := pgs }
    else if op = 0x93 ∨ op = 0x94 then { z with readP := [j.va, j.vb], writeP := [j.vd] }
    else if op = 0x95 then { z with readP := [j.va], writeP := [j.vd] }
    else if op = 0x96 then { z with readAcc := [j.va], writeV := [j.vd], readV := [j.vd], readP := pgs }
    else if op = 0x97 then { z with readV := [j.va], readAcc := [j.vd], writeAcc := [j.vd], readP := pgs }
    else { z with readV := j.vd :: srcs, writeV := [j.vd], readP := pgs }

/-- The special functions (R68, R69): the special inputs as the table gives them, exp2 exact at integers, and elsewhere a
fixed function of the input bits that the manual bounds and does not give. (DESIGN CHOICE, log entry 6) -/
def fexp2 (x : F32) : F32 :=
  match val32 x with
  | .nan => nan32
  | .inf s => if s then 0 else 0x7F800000
  | .fin s m e =>
    if m = 0 then 0x3F800000
    else
      let below := (FVal.fin s m e).lt (.fin true 149 0)
      let above := !((FVal.fin s m e).lt (.fin false 128 0))
      if above then 0x7F800000
      else if below then 0
      else if 0 ≤ e ∨ m % 2 ^ (-e).toNat = 0 then
        let n : Int := FVal.atExp s m e (min e 0) / 2 ^ (-(min e 0)).toNat
        rne32 (.fin false 1 n)
      else bounded (Config.exp2Bits x) (nearExp2 s m e) (-149)

/-- DESIGN CHOICE, log entry 6. -/
def flog2 (x : F32) : F32 :=
  match val32 x with
  | .nan => nan32
  | .inf s => if s then nan32 else 0x7F800000
  | .fin s m e => if m = 0 then 0xFF800000 else if s then nan32
      else if (FVal.fin s m e).eqv (.fin false 1 0) then 0 else bounded (Config.log2Bits x) (nearLog2 m e) (-24)

/-- DESIGN CHOICE, log entry 6. -/
def frcp (x : F32) : F32 :=
  match val32 x with
  | .nan => nan32
  | .inf s => if s then 0x80000000 else 0
  | .fin s m e => if m = 0 then (if s then 0xFF800000 else 0x7F800000)
      else if (FVal.fin s m e).eqv (.fin false 1 0) then 0x3F800000 else bounded (Config.rcpBits x) (nearRcp s m e) (-149)

/-- DESIGN CHOICE, log entry 6. -/
def frsq (x : F32) : F32 :=
  match val32 x with
  | .nan => nan32
  | .inf s => if s then nan32 else 0
  | .fin s m e => if m = 0 then (if s then 0xFF800000 else 0x7F800000) else if s then nan32
      else if (FVal.fin s m e).eqv (.fin false 1 0) then 0x3F800000 else bounded (Config.rsqBits x) (nearRsq m e) (-149)

/-- One lane of an element-wise operation (R132). -/
def laneOp (op : Nat) (a b c : F32) : F32 :=
  match op with
  | 0x80 => fadd a b
  | 0x81 => fsub a b
  | 0x82 => fmul a b
  | 0x83 => ffma a b c
  | 0x84 => fmax a b
  | 0x85 => fmin a b
  | 0x86 => fexp2 a
  | 0x87 => flog2 a
  | 0x88 => frcp a
  | 0x89 => frsq a
  | _ => a + b

/-- VCMP (R133). -/
def cmpLane (func : Nat) (a b : F32) : Bool :=
  let x := val32 a
  let y := val32 b
  let un := x.isNan || y.isNan
  match func with
  | 0 => x.eqv y
  | 1 => !x.eqv y
  | 2 => !un && x.lt y
  | 3 => !un && !(y.lt x)
  | _ => un

/-- VCVT (R134). -/
def cvtLane (func : Nat) (r : Round) (a : F32) : F32 :=
  match func with
  | 0 => BitVec.ofNat 32 (cvt32 bf16 r a)
  | 1 => BitVec.ofNat 32 (cvt32 fp16 r a)
  | 2 => rne32 (bf16.decode (a.toNat % 65536))
  | 3 => rne32 (fp16.decode (a.toNat % 65536))
  | 4 => intToFp32 r a
  | _ => fp32ToInt a

/-- Lane values of a tile-form source: the tile's element, or lane row, lane col or lane 0 of a vector register (R130). -/
def tileSource (c : Core) (mode n : Nat) : Nat → F32 :=
  if mode = 0 then let t := (c.getAcc n).toArray; fun i => t.getD i 0
  else
    let v := (c.getV n).toArray
    match mode with
    | 1 => fun i => v.getD (i / 32) 0
    | 2 => fun i => v.getD (i % 32) 0
    | _ => fun _ => v.getD 0 0

/-- Predicate bit of a tile element (R131). -/
def tilePred (p : BitVec 256) (i : Nat) : Bool := p.toNat.testBit (32 * (i / 32 % 8) + i % 32)

/-- Tile form over the first `rows` rows (R130, R131); VSEL writes every element (R132). -/
def runVecTile (c : Core) (j : VecJob) (rows : Nat) : Core :=
  let a := (c.getAcc j.va).toArray
  let b := tileSource c j.bm j.vb
  let cc := tileSource c j.cm j.vc
  let p := c.getP j.pg
  c.setAcc j.vd (((List.range 1024).zip (c.getAcc j.vd)).map (fun e =>
    let i := e.1
    if 32 * rows ≤ i then e.2
    else if j.op = 0x8B then (if tilePred p i then a.getD i 0 else b i)
    else if tilePred p i then laneOp j.op (a.getD i 0) (b i) (cc i) else e.2))

/-- Register form (R130 to R135). -/
def runVecReg (c : Core) (j : VecJob) (seed : Bytes) : Core :=
  let p := c.getP j.pg
  let lane := fun (old new : List F32) => ((List.range 256).zip (old.zip new)).map (fun e =>
    if p.toNat.testBit e.1 then e.2.2 else e.2.1)
  let va := c.getV j.va
  let vb := c.getV j.vb
  let bitsOf := fun (f : Nat → Bool) => BitVec.ofNat 256 ((List.range 256).foldl (fun n i => if f i then n + 2 ^ i else n) 0)
  match j.op with
  | 0x8A =>
    let a := va.toArray
    let b := vb.toArray
    let old := c.getP j.vd
    c.setP j.vd (bitsOf (fun i => if p.toNat.testBit i then cmpLane j.func (a.getD i 0) (b.getD i 0) else old.toNat.testBit i))
  | 0x8B => c.setV j.vd (lane vb va)
  | 0x8C => c.setV j.vd (lane (c.getV j.vd) (List.replicate 256 j.scalar))
  | 0x8D =>
    let bs := c.readSqb j.addr 1024
    c.setV j.vd (lane (c.getV j.vd) ((List.range 256).map (fun i => BitVec.ofNat 32 (leNat ((bs.drop (4 * i)).take 4)))))
  | 0x8E =>
    let old := c.readSqb j.addr 1024
    let words := (List.range 256).map (fun i => BitVec.ofNat 32 (leNat ((old.drop (4 * i)).take 4)))
    c.writeSqb j.addr ((lane words (c.getV j.vd)).flatMap (fun w => leBytes 4 w.toNat))
  | 0x8F => c.setV j.vd (treeSum 8 (lane (List.replicate 256 0) va) :: List.replicate 255 0)
  | 0x90 => c.setV j.vd (treeMax 8 (lane (List.replicate 256 0xFF800000) va) :: List.replicate 255 0)
  | 0x92 =>
    let rnd := Core.rndOf seed j.stream j.step j.elem
    let new := ((List.range 256).zip va).map (fun e => cvtLane j.func (if j.srf then .sr (rnd e.1) else .rne) e.2)
    c.setV j.vd (lane (c.getV j.vd) new)
  | 0x93 => c.setP j.vd (c.getP j.va &&& c.getP j.vb)
  | 0x94 => c.setP j.vd (c.getP j.va ||| c.getP j.vb)
  | 0x95 => c.setP j.vd (~~~ c.getP j.va)
  | 0x96 => c.setV j.vd (lane (c.getV j.vd) (((c.getAcc j.va).drop (256 * j.func)).take 256))
  | 0x97 =>
    let t := c.getAcc j.vd
    let mid := lane ((t.drop (256 * j.func)).take 256) va
    c.setAcc j.vd (t.take (256 * j.func) ++ mid ++ t.drop (256 * (j.func + 1)))
  | _ =>
    let vc := c.getV j.vc
    c.setV j.vd (lane (c.getV j.vd) (List.zipWith (fun a bc => laneOp j.op a bc.1 bc.2) va (vb.zip vc)))

/-- The work of any vector instruction; `rows` limits a tile form cut short by a second residue mismatch (R82). -/
def runVec (c : Core) (j : VecJob) (seed : Bytes) (rows : Nat) : Core :=
  if j.tile then runVecTile c j rows else runVecReg c j seed

/-- Accumulator tiles a vector instruction reads, and so is held on when poisoned (R86). -/
def vecReadsAcc (j : VecJob) : List Nat := if j.tile then vecTiles j else if j.op = 0x96 then [j.va] else []

/-- Issue and work of a vector instruction, with the checks' outcome (R70, R81 to R86). (DESIGN CHOICE, log entry 34) -/
def issueVec (op : Nat) (f : Opnd) (w : Waits) (seed : Bytes) (ev : CheckEvent) (c : Core) : CoreRes :=
  let j := captureVec c op f
  let foot := vecFoot j
  let index := c.ctl.pc
  let at_ (code : Nat) : Nat × Nat × Nat := (code, index, c.spec.slotno.toNat)
  c.issue w false (vecBreaches c f j) (c.noHazard none foot) (fun c =>
    let c := if op = 0x92 && j.srf then
        c.withSpec (fun k => { k with elemBase := BitVec.ofNat 64 ((k.elemBase.toNat + 256) % 2 ^ 48) }) else c
    if (vecReadsAcc j).any c.poisoned then ⟨c.enter false none false foot true none none index, []⟩
    else
      match ev with
      | .clear => ⟨(runVec c j seed 32).enter false none false foot false none none index, []⟩
      | .residue _ =>
        let c := (c.note 0x1001).withCtl (fun k => { k with residueCnt := satAdd 16 k.residueCnt 1 })
        ⟨(runVec c j seed 32).enter false none false foot false none none index, [at_ 0x1001]⟩
      | .residueTwice n _ _ =>
        let c := ((c.note 0x1001).note 0x1002).withCtl (fun k => { k with residueCnt := satAdd 16 k.residueCnt 2 })
        let c := if j.tile then runVec c j seed (8 * n) else c
        let c := c.stopBack index 0x1002 0
        ⟨c.enter false none false foot true none none index, [at_ 0x1001, at_ 0x1002]⟩
      | .parity line =>
        let p := c.noteParity line
        if p.2 then ⟨(p.1.askRefill line).enter false none false foot false (some (.vec j)) (some (line / 32)) index, []⟩
        else
          let r := p.1.parityLost index line
          ⟨r.core.enter false none false foot true none none index, r.log⟩
      | .accStore t =>
        let c := (c.note 0x1005).setChain t { c.chain t with poison := true }
        let c := c.withCtl (fun k => { k with escalated := k.escalated ++ [0x1005] })
        ⟨c.enter false none false foot true none none index, [at_ 0x1005]⟩)

end Sys2Proof.Machine
end

