-- ==== Sys2Proof/Machine/CoreScalar.lean ====
section
/-!
DEFINITION. Control, move and sync instructions in one core (R104 to R110, R137 to R146, R257).
-/
namespace Sys2Proof.Machine
namespace Core

/-! Control (R105). -/

/-- sD ← op(sA, sB), form CR. -/
def crBinary (op : BitVec 64 → BitVec 64 → BitVec 64) (f : Opnd) (w : Waits) (c : Core) : CoreRes :=
  c.issue w true [(f.unusedSet [(55, 41)], cIllegalField)] true (fun c =>
    (c.setS f.crD (op (c.getS f.crA) (c.getS f.crB))).quiet)

/-- Two operands, D and A, form CR; `a16`, `d16` say which name address registers (R103). -/
def crUnary (d16 a16 : Bool) (eff : Core → Core) (f : Opnd) (w : Waits) (c : Core) : CoreRes :=
  c.issue w true [(f.unusedSet [(55, 46)], cIllegalField), (d16 && (narrow f.crD).1, cIllegalField),
    (a16 && (narrow f.crA).1, cIllegalField)] true (fun c => (eff c).quiet)

/-- IMM32, sign-extended (R104). -/
def immS (f : Opnd) : BitVec 64 := BitVec.ofInt 64 (signed 32 f.imm32)

/-- A comparison of COND (R106). -/
def condHolds (cond : Nat) (x y : BitVec 64) : Bool :=
  match cond with
  | 0 => x == y
  | 1 => x != y
  | 2 => x.slt y
  | 3 => !x.slt y
  | 4 => x.ult y
  | _ => !x.ult y

/-- A branch of the given target, taken or not (R107, R108). The cycles a taken branch costs without issue are not
counted as waits. -/
def branch (taken : Core → Bool) (eff : Core → Core) (used : List (Nat × Nat)) (more : List (Bool × Nat)) (f : Opnd)
    (w : Waits) (c : Core) : CoreRes :=
  let off := signed 32 f.imm32
  let target := (c.ctl.pc : Int) + off
  let out := taken c && !(inRange 0 ((c.windowLen : Int) - 1) target)
  let cost := if !taken c then 0 else if inRange (-64) (-1) off then 1 else 6
  c.issue w true ((f.unusedSet used, cIllegalField) :: (out, cOverrun) :: more) true (fun d =>
    let d := eff d
    let d := if taken c then d.withCtl (fun k => { k with pc := target.toNat }) else d
    (d.withSpec (fun k => { k with cycle := k.cycle + BitVec.ofNat 64 cost })).quiet)

/-- LDS and STS: the address and its checks (R110). -/
def ldsAddr (c : Core) (f : Opnd) : Nat := (c.getA (f.crA % 16) + immS f).toNat

def ldsBreaches (c : Core) (f : Opnd) : List (Bool × Nat) :=
  [(f.unusedSet [(55, 46), (31, 0)], cIllegalField), narrow f.crA,
   (decide (c.ldsAddr f % 8 ≠ 0 ∨ 0x100000 ≤ c.ldsAddr f), cRange)]

/-- The value MFS reads (R97). -/
def readSpecial (c : Core) (coreNo : Nat) (i : Nat) : BitVec 64 :=
  let k := c.spec
  match i with
  | 0 => BitVec.ofNat 64 (coreNo + k.chip.toNat * 2 ^ 9 + k.part.toNat * 2 ^ 22)
  | 1 => k.stream | 2 => k.step | 3 => k.elemBase | 4 => k.spillIv | 5 => k.wdog | 6 => k.srec
  | 7 => k.cycle | 8 => k.slotno.setWidth 64 | 9 => k.slotWait | _ => k.retired

/-- Whether a value is undefined for a special register (R97). -/
def specialIllegal (i : Nat) (v : Nat) : Bool :=
  match i with
  | 1 => decide (2 ^ 12 ≤ v)
  | 2 => decide (2 ^ 48 ≤ v)
  | 3 => decide (2 ^ 48 ≤ v)
  | 4 => decide (v < 8 ∨ 16 < v)
  | 5 => decide (2 ^ 32 ≤ v)
  | 6 => decide (2 ^ 28 ≤ v ∨ (v ≠ 0 ∧ 16383 < bitsNat v 13 0 + bitsNat v 27 14))
  | _ => true

def writeSpecial (c : Core) (i : Nat) (v : BitVec 64) : Core :=
  c.withSpec (fun k => match i with
    | 1 => { k with stream := v } | 2 => { k with step := v } | 3 => { k with elemBase := v }
    | 4 => { k with spillIv := v } | 5 => { k with wdog := v } | _ => { k with srec := v })

/-! Move and remote (R137 to R140). -/

def moveFields (op : Nat) (dtype : Nat) : List (Nat × Nat) :=
  let af := (55, 52); let al := (51, 48); let cc := (47, 44); let sl := (43, 39); let rx := (38, 38); let as_ := (37, 34)
  let dt := (33, 31); let sv := (30, 26); let sw := (25, 21); let job := (20, 13)
  match op with
  | 0xC0 => [af, al, cc, sl, rx]
  | 0xC1 => [af, al, cc, sl, rx]
  | 0xC2 => [af, al, cc, sl, rx, as_]
  | 0xC3 => [af, al, cc, rx, sv, dt]
  | 0xC4 => [af, al, cc, rx, sv, sw, dt]
  | 0xC5 => [af, al, cc, sl, job, dt]
  | _ => if dtype = 0 then [cc, dt, af] else [cc, dt]

def moveLegalDtype (op dtype : Nat) : Bool :=
  match op with
  | 0xC3 => decide (dtype ≤ 1)
  | 0xC5 => decide (dtype = 2 ∨ dtype = 3)
  | 0xC6 => decide (dtype ≤ 1)
  | _ => decide (dtype = 0)

/-- Bytes an operation covers: sSL, or the element of an atomic (R138). -/
def moveLen (c : Core) (op : Nat) (f : Opnd) : Nat :=
  match op with
  | 0xC3 => if f.mDtype = 1 then 4 else 8
  | 0xC4 => 8
  | 0xC6 => 0
  | _ => (c.getS f.mSl).toNat

/-- Breaches of a move instruction, in no order (R138, R139, R153, R154); bits 63:32 of sSV that are not zero are an illegal field. (DEDUCED, log entry 147) -/
def moveBreaches (c : Core) (op : Nat) (f : Opnd) : List (Bool × Nat) :=
  let len := c.moveLen op f
  let af := c.getA f.mAf
  let al := (c.getA f.mAl).toNat
  let sized := decide (op = 0xC0 ∨ op = 0xC1 ∨ op = 0xC2 ∨ op = 0xC5)
  let atomic := decide (op = 0xC3 ∨ op = 0xC4)
  [(f.unusedSet (moveFields op f.mDtype), cIllegalField),
   (!moveLegalDtype op f.mDtype, cIllegalField),
   (sized && decide (len = 0 ∨ 1048576 < len), cIllegalField),
   (decide (op = 0xC5) && decide (len < 64 ∨ len % 64 ≠ 0), cIllegalField),
   (decide (op = 0xC3 ∧ f.mDtype = 1) && decide (2 ^ 32 ≤ (c.getS f.mSv).toNat), cIllegalField),
   ((sized || atomic) && decide (0x100000 < al + len ∨ 2 ^ 20 ≤ al), cRange),
   (sized && decide (64 ≤ len) && decide (al % 64 ≠ 0 ∨ af.toNat % 64 ≠ 0), cRange),
   (atomic && decide (al % len ≠ 0 ∨ af.toNat % len ≠ 0), cRange),
   ((decide (op ≠ 0xC6) || decide (f.mDtype = 0)) && af.toNat.testBit 63, cIllegalField),
   (decide (op = 0xC2) && (c.getA f.mAs).toNat.testBit 63, cIllegalField)]

/-- The least free mover slot (R78, R140). (DESIGN CHOICE, log entry 146) -/
def freeSlot (c : Core) : Option Nat := (List.range 64).find? (fun i => !c.mover.any (fun m => m.slot = i))

/-- A move instruction issues into a mover slot; its waits take place there (R140). -/
def issueMove (op : Nat) (f : Opnd) (w : Waits) (c : Core) : CoreRes :=
  let pc := c.ctl.pc
  c.issue w true (c.moveBreaches op f) c.freeSlot.isSome (fun c =>
    match c.freeSlot with
    | none => c.quiet
    | some i =>
      let m : MoverOp :=
        { slot := i, order := c.nextOrder, op := op, af := c.getA f.mAf, al := c.getA f.mAl, as_ := c.getA f.mAs,
          cc := f.mCc, len := c.moveLen op f, relax := f.mRelax, dtype := f.mDtype, sv := c.getS f.mSv, sw := c.getS f.mSw,
          job := f.mJob, index := pc, slotno := c.spec.slotno, stage := .waiting, status := 0, code := 0, failAt := 0,
          owed := 0, signalOwed := decide (op = 0xC2), tokens := 0, floored := false,
          progress := 0, reqs := [] }
      { c with mover := c.mover ++ [m], nextOrder := c.nextOrder + 1 }.quiet)

/-! Sync (R142 to R146). -/

def slotBad (f : Opnd) : Bool × Nat := (decide (48 ≤ f.ySlot), cIllegalField)

/-- KIND of a Brim slot (R597). -/
def slotKind (c : Core) (i : Nat) : Nat := bitsNat (c.brimSlot i).lo.toNat 1 0

def slotArrived (c : Core) (i : Nat) : Nat := bitsNat (c.brimSlot i).lo.toNat 31 16
def slotSeen (c : Core) (i : Nat) : Nat := bitsNat (c.brimSlot i).hi.toNat 15 0

/-- A sync instruction on a slot of the wrong kind (R144): 2 barrier, 1 flag (R576). -/
def kindBad (c : Core) (f : Opnd) (kind : Nat) : Bool × Nat := (decide (f.ySlot < 48 ∧ c.slotKind f.ySlot ≠ kind), cSlotKind)

/-- Two generations outstanding (R582). -/
def overrun (c : Core) (i : Nat) : Bool := decide ((c.slotArrived i + 65536 - c.slotSeen i) % 65536 = 2)

/-- An arrival is taken: ARRIVED rises by one modulo 2^16 (R580). -/
def arrive (c : Core) (i : Nat) : Core :=
  let b := c.brimSlot i
  c.setBrimSlot i { b with lo := BitVec.ofNat 32 (bitsNat b.lo.toNat 15 0 + (c.slotArrived i + 1) % 65536 * 65536) }

/-- FWAIT's comparison (R143, R586). -/
def flagHolds (c : Core) (f : Opnd) : Bool :=
  let v := (c.brimSlot f.ySlot).hi
  let x : BitVec 32 := (c.getS f.ySv).setWidth 32
  match f.yCond with
  | 0 => decide (x.toNat ≤ v.toNat)
  | 1 => v == x
  | _ => v != x

/-- WSLOT: operand must follow SLOTNO, but for the first since the window was written (R257). (DEDUCED, log entry 33) -/
def wslotBad (c : Core) (f : Opnd) : Bool := c.seenWslot && decide (f.imm32 ≠ (c.spec.slotno.toNat + 1) % 2 ^ 32)

/-- A wait on a Brim slot ends once SEEN has caught up with ARRIVED (R583): the waiting instruction completes. -/
def endBrimWait (c : Core) : Core :=
  match c.ctl.brimWait with
  | none => c
  | some i =>
    if c.slotArrived i = c.slotSeen i then
      { c with ctl := { c.ctl with brimWait := none, waiting := false, pc := c.ctl.pc + 1 },
               spec := { c.spec with retired := c.spec.retired + 1 } }
    else c

/-- A wait begins: BAR or BWAIT holds issue, the pc staying on it (R145, R583, R591). -/
def beginBrimWait (c : Core) (i : Nat) : Core :=
  ({ c with ctl := { c.ctl with brimWait := some i, waiting := true, pc := c.ctl.pc - 1 },
            spec := { c.spec with retired := c.spec.retired - 1 } }).endBrimWait

/-- END's waits begin: it holds issue, the pc staying on it (R109, R145). -/
def beginEnd (c : Core) : Core :=
  { c with ctl := { c.ctl with ending := true, pc := c.ctl.pc - 1 }, spec := { c.spec with retired := c.spec.retired - 1 } }

/-- END's waits are over (R109): it completes, its slot closed, ENABLE is cleared and the core is idle. -/
def finishEnd (c : Core) : Core :=
  { c with ctl := { c.ctl with pc := c.ctl.pc + 1, ending := false, enable := false, draining := false, run := .idle },
           spec := { c.spec with retired := c.spec.retired + 1 }, slotOpen := false }

/-- Cycles in which nothing has issued are counted (R97, R146). -/
def spendWait (c : Core) (wait : Nat) : Core :=
  c.withSpec (fun k => { k with cycle := k.cycle + BitVec.ofNat 64 wait, slotWait := k.slotWait + BitVec.ofNat 64 wait })

end Core
end Sys2Proof.Machine
end

