-- ==== Sys2Proof/Machine/StateHost.lean ====
section
/-!
DEFINITION. The state of boot (R637 to R654) and of the host port (R655 to R676).
-/
namespace Sys2Proof.Machine

/-- An ingest ring (R664, R665): HEAD, whether it is stopped, records taken, bytes of records since HEAD was last written back. TAIL is a
register. -/
structure IngRing where
  head : Nat
  stopped : Bool
  taken : Nat
  since : Nat
  deriving DecidableEq, Repr

/-- DESIGN CHOICE, log entry 17. -/
def IngRing.reset : IngRing := ⟨0, false, 0, 0⟩

/-- An export in the sealing engine (R441, R669): of core `core`, mover slot `slot`; `dest` the owner of form 0; `step` the
STEP of its stream. -/
structure Export where
  part : Nat
  rule : Nat
  form : Nat
  dest : Nat
  core : Nat
  slot : Nat
  step : Nat
  data : List (BitVec 8)
  deriving DecidableEq, Repr

/-- The host port. `hostCtr` holds CTR of each partition's host window (R672); `plainSeq` the records of each plain rule, keyed 64·session + rule,
and `escrowSeq` the escrow records of each session (R668). `speed` to `keyset` are `PCIE.STATUS`. -/
structure HostPort where
  rings : List (Nat × IngRing)
  egrTail : Nat
  exports : List Export
  hostCtr : List (Nat × Nat)
  plainSeq : List (Nat × Nat)
  escrowSeq : List (Nat × Nat)
  speed : Nat
  width : Nat
  flit : Bool
  ideSecure : Bool
  keyset : Bool
  deriving DecidableEq, Repr

def HostPort.reset : HostPort := ⟨[], 0, [], [], [], [], 0, 0, false, false, false⟩

/-- Boot (R638, R677, R679). `flash` holds the flash's bytes by offset, one not listed reading 0xFF; `fused` is TEST_FUSED, 1 in a shipped device (R23, R775); `flashMode`, `flashMhz`
and `sfdp` are `XSPI.STATUS`; `deviceId` is the digest of the DeviceID public key (R432), `measures` the measurements 1 to 8 (R434);
`uds` are the fuses of the unique device secret and `cdi` the two DICE secrets made from it (R432). -/
structure Boot where
  phase : Nat
  ready : Bool
  slot : Nat
  fallback : Bool
  lastCode : Nat
  held : BitVec 16
  fused : Bool
  flash : List (Nat × BitVec 8)
  flashMode : Nat
  flashMhz : Nat
  sfdp : Bool
  deviceId : List (BitVec 8)
  measures : List (Nat × List (BitVec 8))
  uds : List (BitVec 8)
  cdi : List (List (BitVec 8))
  deriving DecidableEq, Repr

/-- DESIGN CHOICE, log entry 17. -/
def Boot.reset : Boot := ⟨0, false, 0, false, 0, 0, true, [], 0, 25, false, List.replicate 48 0, [], List.replicate 32 0, []⟩

end Sys2Proof.Machine
end

