-- ==== Sys2Proof/Machine/StateMgmt.lean ====
section
/-!
DEFINITION. The state of management: the fault log (R693, R694), Stolulter connections (R684 to R692), staging (R696 to
R699) and the board management controller's target (R701, R702).
-/
namespace Sys2Proof.Machine

/-- A fault-log entry (R693). -/
structure FlogEntry where
  seq : Nat
  time : Nat
  code : Nat
  block : Nat
  boot : Nat
  a0 : Nat
  a1 : Nat
  a2 : Nat
  deriving DecidableEq, Repr

/-- A Stolulter connection (R684): its client's public key as bytes, its telemetry period in ms (R691), 0 for none, and where the counts stood at its last
record. -/
structure MgmtConn where
  id : Nat
  key : List Byte
  telem : Nat
  base : List Nat
  deriving DecidableEq, Repr

/-- Staging of an image (R696): STATE as `MGMT.STAGE` codes it, the connection it runs on, its TOTAL. -/
structure Stage where
  state : Nat
  slot : Nat
  svn : Nat
  conn : Option Nat
  total : Nat
  deriving DecidableEq, Repr

def Stage.idle : Stage := ⟨0, 0, 0, none, 0⟩

/-- `eid` is the MCTP endpoint ID that the bus owner has set (R701). `sram` holds the newest 4 096 entries; `toFlash` those of them not yet in flash; `flash` the persistent log
and `flashed` the entries ever written to it (R694). -/
structure Mgmt where
  phyUp : Bool
  addrOk : Bool
  conns : List MgmtConn
  i3cAddr : Bool
  bmcPlimit : Nat
  eid : Nat
  stage : Stage
  sram : List FlogEntry
  toFlash : List FlogEntry
  flash : List FlogEntry
  flashed : Nat
  flogSeq : Nat
  eventSeq : Nat
  ppsSecond : Option Nat
  deriving DecidableEq, Repr

def Mgmt.reset : Mgmt := ⟨false, false, [], false, 0, 0, Stage.idle, [], [], [], 0, 0, 0, none⟩

end Sys2Proof.Machine
end

