-- ==== Sys2Proof/Machine/StateNet.lean ====
section
/-!
DEFINITION. The state of the Esvor links, paths and fabric time (R464 to R497).
-/
namespace Sys2Proof.Machine

/-- A frame on its way out (R477). Its source is this chip, its FID follows from its partition, and CTR, `fseq`, the flit in which it ends, TIME and its bytes
on the wire are set as it leaves; `floored` marks it as sent under the class floor (R479). -/
structure Frame where
  type : Nat
  part : Nat
  kgen : Bool
  cls : Nat
  dst : Nat
  opw : BitVec 64
  payload : List Byte
  floored : Bool
  ctr : Nat
  fseq : Nat
  time : Nat
  wire : List Byte
  deriving DecidableEq, Repr

/-- `LINKj.STATUS.STATE` (R496). -/
inductive LinkRun where
  | off | training | authenticating | up | fastRetrain | failed | down | halted
  deriving DecidableEq, Repr

def LinkRun.code : LinkRun → Nat
  | .off => 0 | .training => 1 | .authenticating => 2 | .up => 3 | .fastRetrain => 4 | .failed => 5 | .down => 6 | .halted => 7

/-- A loopback run (R765, R766, R783): MODE, SECONDS, DONE, PASS, the two counts; a write of ENABLE 1 that waits for MODE 0. -/
structure LinkLoop where
  mode : Nat
  seconds : Nat
  done : Bool
  pass : Bool
  cnt : Nat
  err : Nat
  latched : Bool
  deriving DecidableEq, Repr

/-- One link. `phase` counts the phases of R471 done; `rxCtr` is the CTR that the next keyed frame must carry, `railCtr` the last
CTR by (source, rail) on a scale-out link (R483). `queue` holds frames to send, `unacked` those sent and not acknowledged.
`fseq` is the next flit to send, `ackFseq` the last one acknowledged, `rxFseq` the last received in sequence; `replays` counts replays of the
oldest flit (R475). `held` lists flits received with the frames that end in them and have not passed and the rest of the frame under way, `ackOut` is the last
flit acknowledged to the peer, `ackLeft` the rest that stood then (R480). `rxLeft` is how many 16-byte units of the frame under way are still to come (R476).
`rxLine` holds link data that the PCS has delivered and no flit has taken, each byte with whether it is marked bad, and `past` the last 58 bits received on each
lane (R468 to R470). `loop` is the loopback run. -/
structure Link where
  run : LinkRun
  phase : Nat
  attempts : Nat
  peer : Nat
  peerLink : Nat
  txCtr : Nat
  rxCtr : Nat
  railCtr : List (Nat × Nat × Nat)
  queue : List Frame
  unacked : List Frame
  credits : List Nat
  floorNext : Option Nat
  fseq : Nat
  ackFseq : Nat
  rxFseq : Nat
  held : List (Nat × Nat × Nat)
  ackOut : Nat
  ackLeft : Nat
  rxLeft : Nat
  rxLine : List (Byte × Bool)
  past : List Nat
  replays : Nat
  loop : LinkLoop
  deriving DecidableEq, Repr

def Link.reset : Link := ⟨.off, 0, 0, 0, 0, 0, 0, [], [], [], [0, 0, 0, 0], none, 0, 4095, 4095, [], 4095, 0, 0, [], [0, 0, 0, 0], 0, ⟨0, 1, false, false, 0, 0, false⟩⟩

/-- How far a rekey has come on this side (R487). -/
inductive Rekey where
  | none | offered | answered | switched
  deriving DecidableEq, Repr

/-- Keys of a path for a partition (R466, R481, R487), agreed once `ready` (R482), the older slot live while `older`. `tx` and `rx` count frames and payload bytes under
the key in each direction; `doneSent` and `doneGot` are REKEY_DONE's. `keys` are the 72 bytes
of R481 for the newest generation and `oldKeys` for the older, `eph` this chip's ephemeral private key while an agreement is under way. On the rails the list order is the order of use, least recent first (R486). -/
structure Path where
  peer : Nat
  part : Nat
  gen : Nat
  ready : Bool
  older : Bool
  tx : Nat × Nat
  rx : Nat × Nat
  rekey : Rekey
  doneSent : Bool
  doneGot : Bool
  keys : List Byte
  oldKeys : List Byte
  eph : List Byte
  deriving DecidableEq, Repr

/-- An operation passed on to a lender (R366): the reply that names (lender, core, slot) goes to (chip, link), as a frame of `type`. -/
structure Relay where
  lender : Nat
  core : Nat
  slot : Nat
  chip : Nat
  link : Nat
  type : Nat
  deriving DecidableEq, Repr

/-- An operation of another chip as its data frames arrive: the offset at which its next frame would begin, and whether a
data piece has failed (R506, R526). -/
structure InOp where
  chip : Nat
  core : Nat
  slot : Nat
  next : Nat
  failed : Bool
  deriving DecidableEq, Repr

/-- SOURCE, PEER, LOCKED and OFFSET of fabric time (R496); `t1` the stamp of a TIME_REQ in flight; `slew` an offset still to be
removed (R493); `hi` the latched upper half; `slewOnly` once a Charter has been accepted. -/
structure FabTime where
  now : Nat
  source : Nat
  peer : Nat
  locked : Bool
  offset : Int
  t1 : Option Nat
  slew : Int
  hi : Nat
  slewOnly : Bool
  deriving DecidableEq, Repr

def FabTime.reset : FabTime := ⟨0, 0, 0, false, 0, none, 0, 0, false⟩

/-- Links, paths and time. `far` lists the (chip, rail) pairs that a switch has named unreachable, `farAbsent` the chips of
other groups declared absent. `eng` are operations of the device's own engines that await a reply: chip, and the MSLOT they are sent under. -/
structure Net where
  links : Sparse Link
  paths : List Path
  relays : List Relay
  inOps : List InOp
  absent : BitVec 8
  far : List (Nat × Nat)
  farAbsent : List Nat
  eng : List (Nat × Nat)
  deriving DecidableEq, Repr

def Net.reset : Net := ⟨[], [], [], [], 0, [], [], []⟩

end Sys2Proof.Machine
end

