-- ==== Sys2Proof/Machine/StatePwr.lean ====
section
/-!
DEFINITION. The state of clocks, Seams, input pins, power and the rail sequencer (R707 to R735, R790 to R796), of the Visor (R752 to R763) and of test
(R764 to R786).
-/
namespace Sys2Proof.Machine

/-- `PWR.REGION_STATEn.STATE` (R721). -/
inductive RegState where
  | active | slow | stop | entering | waking | held
  deriving DecidableEq, Repr

def RegState.code : RegState → Nat
  | .active => 0 | .slow => 1 | .stop => 2 | .entering => 3 | .waking => 4 | .held => 5

/-- One region's power. `deep` says that the entry under way goes to SLEEP_STOP; `cause` is the code that held the region down, of which CAUSE shows the low byte; `point` is the operating point in force, `clamp` the thermal clamp,
`clamped` that it is being lowered (R727), `trip` that the region is at point 0 for its temperature, `alarm` that a margin alarm holds it one point lower
(R757), `mv` its regulator's voltage. -/
structure RegPwr where
  st : RegState
  deep : Bool
  pend : Bool
  point : Nat
  cause : Nat
  temp : Nat
  clamp : Nat
  clamped : Bool
  trip : Bool
  alarm : Bool
  mv : Nat
  deriving DecidableEq, Repr

/-- DESIGN CHOICE, log entry 18. -/
def RegPwr.reset : RegPwr := ⟨.stop, false, false, 0, 0, 0, 14, false, false, false, 600⟩

/-- An input pin (R728, R729): level asserted, ignored as stuck, times of the last accepted assertion and of the last release. -/
structure Pin where
  active : Bool
  stuck : Bool
  accepted : Option Nat
  released : Option Nat
  deriving DecidableEq, Repr

/-- DESIGN CHOICE, log entry 18. -/
def Pin.reset : Pin := ⟨false, false, none, none⟩

/-- A package rail (R790, R793): measured mV and mA, in range. -/
structure Rail where
  mv : Nat
  ma : Nat
  good : Bool
  deriving DecidableEq, Repr

def Rail.off : Rail := ⟨0, 0, false⟩

/-- The sequencer (R794 to R796): idle off, enabling a group, up, removing a group. -/
inductive Sequencer where
  | off | rising (group : Nat) | up | falling (group : Nat)
  deriving DecidableEq, Repr

/-- Clocks and power. Bit d − 1 of `running`, `failed`, `starting`, `stopping`, `pllPend` and `seams` is domain d: its clock runs and is locked, its
PLL or Seams have failed until cold reset, its PLL is on its way to lock or to off, a start is latched, its Seams carry traffic. `freq` is `CLK.FREQd`. `pins`
are the inputs of R728 in its order. `samples` are the 100 µs power samples of the millisecond under way, `overMs` and `under` the consecutive samples and
milliseconds of R726, `throttled` that the first lowering since point 14 has been recorded. `logic` and `dram` are temperatures in 0.1 °C, `hot` the stacks
at 95 °C or more, `tripAll` a reading on LD or SMD at 105 °C, `tick` the 100 µs readings of the millisecond under way. `enables` are the rail enables in the order of R788; `latched` says that power-up
waits for COLD_RST_N (R796), `shutdown` that a thermal shutdown has ended power, `resetHeld` that a cold reset waits
for the logic to cool (R727), `aonLog` the AON log of rail faults: rail and mV. (DEDUCED, log entry 20) -/
structure Pwr where
  regions : List (Nat × RegPwr)
  running : BitVec 25
  failed : BitVec 25
  starting : BitVec 25
  stopping : BitVec 25
  pllPend : BitVec 25
  seams : BitVec 25
  freq : List (Nat × Nat)
  backup : Bool
  pins : List (Nat × Pin)
  chipPoint : Nat
  avg : Nat
  peak : Nat
  samples : List Nat
  overMs : Nat
  under : Nat
  throttled : Bool
  logic : Nat
  dram : Nat
  hot : BitVec 8
  tripAll : Bool
  tick : Nat
  rails : List (Nat × Rail)
  enables : BitVec 10
  seq : Sequencer
  latched : Bool
  shutdown : Bool
  resetHeld : Bool
  aonLog : List (Nat × Nat)
  deriving DecidableEq, Repr

/-- After cold reset: AON runs, every rail is up. (DESIGN CHOICE, log entries 16 and 18) -/
def Pwr.reset : Pwr :=
  { regions := [], running := 1, failed := 0, starting := 0, stopping := 0, pllPend := 0, seams := 0, freq := [], backup := false, pins := [], chipPoint := 0,
    avg := 0, peak := 0, samples := [], overMs := 0, under := 0, throttled := false, logic := 0, dram := 0, hot := 0, tripAll := false, tick := 0,
    rails := (List.range 11).map (fun i => (i, ⟨0, 0, true⟩)), enables := BitVec.allOnes 10, seq := .up, latched := false, shutdown := false, resetHeld := false, aonLog := [] }

/-! The Visor. -/

/-- A unit of the Visor (R753, R754), in fs: its Δ, the mean of `samples`, the greatest Δ of each 10 ms of the last second; Δ at its last plan, the powered day
of that plan, and growth per day since the one before as a fraction; valid monitors; the time since which its Δ has exceeded the allowance by the alarm. -/
structure VisorUnit where
  delta : Int
  samples : List Int
  planned : Option Int
  planDay : Nat
  rateNum : Nat
  rateDays : Nat
  valid : Nat
  overSince : Option Nat
  deriving DecidableEq, Repr

def VisorUnit.reset : VisorUnit := ⟨0, [], none, 0, 0, 1, 0, none⟩

/-- A copy of the plan in flash (R758): its count, the plan and the retired points, each unit's Δ, day and growth at its last plan (unit, planned, planDay, rateNum,
rateDays), its CRC-32 and the 16 bytes of its HMAC. -/
structure VisorCopy where
  count : Nat
  plan : List (Nat × Nat × Nat)
  retired : List (Nat × Nat)
  units : List (Nat × Option Int × Nat × Nat × Nat)
  crc : Nat
  mac : List (BitVec 8)
  deriving DecidableEq, Repr

/-- The Visor. `plan` lists (unit, point, mV), `retired` the retired (unit, point) pairs. `copyA` and `copyB` are the two copies of the plan in flash (R758) and,
with `days`, survive cold reset; `inB` says that the copy in use is the second. `fresh` is a plan made and not yet applied, with its cause (R759);
`doubts` are monitors (unit, monitor) that disagree with their oscillators, with the time since which they do, `excluded` those excluded. -/
structure Visor where
  units : List (Nat × VisorUnit)
  plan : List (Nat × Nat × Nat)
  retired : List (Nat × Nat)
  fresh : Option (List (Nat × Nat × Nat) × Nat)
  doubts : List ((Nat × Nat) × Nat)
  excluded : List (Nat × Nat)
  days : Nat
  report : Nat
  reportTime : Nat
  reportCause : Nat
  copyA : Option VisorCopy
  copyB : Option VisorCopy
  inB : Bool
  starting : Bool
  deriving DecidableEq, Repr

def Visor.reset : Visor := ⟨[], [], [], none, [], [], 0, 0, 0, 0, none, none, false, false⟩

/-! Test. -/

/-- DRAM BIST and the core diagnostic of a region (R784): `rows` are the rows repaired with spares, by channel (R772), `core` is the CORE field, `running` the core under a diagnostic. -/
structure RegTest where
  bistFail : BitVec 16
  rows : List (Nat × Nat)
  core : Nat
  running : Option Nat
  done : Bool
  pass : Bool
  failOp : Nat
  deriving DecidableEq, Repr

/-- Rows of a region repaired, over its channels. -/
def RegTest.repaired (t : RegTest) : Nat := (t.rows.map Prod.snd).foldl (· + ·) 0

def RegTest.reset : RegTest := ⟨0, [], 0, none, false, false, 0⟩

/-- Test state: `GLOBAL.DEBUG` (R785) with the nonce outstanding, the TAP's instruction and boundary register (R773), the regions' tests. -/
structure Test where
  opened : Bool
  scope : BitVec 5
  bscan : Bool
  nonce : Option (List (BitVec 8))
  tap : Nat
  cells : List Bool
  regions : List (Nat × RegTest)
  deriving DecidableEq, Repr

/-- The TAP's instruction after reset is IDCODE, as IEEE 1149.1 has it. (PRESUMED, log entry 122) -/
def Test.reset : Test := ⟨false, 0, false, none, 1, [], []⟩

end Sys2Proof.Machine
end

