-- ==== Sys2Proof/Machine/StateRegion.lean ====
section
/-!
DEFINITION. The state of one region beside its cores: buffers, Cuff, update engine and weave records.
-/
namespace Sys2Proof.Machine

/-- An error of a core within the window of R739: core, code, line, time. -/
structure CoreError where
  core : Nat
  code : Nat
  line : Nat
  time : Nat
  deriving DecidableEq, Repr

/-- One region. `rbOff` names disabled frames (16·set + way); `fills` the line fills in flight to the region buffer (page, line);
`memCnt` counts line accesses between heat samples (R316); `late` and `worst` are the weave records
(R260).
`corr` counts symbols corrected by page, `rbErrs` are parity errors of buffered pages with their time (R749), `errHist`
the errors of R739, `errCore` and `errLast` ERR_STATE (R761), `patrol` a pass ordered by RUN (R338). -/
structure Region where
  tc : List TcEntry
  rb : List RbFrame
  rbOff : List Nat
  fills : List (Nat × Nat)
  memCnt : Nat
  cuff : MemCuff
  ue : UpdateEngine
  lateCnt : Nat
  worstSlot : Nat
  worstWait : Nat
  worstCore : Nat
  corr : List (Nat × Nat)
  rbErrs : List (Nat × Nat)
  errHist : List CoreError
  errCore : Nat
  errLast : Nat
  patrol : Bool
  deriving DecidableEq, Repr

def Region.reset : Region := ⟨[], [], [], [], 0, MemCuff.reset, UpdateEngine.reset, 0, 0, 0, 0, [], [], [], 0, 0, false⟩

end Sys2Proof.Machine
end

