-- ==== Sys2Proof/Machine/State.lean ====
section
/-!
DEFINITION. The device's whole state, its state after reset, and the reasons a command can stop.
-/
namespace Sys2Proof.Machine

/-- What the device has sent to the outside, in order. (DESIGN CHOICE, log entries 13 and 124) -/
inductive Out where
  /-- A code reported to a writer (R14). -/
  | refused (who : Writer) (addr code : Nat)
  /-- A Stolulter response (R687). -/
  | stol (conn type code id : Nat) (body : List Nat)
  /-- An EVENT push (R692). -/
  | event (conn seq time kind : Nat) (body : List Nat)
  /-- A flit leaves a die-to-die Cuff under its counter (R401, R402). -/
  | flit (dcuff ctr : Nat) (f : Flit)
  /-- A die-to-die Cuff asks for a flit again (R403). -/
  | flitAgain (dcuff ctr : Nat)
  /-- A flit that has passed its tag, deciphered (R403). -/
  | flitOpened (dcuff : Nat) (header : BitVec 64) (payload : List Byte)
  /-- A frame leaves on a link with its counter, time and bytes on the wire (R477). -/
  | frame (link : Nat) (f : Frame)
  /-- The signed ephemeral public key that an end of a link sends as it authenticates (R473). -/
  | linkAuth (link : Nat) (pub : List Byte)
  /-- Bytes the device writes in host memory, as they are before sealing: 1 to 31 a block of that host window, 32 + s the HEAD of ingest ring s,
  64 an egress record, 65 the egress TAIL; then an index, the counter it is sealed under, the bytes (R665 to R672). -/
  | dma (what index ctr : Nat) (data : List Byte)
  /-- A response of the SPDM responder on a transport: request code, whether it is refused, and the numbers that it carries (R433). -/
  | spdm (transport request : Nat) (error : Bool) (body : List Nat)
  /-- A response of the DOE mailbox (R659): object type, code, numbers. -/
  | doe (type code : Nat) (body : List Nat)
  /-- A NAK or credits returned in a link's control words (R475, R478): link, class or ACK, units. -/
  | control (link : Nat) (nak : Bool) (what units : Nat)
  /-- Bits shifted out by the TAP under an instruction (R773). -/
  | tap (instr : Nat) (bits : List Nat)
  /-- An MCTP message on the I3C target (R701, R702): type, code, numbers. -/
  | mctp (type code : Nat) (body : List Nat)
  /-- An MSI-X vector (R655). -/
  | msi (vector : Nat)
  deriving DecidableEq, Repr

/-- Reasons to stop with a fault: none is raised, for the manual answers every command. -/
inductive Fault where
  /-- Raised by nothing; safe. -/
  | unreachable
  deriving DecidableEq, Repr

/-- Reasons to refuse a command. -/
inductive Refusal where
  /-- Raised by `exec` for a command that has no meaning in the model. Safe. -/
  | notModelled (mnemonic : String)
  deriving DecidableEq, Repr

/-- The device. `cores` is keyed 32·region + core; `keySlots` by Cuff (0 to 15 memory, 16 to 21 die-to-die, 22 to 57
links, 58 PCIe); `d2d` by DCUFF number. `regs` holds each plain register as its value exclusive-or its reset value;
`errs` each ERR register with SEEN and LAST_CODE, `counts` each plain counter, by control address. `halt` holds the
first code of an integrity halt and its block (R408), `haltLow` that HALT_N is driven low (R407); `werr` the first refused host
write since the last clear (R661); `quarMap` the quarantine map in flash (R741). `free` numbers the free values drawn so far; it is the model's own. (DESIGN CHOICE, log entry 7; DEDUCED, log entry 51) -/
structure State where
  pending : List Instr
  cores : Sparse Core
  regions : Sparse Region
  mem : Memory
  keySlots : Sparse (BitVec 64)
  d2d : Sparse D2d
  regs : Sparse (BitVec 32)
  errs : Sparse (BitVec 32)
  counts : Sparse Nat
  keys : Keys
  crown : Crown
  brim : BrimNet
  mgmt : Mgmt
  net : Net
  host : HostPort
  boot : Boot
  red : Reduce
  ckpt : Ckpt
  pwr : Pwr
  visor : Visor
  test : Test
  clock : FabTime
  halt : Option (Nat × Nat)
  haltLow : Bool
  werr : Option (Nat × Nat)
  quarMap : BitVec 512
  out : List Out
  free : Nat
  deriving DecidableEq, Repr

/-- The device right after cold reset, before anything has run. (DESIGN CHOICE, log entry 16) -/
def State.reset : State :=
  { pending := [], cores := [], regions := [], mem := Memory.reset, keySlots := [], d2d := [], regs := [], errs := [],
    counts := [], keys := Keys.reset, crown := Crown.reset, brim := BrimNet.reset, mgmt := Mgmt.reset, net := Net.reset, host := HostPort.reset, boot := Boot.reset, red := Reduce.reset, ckpt := Ckpt.reset, pwr := Pwr.reset, visor := Visor.reset, test := Test.reset, clock := FabTime.reset,
    halt := none, haltLow := false, werr := none, quarMap := 0, out := [], free := 0 }

end Sys2Proof.Machine
end

