-- ==== Sys2Proof/Machine/RegMap.lean ====
section
/-!
DEFINITION. Control-space addresses (R10, R11, R815 to R819) and the reset values of the plain registers.
-/
namespace Sys2Proof.Machine

/-- Control address of an offset in a block (R10). -/
def ctl (block off : Nat) : Nat := block * 65536 + off

/-- Block of a control address (R10). -/
def blockOf (addr : Nat) : Nat := addr / 65536

/-- Offset of a control address (R10). -/
def offOf (addr : Nat) : Nat := addr % 65536

/-- Block number of a region's registers (R815). -/
def regionBlock (r : Nat) : Nat := 0x10 + r

def isRegion (b : Nat) : Bool := decide (0x10 ≤ b ∧ b ≤ 0x1F)

/-- Reset value of a register that is held as plain data. -/
def plainReset (addr : Nat) : BitVec 32 :=
  let b := blockOf addr
  let o := offOf addr
  let w : Nat :=
    if isRegion b then
      match o with
      | 0x600 => 16
      | 0x800 => 24
      | 0xA00 => 8 + 8 * 2 ^ 8 + 2 * 2 ^ 16 + 4 * 2 ^ 20 + 60 * 2 ^ 24
      | _ => 0
    else if 0x20 ≤ b ∧ b ≤ 0x43 then (if o = 0 then 1 else 0)
    else match b, o with
      | 0x0002, 0x208 => 20 * 2
      | 0x0008, 0 => 7
      | 0x0008, 0xC => 200
      | 0x0008, 0x10 => 32 + 10 * 2 ^ 8 + 64 * 2 ^ 16
      | 0x0008, 0x14 => 4
      | 0x0008, 0x18 => 2048
      | 0x0008, 0x1C => 65536
      | 0x0005, 0 => 900
      | 0x0006, 0 => 30 + 3 * 2 ^ 8
      | 0x0009, 0 => 1 + 6 * 2 + 100 * 2 ^ 16
      | 0x000A, 0 => 100
      | 0x000E, 4 => 100
      | 0x000E, 0x100 => 50 + 100 * 2 ^ 12 + 10 * 2 ^ 24
      | 0x0005, o => if 0x140 ≤ o ∧ o ≤ 0x17C ∧ o % 4 = 0 then 14 else 0
      | _, _ => 0
  BitVec.ofNat 32 w

namespace State

/-- A plain register's value. -/
def reg (s : State) (addr : Nat) : BitVec 32 := plainReset addr ^^^ Sparse.get 0 s.regs addr

def setReg (s : State) (addr : Nat) (v : BitVec 32) : State :=
  { s with regs := Sparse.set 0 s.regs addr (v ^^^ plainReset addr) }

/-- Field [hi:lo] of a plain register. -/
def regField (s : State) (addr hi lo : Nat) : Nat := bitsNat (s.reg addr).toNat hi lo

end State
end Sys2Proof.Machine
end

