-- ==== Sys2Proof/Machine/Flags.lean ====
section
/-!
DEFINITION. Error codes: the block's SEEN bit and LAST_CODE (R821), and the fault log (R693, R822).
-/
namespace Sys2Proof.Machine

/-- A code raised by a block, with its three arguments (R822). -/
structure Raise where
  block : Nat
  code : Nat
  a0 : Nat
  a1 : Nat
  a2 : Nat
  deriving DecidableEq, Repr

/-- The bit of an ERR register that a SEEN field of `n` codes from `first` gives a code. -/
def seenBit (first n code : Nat) : BitVec 32 :=
  if first ≤ code ∧ code < first + n then BitVec.ofNat 32 (2 ^ (code - first)) else 0

/-- The bit of an ERR register that names its codes one by one. -/
def namedBit (codes : List Nat) (code : Nat) : BitVec 32 :=
  match codes.findIdx? (· = code) with
  | some i => BitVec.ofNat 32 (2 ^ i)
  | none => 0

/-- The ERR registers that record a code of a block, each with the code's SEEN bit. (DEDUCED, log entry 21) -/
def errSlots (block code : Nat) : List (Nat × BitVec 32) :=
  let hi := code / 256
  match hi with
  | 0x02 => [(ctl 0x0002 0, seenBit 0x0201 16 code)]
  | 0x03 => [(ctl 0x0003 4, seenBit 0x0301 16 code)]
  | 0x08 => [(ctl 0x0008 0x28, seenBit 0x0801 8 code)]
  | 0x20 => if block = 9 then [(ctl 0x0009 0x10, namedBit [0x2002, 0x2003, 0x2004] code)] else []
  | 0x21 =>
    if 0x50 ≤ block ∧ block ≤ 0x5F then [(ctl block 0xC, namedBit [0x2101, 0x2107, 0x2108] code)]
    else if 0x60 ≤ block ∧ block ≤ 0x65 then [(ctl block 0xC, namedBit [0x2101, 0x2104, 0x210A] code)]
    else []
  | 0x22 => [(ctl 0x000C 8, seenBit 0x2201 16 code)]
  | 0x30 =>
    let bit := seenBit 0x3001 16 code
    if 0x20 ≤ block ∧ block ≤ 0x43 then [(ctl 0x000E 0x24, bit), (ctl block 0x28, bit)] else [(ctl 0x000E 0x24, bit)]
  | 0x31 => [(ctl 0x000E 0x104, seenBit 0x3101 8 code)]
  | 0x32 => [(ctl 0x000D 4, seenBit 0x3201 16 code)]
  | 0x40 => if 0x10 ≤ block ∧ block ≤ 0x1F then [(ctl block 0x910, seenBit 0x4001 8 code)] else []
  | 0x50 => [(ctl 0x000A 4, seenBit 0x5001 16 code)]
  | 0x60 => [(ctl 0x0004 8, seenBit 0x6001 16 code)]
  | 0x70 =>
    if block = 6 then [(ctl 0x0006 8, seenBit 0x700A 6 code)] else [(ctl 0x0005 0x14, seenBit 0x7001 16 code)]
  | _ => []

/-- An ERR register after one code: SEEN gains its bit, LAST_CODE takes it (R821). (DEDUCED, log entry 21) -/
def errAfter (code : Nat) (bit w : BitVec 32) : BitVec 32 := (w &&& 0xFFFF#32) ||| bit ||| BitVec.ofNat 32 (code * 65536)

/-- The newest `n` entries of a list. -/
def newest {α : Type} (n : Nat) (xs : List α) : List α := (xs.reverse.take n).reverse

namespace State

/-- The fault log takes an entry: SRAM keeps the newest 4 096 (R693, R694). -/
def logRaise (s : State) (r : Raise) : State :=
  let e : FlogEntry := ⟨s.mgmt.flogSeq % 2 ^ 32, s.clock.now, r.code, r.block, s.keys.boots, r.a0, r.a1, r.a2⟩
  let sram := s.mgmt.sram ++ [e]
  { s with mgmt := { s.mgmt with sram := newest 4096 sram, toFlash := s.mgmt.toFlash ++ [e],
                                 flogSeq := s.mgmt.flogSeq + 1 } }

/-- One code is raised: its registers, then the log. -/
def raiseOne (s : State) (r : Raise) : State :=
  let errs := (errSlots r.block r.code).foldl (fun m e => Sparse.update 0 m e.1 (errAfter r.code e.2)) s.errs
  ({ s with errs := errs, boot := if r.code / 256 = 1 then { s.boot with lastCode := r.code } else s.boot }).logRaise r

/-- Place of a raise in the order of R822. -/
def raiseInsert (r : Raise) : List Raise → List Raise
  | [] => [r]
  | x :: xs => if r.block * 65536 + r.code < x.block * 65536 + x.code then r :: x :: xs else x :: raiseInsert r xs

/-- Codes raised together, in ascending order of block and then of code (R822). (DEDUCED, log entry 21) -/
def raiseAll (s : State) (rs : List Raise) : State :=
  (rs.foldl (fun acc r => raiseInsert r acc) []).foldl raiseOne s

/-- One code raised by a block. (DEDUCED, log entry 21) -/
def raise (s : State) (block code a0 a1 a2 : Nat) : State := s.raiseOne ⟨block, code, a0, a1, a2⟩

/-- A plain counter rises by `n`, saturating at 32 bits. -/
def count (s : State) (addr n : Nat) : State := { s with counts := Sparse.update 0 s.counts addr (fun x => satAdd 32 x n) }

/-- A message leaves the device. (DESIGN CHOICE, log entry 13) -/
def emit (s : State) (o : Out) : State := { s with out := s.out ++ [o] }

/-- An MSI-X vector: a request of the endpoint's own, so only while the IDE stream is Secure (R655, R658). (DESIGN CHOICE, log entry 13; DEDUCED, log entry 103) -/
def msi (s : State) (vector : Nat) : State := if s.host.ideSecure then s.emit (.msi vector) else s

end State
end Sys2Proof.Machine
end

