-- ==== Sys2Proof/Machine/Ops.lean ====
section
/-!
DEFINITION. The named operations over the whole device: its cores and regions, free values, partitions and sessions.
-/
namespace Sys2Proof.Machine

/-- Whether a writer is other than Crown and partition-0 firmware, which write the registers of cores, regions and memory (R92, R337, R597). -/
def outside : Writer → Bool
  | .crown => false
  | .firmware => false
  | _ => true

def pageSize : Nat := 16384

namespace State

/-- This chip's number (R464). -/
def chip (s : State) : Nat := s.regField (ctl 0x000E 0) 12 0

def core (s : State) (n : Nat) : Core := Sparse.get Core.reset s.cores n
def setCore (s : State) (n : Nat) (c : Core) : State := { s with cores := Sparse.set Core.reset s.cores n c }
def region (s : State) (r : Nat) : Region := Sparse.get Region.reset s.regions r
def setRegion (s : State) (r : Nat) (g : Region) : State := { s with regions := Sparse.set Region.reset s.regions r g }
def onRegion (s : State) (r : Nat) (f : Region → Region) : State := s.setRegion r (f (s.region r))

/-- A core takes the result of one of its operations; its codes are logged (R693, R822). -/
def putCore (s : State) (n : Nat) (r : CoreRes) : State :=
  (s.setCore n r.core).raiseAll (r.log.map (fun e => ⟨regionBlock (n / 32), e.1, n, e.2.1, e.2.2⟩))

/-- One operation of one core; after a halt no core does anything (R407). -/
def onCore (s : State) (n : BitVec 9) (f : Core → CoreRes) : State :=
  if s.halt.isSome then s else s.putCore n.toNat (f (s.core n.toNat))

/-- The word of an opcode and the 56 bits below it (R100). -/
def opWord (op : Nat) (f : BitVec 56) : BitVec 64 := BitVec.ofNat 8 op ++ f

/-- One instruction of one core, given by its word; one that waits holds every other (R72, R256). -/
def onInstr (s : State) (n : BitVec 9) (word : BitVec 64) (g : Core → CoreRes) : State := s.onCore n (fun c => c.holding word g)

/-- A core's own update, with nothing to log. -/
def mapCore (s : State) (n : Nat) (f : Core → Core) : State := s.setCore n (f (s.core n))

def part (s : State) (p : Nat) : Partition := Sparse.get Partition.free s.keys.parts p
def setPart (s : State) (p : Nat) (x : Partition) : State :=
  { s with keys := { s.keys with parts := Sparse.set Partition.free s.keys.parts p x } }
def session (s : State) (i : Nat) : Session := Sparse.get Session.none s.keys.sessions i
def setSession (s : State) (i : Nat) (x : Session) : State :=
  { s with keys := { s.keys with sessions := Sparse.set Session.none s.keys.sessions i x } }

/-- The seed that a partition's stream keys come from: its session's, or outside a session the public test seed (R193). -/
def seedOf (s : State) (p : Nat) : Bytes :=
  let x := s.part p
  if p = 0 ∨ x.state = .free then testSeed else ((s.session x.session).seed).getD testSeed

def ckptSess (s : State) (i : Nat) : CkptSess := Sparse.get CkptSess.off s.ckpt.sess i
def setCkpt (s : State) (i : Nat) (x : CkptSess) : State := { s with ckpt := { s.ckpt with sess := Sparse.set CkptSess.off s.ckpt.sess i x } }

/-- Whether a chip has been declared absent (R489). -/
def chipAbsent (s : State) (c : Nat) : Bool :=
  if c / 8 = s.chip / 8 then s.net.absent.toNat.testBit (c % 8) else s.net.farAbsent.contains c

/-- The members of a session's lead ring table in position order (R535, R608); this chip alone where the session names no table. -/
def ckptMembers (s : State) (i : Nat) : List Nat :=
  match (s.session i).charter, (s.ckptSess i).cfg with
  | some c, some g => match c.rings.find? (fun t => t.job = g.job && t.part = g.lead) with
    | some t => t.chips
    | none => [s.chip]
  | _, _ => [s.chip]

/-- The coordinator: member (0, 0), or while it is absent the live member of the lowest position (R608, R631). -/
def coordinator (s : State) (i : Nat) : Option Nat := (s.ckptMembers i).find? (fun c => !s.chipAbsent c)

/-- Whether any session slot is in use (R462). -/
def sessionsHeld (s : State) : Bool := s.keys.sessions.any (fun x => x.2.state != .none)

/-- A partition's declaration in its session's Charter. -/
def partDecl (s : State) (p : Nat) : Option PartDecl :=
  match (s.session (s.part p).session).charter with
  | some c => c.parts.find? (fun d => d.number = p)
  | none => none

/-- A refused write: its code is raised by the owning block and reported to the writer (R14, R15, R661). A host write without a Secure stream is an
unsupported request whatever it names (R658). (DEDUCED, log entry 22) -/
def refuse (s : State) (who : Writer) (addr code : Nat) : State :=
  let args := if code / 256 = 0x02 then (addr, code, 0) else match who with
    | .mgmt conn id => if code / 256 = 0x03 then (conn, 0x11, id) else (0, 0, 0)
    | _ => (0, 0, 0)
  if who == .host && !s.host.ideSecure then (s.count (ctl 0x48 0x10) 1).raise 2 0x0204 addr 0 0
  else
  let s := s.raise (blockOf addr) code args.1 args.2.1 args.2.2
  match who with
  | .host => ((({ s with werr := some (s.werr.getD (addr, code)) }).count (ctl 2 0xC) 1).emit (.refused who addr code)).msi 0
  | _ => s.emit (.refused who addr code)

/-- An EVENT goes to every connection (R692). (DEDUCED, log entry 132) -/
def pushEvent (s : State) (kind : Nat) (body : List Nat) : State :=
  let n := s.mgmt.eventSeq
  let s := s.mgmt.conns.foldl (fun s c => s.emit (.event c.id n s.clock.now kind body)) s
  { s with mgmt := { s.mgmt with eventSeq := n + 1 } }

/-- An event to the owners' SPDM sessions (R449, R626, R744). -/
def ownerEvent (s : State) (kind : Nat) (body : List Nat) : State :=
  (s.keys.secure.filter (fun x => x.finished)).foldl (fun s x => s.emit (.spdm x.transport (256 + kind) false body)) s

/-! The halt. -/

/-- An integrity halt begins: the first code and its block are kept, and nothing more is recorded (R407, R408, R410). (DEDUCED, log entry 12) -/
def beginHalt (s : State) (block code a0 a1 a2 : Nat) : State :=
  match s.halt with
  | none => { s.raise block code a0 a1 a2 with halt := some (code, block) }
  | some _ => s

/-! Key slots. -/

/-- A Cuff's key slot takes the keys at a place of the key generator's output (R374, R377), or is zeroised where that is 0. -/
def putSlot (s : State) (cuff slot key : Nat) : State :=
  let bit := 1#64 <<< slot
  { s with keySlots := Sparse.update 0 s.keySlots cuff (fun w => if key = 0 then w &&& ~~~bit else w ||| bit),
           keys := { s.keys with slotKeys := Sparse.set 0 s.keys.slotKeys (64 * cuff + slot) key, flipped := s.keys.flipped.filter (· ≠ 64 * cuff + slot) } }

/-- The keys that a Cuff's slot holds (R374): where they begin in the key generator's output, plus one; 0 where it is empty. -/
def heldKeys (s : State) (cuff slot : Nat) : Nat := Sparse.get 0 s.keys.slotKeys (64 * cuff + slot)

/-- Which keys SMD makes for a Cuff (R376): one kind for all memory Cuffs, one for each die-to-die edge, one for each other Cuff. -/
def cuffKind (cuff : Nat) : Nat := if cuff < 16 then 0 else if cuff < 22 then 1 + (cuff - 16) / 2 else cuff

/-- Bytes of one draw of the key generator: K1, K2 and Ka of a memory Cuff's slot, a key and its salt otherwise (R374, R402). -/
def keyBytes : Nat := 96

/-- SMD draws keys for a kind of Cuff and a slot and keeps them in its store (R376). -/
def drawKeys (s : State) (kind slot : Nat) : State :=
  { s with keys := { s.keys with store := Sparse.set 0 s.keys.store (64 * kind + slot) (s.free + 1), storeFlipped := s.keys.storeFlipped.filter (· ≠ 64 * kind + slot) },
           free := s.free + keyBytes }

/-- SMD's store drops its keys for a kind of Cuff and a slot. -/
def dropKeys (s : State) (kind slot : Nat) : State := { s with keys := { s.keys with store := Sparse.set 0 s.keys.store (64 * kind + slot) 0 } }

/-- The keys that SMD's store holds for a Cuff's slot. -/
def storedKeys (s : State) (cuff slot : Nat) : Nat := Sparse.get 0 s.keys.store (64 * cuffKind cuff + slot)

/-- Block of a Cuff, of whatever kind (R815). -/
def slotBlock (cuff : Nat) : Nat := if cuff < 16 then 0x50 + cuff else if cuff < 22 then 0x60 + (cuff - 16) else if cuff < 58 then 0x20 + (cuff - 22) else 2

/-- Bits of a word of a Cuff's slot, or of a key in SMD's store, change (R751): its parity fails from now on. (DESIGN CHOICE, log entry 139) -/
def flipSlot (s : State) (cuff slot : Nat) : State :=
  if s.heldKeys cuff slot = 0 then s else { s with keys := { s.keys with flipped := s.keys.flipped ++ [64 * cuff + slot] } }

def flipStore (s : State) (place : Nat) : State :=
  if Sparse.get 0 s.keys.store place = 0 then s else { s with keys := { s.keys with storeFlipped := s.keys.storeFlipped ++ [place] } }

/-- An operation takes a slot, whose words are checked (R751); whether they stand. `a0` and `a1` name the line or the flit (R822). -/
def takeSlot (s : State) (cuff slot a0 a1 : Nat) : State × Bool :=
  if s.keys.flipped.contains (64 * cuff + slot) then (s.beginHalt (slotBlock cuff) 0x210C a0 a1 0, false) else (s, true)

/-- A Cuff's slot is loaded with the keys of SMD's store, whose words are checked (R751), or zeroised (R376, R377). -/
def setSlot (s : State) (cuff slot : Nat) (on : Bool) : State :=
  if on then
    let s := if s.storedKeys cuff slot = 0 then s.drawKeys (cuffKind cuff) slot else s
    if s.keys.storeFlipped.contains (64 * cuffKind cuff + slot) then s.beginHalt 0x000C 0x210C 0 0 0
    else s.putSlot cuff slot (s.storedKeys cuff slot)
  else s.putSlot cuff slot 0

/-- A slot in all memory and die-to-die Cuffs (R376, R427): loading it draws new keys, one set for the memory Cuffs and one for each edge; zeroising it
clears SMD's store of them. -/
def setChipSlots (s : State) (slot : Nat) (on : Bool) : State :=
  let s := (List.range 4).foldl (fun s k => if on then s.drawKeys k slot else s.dropKeys k slot) s
  let s := (List.range 22).foldl (fun s c => s.setSlot c slot on) s
  { s with d2d := (List.range 6).foldl (fun m n => Sparse.update D2d.reset m n (fun e => { e with txClosed := e.txClosed &&& ~~~(1#64 <<< slot) })) s.d2d }

/-- A slot in every Cuff zeroised, and SMD's store of its keys cleared. -/
def zeroAllSlots (s : State) (slot : Nat) : State :=
  let s := { s with keys := { s.keys with store := s.keys.store.filter (fun e => e.1 % 64 ≠ slot) } }
  (List.range 59).foldl (fun s c => s.putSlot c slot 0) s

/-- Bytes of a draw of the key generator that begins at place `k` − 1 (R376). (DESIGN CHOICE, log entry 8) -/
def keyPart (k off n : Nat) : Bytes := (List.range n).map (fun i => Config.entropy (k - 1 + off + i))

/-- `n` bytes of SMD's entropy source (R776). (DESIGN CHOICE, log entry 8) -/
def entropyBytes (s : State) (n : Nat) : Bytes × State :=
  ((List.range n).map (fun i => Config.entropy (s.free + i)), { s with free := s.free + n })

/-- `n` free bytes. (DESIGN CHOICE, log entry 7) -/
def drawBytes (s : State) (n : Nat) : Bytes × State :=
  ((List.range n).map (fun i => Config.freeByte (s.free + i)), { s with free := s.free + n })

/-- `n` free words. (DESIGN CHOICE, log entry 7) -/
def drawWords (s : State) (n : Nat) : List (BitVec 32) × State :=
  ((List.range n).map (fun i => Config.freeWord (s.free + i)), { s with free := s.free + n })

end State

/-- A next state. (DESIGN CHOICE, log entry 1; DEDUCED, log entry 127) -/
def ok (s : State) : Host.Outcome State Fault Refusal := .next s

/-- The effect of an engine that an integrity halt stops (R407). (DESIGN CHOICE, log entries 1 and 123; DEDUCED, log entry 12) -/
def live (s : State) (f : State → State) : Host.Outcome State Fault Refusal := if s.halt.isSome then .next s else .next (f s)

end Sys2Proof.Machine
end

