-- ==== Sys2Proof/Machine/Seal.lean ====
section
/-!
DEFINITION. Keys that SMD derives and wraps (R436, R456): HMAC and HKDF with SHA-384 (RFC 2104, RFC 5869) and AES key wrap (RFC 3394). The manual names the
standards and gives no algorithm. (PRESUMED, log entry 5)
-/
namespace Sys2Proof.Machine

/-- HMAC-SHA-384. -/
def hmac384 (key m : Bytes) : Bytes :=
  let k := if 128 < key.length then sha384 key else key
  let k := k ++ List.replicate (128 - k.length) 0
  sha384 (k.map (· ^^^ 0x5C#8) ++ sha384 (k.map (· ^^^ 0x36#8) ++ m))

/-- HKDF-SHA-384 of at most 96 bytes. -/
def hkdf384 (salt ikm info : Bytes) (n : Nat) : Bytes :=
  let prk := hmac384 salt ikm
  let t := hmac384 prk (info ++ [1])
  (if n ≤ 48 then t else t ++ hmac384 prk (t ++ info ++ [2])).take n

/-- One step of the key wrap of four blocks, of the integrity register and the blocks in turn. -/
def wrapStep (ks : List Bytes) (w : Bytes × List Bytes) (t : Nat) : Bytes × List Bytes :=
  let b := aesWith ks (w.1 ++ w.2.headD [])
  (xorBytes (b.take 8) (beBytes 8 (t + 1)), w.2.drop 1 ++ [b.drop 8])

/-- A 32-byte key wrapped under another: 40 bytes. -/
def keyWrap (kek key : Bytes) : Bytes :=
  let w := (List.range 24).foldl (wrapStep (aesKeys kek)) (List.replicate 8 0xA6, (List.range 4).map (fun i => (key.drop (8 * i)).take 8))
  w.1 ++ w.2.flatten

/-- ASCII bytes of a label. -/
def label (s : List Nat) : Bytes := s.map (BitVec.ofNat 8)

/-- "izari seal" and "izari escrow". -/
def sealLabel : Bytes := label [0x69, 0x7A, 0x61, 0x72, 0x69, 0x20, 0x73, 0x65, 0x61, 0x6C]
def escrowLabel : Bytes := label [0x69, 0x7A, 0x61, 0x72, 0x69, 0x20, 0x65, 0x73, 0x63, 0x72, 0x6F, 0x77]

/-- The key and salt of an owner's pair for a direction (R436). (DEDUCED, log entry 149) -/
def pairKey (sessionId z : Bytes) (owner dir : Nat) : Bytes := hkdf384 sessionId z (sealLabel ++ leBytes 1 owner ++ leBytes 1 dir) 36

/-- A share of a checkpoint key wrapped for an escrow key, behind the ephemeral public key (R456, R615). (DEDUCED, log entry 149) -/
def wrapShare (sessionId priv escrowKey share : Bytes) (i : Nat) : Bytes :=
  Config.ecPublic priv ++ keyWrap (hkdf384 sessionId (Config.ecShared priv escrowKey) (escrowLabel ++ leBytes 1 i) 32) share

end Sys2Proof.Machine
end

