-- ==== Sys2Proof/Machine/Links.lean ====
section
/-!
DEFINITION. Choice of a link and queues of frames (R465, R466, R477, R525), their keys and their bytes on the wire (R477, R481, R483).
-/
namespace Sys2Proof.Machine

/-- Reply layout of OPW (R525). -/
def replyOpw (core slot status code : Nat) : BitVec 64 :=
  BitVec.ofNat 64 (core + slot * 2 ^ 9 + status * 2 ^ 15 + code * 2 ^ 18)

/-- OPW of PUT_LINES and GET_REQ (R525). -/
def linesOpw (line core slot lines : Nat) (relax : Bool) : BitVec 64 :=
  BitVec.ofNat 64 (line + core * 2 ^ 39 + slot * 2 ^ 48 + (lines - 1) * 2 ^ 54 + b2n relax * 2 ^ 60)

/-- OPW of PUT_BYTES, SIGNAL and ATOMIC_REQ (R525). -/
def offOpw (off core slot : Nat) (relax : Bool) (kind : Nat) : BitVec 64 :=
  BitVec.ofNat 64 (off + core * 2 ^ 45 + slot * 2 ^ 54 + b2n relax * 2 ^ 60 + kind * 2 ^ 61)

/-- A payload padded to whole units of 256 B (R477). -/
def padPayload (bs : Bytes) : Bytes := bs ++ List.replicate ((256 - bs.length % 256) % 256) 0

/-- LEN of a frame (R477). -/
def Frame.len (f : Frame) : Nat := ceilDiv f.payload.length 256

/-- Links of the path to another chip, in the order in which a channel of hash `h` takes them (R465, R466). -/
def pathLinks (chip dst h : Nat) : List Nat :=
  if dst / 8 = chip / 8 then
    let base := 4 * ((dst % 8 + 16 - chip % 8 - 1) % 8)
    (List.range 4).map (fun i => base + (h % 4 + i) % 4)
  else (List.range 8).map (fun i => 28 + ((h + dst) % 8 + i) % 8)

/-- Frames that carry no key on a link (R477). -/
def unkeyed (j type : Nat) : Bool := decide (type = 2 ∨ type = 0x0B) || (decide (28 ≤ j) && decide (type = 1 ∨ type = 9 ∨ type = 0x0A))

/-! Keys of a path and the seal of a frame (R481, R483). -/

/-- "izari link" and "izari link zero\0". -/
def linkLabel : Bytes := label [0x69, 0x7A, 0x61, 0x72, 0x69, 0x20, 0x6C, 0x69, 0x6E, 0x6B]
def linkSaltZero : Bytes := linkLabel ++ label [0x20, 0x7A, 0x65, 0x72, 0x6F, 0]

/-- The 72 bytes of a path's keys (R481), from the shared secret. -/
def pathKeyBytes (salt z : Bytes) (fid gen chip peer : Nat) : Bytes :=
  hkdf384 salt z (linkLabel ++ leBytes 4 fid ++ leBytes 2 gen ++ leBytes 2 (min chip peer) ++ leBytes 2 (max chip peer)) 72

/-- Key and salt of a direction (R481): `up` from the lower chip to the higher. -/
def dirKey (keys : Bytes) (up : Bool) : Bytes × Bytes :=
  if up then (keys.take 32, (keys.drop 64).take 4) else ((keys.drop 32).take 32, (keys.drop 68).take 4)

/-- The keys of a path that a parity of the generation selects. -/
def Path.keysOf (p : Path) (kgen : Bool) : Bytes := if decide (p.gen % 2 = 1) = kgen then p.keys else p.oldKeys

/-- The header of a frame (R477). -/
def frameHeader (type part cls len fid src dst time ctr opw : Nat) (kgen : Bool) : Bytes :=
  leBytes 1 type ++ leBytes 1 (b2n kgen + 2 * cls) ++ leBytes 1 part ++ leBytes 1 len ++ leBytes 4 fid ++ leBytes 2 src ++ leBytes 2 dst ++
    leBytes 4 time ++ leBytes 8 ctr ++ leBytes 8 opw

/-- The IV of a frame (R483). -/
def frameIv (salt : Bytes) (link ctr : Nat) : Bytes := BitVec.ofNat 8 ((salt.headD 0).toNat / 64 * 64 + link) :: salt.drop 1 ++ leBytes 8 ctr

/-- A frame's bytes on the wire under a key and salt, or in the clear with a zero tag (R477, R483). -/
def frameBytes (key : Option (Bytes × Bytes)) (link ctr : Nat) (header payload : Bytes) : Bytes :=
  match key with
  | none => header ++ payload ++ List.replicate 16 0
  | some k =>
    let ct := gcmText k.1 (frameIv k.2 link ctr) payload
    header ++ ct ++ gcmTag k.1 (frameIv k.2 link ctr) header ct

namespace State

def path (s : State) (peer part : Nat) : Option Path := s.net.paths.find? (fun p => p.peer = peer && p.part = part)

/-- The fabric id of a partition (R477). -/
def fidOf (s : State) (part : Nat) : Nat := (s.partDecl part).elim 0 (fun d => d.fid.toNat)

/-- A frame as it leaves on a link: its bytes on the wire. -/
def sealed (s : State) (j : Nat) (f : Frame) : Frame :=
  let h := frameHeader f.type f.part f.cls f.len (s.fidOf f.part) s.chip f.dst f.time f.ctr f.opw.toNat f.kgen
  let key := if unkeyed j f.type then none else (s.path f.dst f.part).map (fun p => dirKey (p.keysOf f.kgen) (decide (s.chip < f.dst)))
  { f with wire := frameBytes key j f.ctr h f.payload }

def link (s : State) (j : Nat) : Link := Sparse.get Link.reset s.net.links j
def setLink (s : State) (j : Nat) (l : Link) : State :=
  { s with net := { s.net with links := Sparse.set Link.reset s.net.links j l } }
def onLink (s : State) (j : Nat) (f : Link → Link) : State := s.setLink j (f (s.link j))
def onNet (s : State) (f : Net → Net) : State := { s with net := f s.net }

/-- A channel may queue on a link that is up, or waits out a fast retrain (R466, R474). -/
def linkUsable (s : State) (j : Nat) : Bool := (s.link j).run == .up || (s.link j).run == .fastRetrain

/-- The link of a channel (R466). -/
def chooseLink (s : State) (dst h : Nat) : Option Nat :=
  (pathLinks s.chip dst h).find? (fun j => decide (j < 36) && !s.chipAbsent dst && s.linkUsable j &&
    !(decide (dst / 8 ≠ s.chip / 8) && s.net.far.contains (dst, j - 28)))

/-- Key-generation parity that a partition's frames to a chip are sent under (R477, R487). (DESIGN CHOICE, log entry 79) -/
def pathGen (s : State) (dst part : Nat) : Bool :=
  match s.net.paths.find? (fun p => p.peer = dst && p.part = part) with
  | some p => decide (p.gen % 2 = 1)
  | none => false

/-- A frame joins a link's queue. -/
def queueOn (s : State) (j type part cls dst : Nat) (opw : BitVec 64) (payload : Bytes) : State :=
  s.onLink j (fun l => { l with queue := l.queue ++ [⟨type, part, false, cls, dst, opw, padPayload payload, false, 0, 0, 0, []⟩] })

/-- A frame to a chip on its channel's link, where some link of the path is up. (DEDUCED, log entry 133) -/
def sendTo (s : State) (dst h type part cls : Nat) (opw : BitVec 64) (payload : Bytes) : Option State :=
  (s.chooseLink dst h).map (fun j => s.queueOn j type part cls dst opw payload)

/-- A frame that no operation waits for (R536, R590): with no link of the path up it waits on the path's first; to an absent chip none is sent. (DESIGN CHOICE, log entry 92) -/
def queueTo (s : State) (dst h type part cls : Nat) (opw : BitVec 64) (payload : Bytes) : State :=
  if s.chipAbsent dst then s
  else s.queueOn ((s.chooseLink dst h).getD ((pathLinks s.chip dst h).headD 28)) type part cls dst opw payload

/-- A reply on the link on which its request arrived (R525). (DEDUCED, log entry 84) -/
def replyOn (s : State) (j type part cls dst : Nat) (opw : BitVec 64) (payload : Bytes) : State :=
  s.queueOn j type part cls dst opw payload

end State
end Sys2Proof.Machine
end

