-- ==== Sys2Proof/Machine/Memory.lean ====
section
/-!
DEFINITION. Operations over bonded memory and the Page Record Table: buckets, chains and lookups (R317 to R322), residency
(R326, R327), translation caches and region buffers (R323, R331, R332), heat (R316), trackers and the merge buffer (R386, R394).
-/
namespace Sys2Proof.Machine

/-- Region that owns a physical page (R303). -/
def pageRegion (p : Nat) : Nat := p / 131072

/-- Die half of a physical page (R303, R312). -/
def pageHalf (p : Nat) : Nat := p / 2 ^ 20

/-- Bucket of a virtual page (R318). (DESIGN CHOICE, log entry 48) -/
def bucket (part vpage : Nat) (salt : BitVec 64) : Nat :=
  (((part * 2 ^ 31 + vpage) * 0x6C8E9CF570932BD5 + salt.toNat) % 2 ^ 64) / 2 ^ 44

namespace Memory

def record (m : Memory) (p : Nat) : PrtRec := Sparse.get PrtRec.free m.prt p
def setRecord (m : Memory) (p : Nat) (r : PrtRec) : Memory := { m with prt := Sparse.set PrtRec.free m.prt p r }
def onRecord (m : Memory) (p : Nat) (f : PrtRec → PrtRec) : Memory := m.setRecord p (f (m.record p))

/-- Bytes of a page as they were written. (DESIGN CHOICE, log entry 4) -/
def read (m : Memory) (p off n : Nat) : Bytes := Sparse.getRun 0 m.dram (p * pageSize + off) n
/-- DESIGN CHOICE, log entry 4. -/
def write (m : Memory) (p off : Nat) (bs : Bytes) : Memory := { m with dram := Sparse.setRun 0 m.dram (p * pageSize + off) bs }

/-! A line in DRAM (R305, R307, R379, R380). -/

/-- Physical line address (R379). -/
def lineAddr (p i : Nat) : Nat := p * 256 + i

/-- The channel of its region that a line lies on (R305). -/
def channel (p i : Nat) : Nat := (i + p % 131072) % 16

def sealOf (m : Memory) (p i : Nat) : Seal := Sparse.get Seal.blank m.seals (lineAddr p i)
def flipsOf (m : Memory) (p i : Nat) : Sparse Byte := Sparse.get [] m.flips (lineAddr p i)

/-- The tweak of a line (R379). -/
def tweak (p i : Nat) (x : Seal) : Bytes :=
  leBytes 16 (lineAddr p i % 2 ^ 29 + x.epoch % 2 ^ 24 * 2 ^ 32 + b2n x.kgen * 2 ^ 56 + x.part % 32 * 2 ^ 57)

/-- Ciphertext of a line (R379): K1 and K2 are the first two keys of the slot. -/
def lineCipher (p i : Nat) (x : Seal) (text : Bytes) : Bytes :=
  xtsEncrypt (State.keyPart x.key 0 32) (State.keyPart x.key 32 32) (tweak p i x) text

def linePlain (p i : Nat) (x : Seal) (cipher : Bytes) : Bytes :=
  xtsDecrypt (State.keyPart x.key 0 32) (State.keyPart x.key 32 32) (tweak p i x) cipher

/-- The 48-bit tag of a line over its ciphertext and its tweak (R380): Ka is the third key of the slot, H = AES-256 of zeros under it (R374). -/
def lineTag (p i : Nat) (x : Seal) (cipher : Bytes) : Bytes :=
  let ks := aesKeys (State.keyPart x.key 64 32)
  let t := tweak p i x
  (xorBytes (ghash (aesWith ks (List.replicate 16 0)) (blocks16 cipher ++ [t])) (aesWith ks (t.take 15 ++ [0x80#8]))).take 6

/-- The 72 bytes of a line as it was written (R307, R308, R381): ciphertext, tag, c0 and c1. -/
def lineWord (p i : Nat) (x : Seal) (text : Bytes) : Bytes :=
  let c := lineCipher p i x text
  let m := c ++ lineTag p i x c
  m ++ rsCheck m

/-- The 72 bytes that stand in DRAM (R307), errors and all. -/
def dramLine (m : Memory) (p i : Nat) : Bytes :=
  ((List.range 72).zip (lineWord p i (m.sealOf p i) (m.read p (64 * i) 64))).map (fun x => x.2 ^^^ Sparse.get 0 (m.flipsOf p i) x.1)

/-- Lines of a page take the bytes of the page's text under a seal, whole and without error (R381). -/
def sealLines (m : Memory) (p i : Nat) (xs : List Seal) : Memory :=
  { m with seals := Sparse.setRun Seal.blank m.seals (lineAddr p i) xs, flips := m.flips.filter (fun e => e.1 < lineAddr p i ∨ lineAddr p i + xs.length ≤ e.1) }

/-- A symbol of a line changes. -/
def flipSymbol (m : Memory) (p i k : Nat) (x : Byte) : Memory :=
  { m with flips := Sparse.update [] m.flips (lineAddr p i) (fun e => Sparse.update 0 e k (· ^^^ x)) }

/-! A record's word (R312, R319). -/

/-- A pointer of a record in half `d` (R319): Crown writes a null as ones with bit 20 = 1 − d. -/
def ptrWord (d : Nat) : Option Nat → Nat
  | some i => i % 2 ^ 21
  | none => 2 ^ 20 - 1 + (1 - d) * 2 ^ 20

/-- A pointer read in half `d` (R319): null where its bit 20 differs from d. -/
def wordPtr (d w : Nat) : Option Nat := if w / 2 ^ 20 % 2 = d then some w else none

/-- Even parity of fifteen bits. -/
def parity15 (w : Nat) : Nat := ((List.range 15).map (fun i => b2n (w.testBit i))).foldl (· + ·) 0 % 2

/-- PARITY of a record's lower 120 bits (R312). -/
def parityOf (w : Nat) : Nat := ((List.range 8).map (fun k => parity15 (w >>> (15 * k)) * 2 ^ k)).foldl (· + ·) 0

/-- The 128 bits of record `p` (R312). -/
def prtWord (p : Nat) (r : PrtRec) : BitVec 128 :=
  let d := pageHalf p
  let w := b2n r.valid + r.part.toNat * 2 + r.vpage.toNat * 2 ^ 6 + b2n r.kgen * 2 ^ 37 + r.epoch.toNat * 2 ^ 38 + r.state.toNat * 2 ^ 62 +
    b2n r.dirty * 2 ^ 65 + r.heat.toNat * 2 ^ 66 + r.affinity.toNat * 2 ^ 74 + ptrWord d r.chain * 2 ^ 78 + ptrWord d r.head * 2 ^ 99
  BitVec.ofNat 128 (w + parityOf w * 2 ^ 120)

/-- The record that 128 bits hold; `b` is where a page being initialised goes, which is no part of them. -/
def prtOfWord (p : Nat) (w : BitVec 128) (b : BitVec 3) : PrtRec :=
  let f (hi lo : Nat) : Nat := bitsNat w.toNat hi lo
  let d := pageHalf p
  { valid := w.getLsbD 0, part := BitVec.ofNat 5 (f 5 1), vpage := BitVec.ofNat 31 (f 36 6), kgen := w.getLsbD 37, epoch := BitVec.ofNat 24 (f 61 38),
    state := BitVec.ofNat 3 (f 64 62), dirty := w.getLsbD 65, heat := BitVec.ofNat 8 (f 73 66), affinity := BitVec.ofNat 4 (f 77 74),
    chain := wordPtr d (f 98 78), head := wordPtr d (f 119 99), becomes := b }

/-- Parity groups that 128 bits fail (R336), a record that holds STATE 7 failing group 4 (R314). -/
def failing (w : BitVec 128) : Nat :=
  let g := parityOf (w.toNat % 2 ^ 120) ^^^ (w.toNat / 2 ^ 120)
  if bitsNat w.toNat 64 62 = 7 then g ||| 16 else g

/-- Index of the record that anchors a bucket in a half (R319). -/
def anchor (d h : Nat) : Nat := d * 2 ^ 20 + h

def matches_ (r : PrtRec) (part vpage : Nat) : Bool := r.valid && decide (r.part.toNat = part ∧ r.vpage.toNat = vpage)

/-- A walk of at most `n` records from a pointer (R320): the match, and the records visited. (DEDUCED, log entry 50) -/
def walk (m : Memory) (part vpage : Nat) : Nat → Option Nat → Nat → Option Nat × Nat
  | 0, _, k => (none, k)
  | _, none, k => (none, k)
  | n + 1, some i, k =>
    let r := m.record i
    if matches_ r part vpage then (some i, k + 1) else walk m part vpage n r.chain (k + 1)

/-- Both halves of a lookup (R320), with the lengths walked. (DEDUCED, log entry 50) -/
def lookup (m : Memory) (part vpage : Nat) : Option Nat × Nat × Nat :=
  let h := bucket part vpage m.salt
  let a := m.walk part vpage 32 (m.record (anchor 0 h)).head 0
  let b := m.walk part vpage 32 (m.record (anchor 1 h)).head 0
  (match a.1 with | some i => some i | none => b.1, a.2, b.2)

/-- The records of a chain, at most `n`. -/
def chainList (m : Memory) : Nat → Option Nat → List Nat
  | 0, _ => []
  | _, none => []
  | n + 1, some i => i :: chainList m n (m.record i).chain

/-- A record enters its chain at the head (R321, R322); refused where the chain would hold more than 32. The record's own
HEAD, EPOCH and KGEN stay (R312, R384). (DEDUCED, log entry 50) -/
def link (m : Memory) (p : Nat) (f : PrtRec → PrtRec) : Option Memory :=
  let r := f (m.record p)
  let a := anchor (pageHalf p) (bucket r.part.toNat r.vpage.toNat m.salt)
  let old := (m.record a).head
  if 32 ≤ (m.chainList 33 old).length then none
  else some ((m.setRecord p { r with valid := true, chain := old }).onRecord a (fun x => { x with head := some p }))

/-- A record leaves its chain: its predecessor skips it (R322). -/
def unlink (m : Memory) (p : Nat) : Memory :=
  let r := m.record p
  let a := anchor (pageHalf p) (bucket r.part.toNat r.vpage.toNat m.salt)
  let xs := m.chainList 33 (m.record a).head
  let m := if (m.record a).head = some p then m.onRecord a (fun x => { x with head := r.chain }) else m
  xs.foldl (fun m i => if i ≠ p ∧ (m.record i).chain = some p then m.onRecord i (fun x => { x with chain := r.chain }) else m) m

/-- Pages in use by a partition, in ascending order. -/
def pagesOf (m : Memory) (q : Nat → Bool) : List Nat := (m.prt.filter (fun e => e.2.valid && q e.2.part.toNat)).map Prod.fst

/-- Records with VALID 1 in a half (R337). -/
def usedIn (m : Memory) (d : Nat) : Nat := (m.prt.filter (fun e => e.2.valid && decide (pageHalf e.1 = d))).length

end Memory

/-- Where a memory access comes from: a mover or update engine of a region of this chip, another chip's operation, LD itself, or a checkpoint
controller (R609). -/
inductive Asker where
  | region (r : Nat)
  | peer (chip : Nat)
  | ld
  | ckpt
  deriving DecidableEq, Repr

/-- Whether an access is another chip's. -/
def Asker.far : Asker → Bool
  | .peer _ => true
  | _ => false

/-- How an access to a page is answered. -/
inductive Verdict where
  | served (page : Nat)
  | wait
  | refused (status code : Nat)
  | loan (lender index : Nat)
  deriving DecidableEq, Repr

namespace State

def onMem (s : State) (f : Memory → Memory) : State := { s with mem := f s.mem }
def onCuff (s : State) (r : Nat) (f : MemCuff → MemCuff) : State := s.onRegion r (fun g => { g with cuff := f g.cuff })

/-- Whether a Cuff's slot for a partition and generation parity holds keys (R374). -/
def slotLoaded (s : State) (cuff part : Nat) (kgen : Bool) : Bool :=
  (Sparse.get (0 : BitVec 64) s.keySlots cuff).toNat.testBit (2 * part + b2n kgen)

/-- Block number of a memory Cuff (R815). -/
def mcuffBlock (r : Nat) : Nat := 0x50 + r

/-! Translation caches (R323, R324). -/

def tcTake (g : Region) (e : TcEntry) : Region :=
  let rest := g.tc.filter (fun x => x ≠ e)
  let inSet := rest.filter (fun x => x.set = e.set)
  let rest := if inSet.length < 8 then rest else match inSet.head? with
    | some old => rest.filter (fun x => x ≠ old)
    | none => rest
  { g with tc := rest ++ [e] }

/-- The region whose translation cache serves an access (R324). -/
def tcRegion (s : State) (who : Asker) (part vpage : Nat) : Nat :=
  match who with
  | .region r => r
  | _ => bucket part vpage s.mem.salt / 512 % 16

/-- Invalidate a virtual page in all translation caches (R325). -/
def tcDrop (s : State) (part vpage : Nat) : State :=
  (List.range 16).foldl (fun s r => s.onRegion r (fun g => { g with tc := g.tc.filter (fun e => !(e.part = part && e.vpage = vpage)) })) s

/-- A lookup through the translation cache; a miss walks the table and counts (R320, R323, R337, R338). -/
def translate (s : State) (who : Asker) (part vpage : Nat) : State × Option Nat :=
  let r := s.tcRegion who part vpage
  let g := s.region r
  match g.tc.find? (fun e => e.part = part && e.vpage = vpage) with
  | some e => (s.setRegion r (tcTake g e), some e.page)
  | none =>
    let w := s.mem.lookup part vpage
    let s := (s.onMem (fun m => { m with chainMax0 := max m.chainMax0 w.2.1, chainMax1 := max m.chainMax1 w.2.2 })).count
      (ctl (regionBlock r) 0x818) 1
    match w.1 with
    | none => (s, none)
    | some p =>
      let e : TcEntry := ⟨bucket part vpage s.mem.salt % 512, part, vpage, p, decide ((s.mem.record p).state.toNat = prtGuest)⟩
      (s.onRegion r (fun g => tcTake g e), some p)

/-! Faults of records, and asking for restore. -/

/-- A write of an engine of the device, behind those it has made before (R393): it lands as soon as nothing holds it. -/
def post (s : State) (w : EngWrite) : State := s.onMem (fun m => { m with engine := m.engine ++ [w] })

def crownPart (s : State) (p : Nat) : CrownPart := Sparse.get CrownPart.none s.crown.parts p
def setCrownPart (s : State) (p : Nat) (x : CrownPart) : State :=
  { s with crown := { s.crown with parts := Sparse.set CrownPart.none s.crown.parts p x } }
def onCrown (s : State) (f : Crown → Crown) : State := { s with crown := f s.crown }

/-- A Crown code (R822). -/
def crownRaise (s : State) (code a0 a1 a2 : Nat) : State := s.raise 8 code a0 a1 a2

/-- The 32 bytes of a placement record (R369). (DESIGN CHOICE, log entry 126) -/
def placeBytes (r : PlaceRec) : Bytes :=
  leBytes 1 r.kind ++ leBytes 1 r.part ++ [0, 0] ++ leBytes 4 r.step ++ leBytes 8 r.time ++ leBytes 4 r.a ++ leBytes 4 r.b ++ leBytes 4 r.c ++ leBytes 4 r.d

/-- A placement record is written (R369): chip ring, partition rings, RECCNT. (DESIGN CHOICE, log entry 126) -/
def place (s : State) (kind part step a b c d : Nat) : State :=
  let r : PlaceRec := ⟨kind, part, step, s.clock.now, a, b, c, d⟩
  let rs := s.crown.records ++ [r]
  let s := s.onCrown (fun x => { x with records := newest 4096 rs })
  let s := { s with counts := Sparse.update 0 s.counts (ctl 8 0x24) (fun n => (n + 1) % 2 ^ 32) }
  let toward := if part = 0 then (List.range 31).map (· + 1) else [part]
  (toward.filter (fun p => decide ((s.part p).state = .open_ ∨ (s.part p).state = .rotating))).foldl (fun s p =>
    let k := Sparse.get 0 s.crown.ringCount p
    (s.post ⟨none, p, 0x3FFFFFFF * pageSize + 32 * (k % 512), .bytes (placeBytes r)⟩).onCrown (fun x => { x with ringCount := Sparse.set 0 x.ringCount p (k + 1) })) s

/-- A relaxed ATOMIC_ADD of an engine to a word of a partition on a chip (R502, R525). -/
def engineAdd (s : State) (chip part off x : Nat) : State :=
  if chip = s.chip then s.post ⟨none, part, off, .add64 (BitVec.ofNat 64 x)⟩
  else match s.sendTo chip part 0x15 part 0 (offOpw off 511 61 true 0) (leBytes 8 x) with
    | some s => s.onNet (fun n => { n with eng := n.eng ++ [(chip, 61)] })
    | none => s

/-- A checkpoint code (R822), told to management where R692 asks it. -/
def ckptRaise (s : State) (i code n : Nat) : State :=
  let s := s.raise 0x000A code i 0 n
  if 0x5004 ≤ code ∧ code ≤ 0x5009 then s.pushEvent 6 [i, code] else s

/-- The session holds: its work graphs stay held, and management and the owners are told (R632). -/
def ckptHold (s : State) (i code : Nat) : State :=
  let s := (s.ckptRaise i code 0).ownerEvent 6 [i, code]
  let s := s.setCkpt i { s.ckptSess i with run := .held }
  { s with crown := { s.crown with parts := s.crown.parts.map (fun (e : Nat × CrownPart) =>
      if decide ((s.part e.1).session = i ∧ (s.part e.1).state ≠ .free) && e.2.wg.isSome then (e.1, { e.2 with held := true }) else e) } }

/-- A chip asks for restore (R624): it adds 1 to the coordinator's restore-request word. Without a CONFIG the session holds (R636). -/
def askRestore (s : State) (part : Nat) : State :=
  let x := s.part part
  if part = 0 ∨ x.state = .free then s
  else
    let i := x.session
    match (s.ckptSess i).cfg with
    | none => s.ckptHold i 0x5009
    | some c => match s.coordinator i with
      | some chip => s.engineAdd chip c.lead (c.ctlVp * pageSize + 1024) 1
      | none => s

/-- Crown asks for restore, and says why (R362, R369). -/
def crownAsk (s : State) (part code stream slot : Nat) : State :=
  if part = 0 ∨ (s.part part).state = .free then s
  else
  let s := if code = 0x100C then s else s.setCrownPart part { s.crownPart part with timeout := none }
  (s.place 10 part (s.crownPart part).step code stream slot 0).askRestore part

/-- A restore asked for a unit without a spare (R747): the second one within a window, after a restore, halts the chip. (DEDUCED, log entry 97) -/
def unitAsk (s : State) : State :=
  let w := s.regField (ctl 0x10 0xA00) 31 24 * 60000000000
  if s.crown.unitAsks.any (fun e => e.2 && decide (s.clock.now ≤ e.1 + w)) then s.beginHalt 8 0x0809 0 0 0
  else { s with crown := { s.crown with unitAsks := s.crown.unitAsks ++ [(s.clock.now, false)] } }

/-- A record that fails its parity (R336, R337): a repair begins, which holds every lookup that walks. -/
def recordFails (s : State) (i : Nat) (groups : Nat) : State :=
  if s.mem.repairs.any (fun x => x.1 = i) then s
  else
  let page := decide (groups % 32 ≠ 0)
  let s := s.raise 0x0009 (if page then 0x2003 else 0x2002) i groups (pageRegion i)
  let s := s.onMem (fun m => { m with repairs := m.repairs ++ [(i, groups)], errIndex := i, errGroups := groups })
  let r := s.mem.record i
  if page && r.valid then s.crownAsk r.part.toNat 0x2003 0 0 else s

/-- Bits of record `i` change (R336): the parity groups that then fail begin a repair; where none does, the record is what its bits now say. Whether its
checks pass. (DESIGN CHOICE, log entry 139) -/
def recordFlips (s : State) (i : Nat) (flips : BitVec 128) : State × Bool :=
  let r := s.mem.record i
  let w := Memory.prtWord i r ^^^ flips
  if Memory.failing w = 0 then (s.onMem (fun m => m.setRecord i (Memory.prtOfWord i w r.becomes)), true)
  else (s.recordFails i (Memory.failing w), false)

/-! Checks of a page access (R507 checks 7 to 11). -/

/-- Whether a virtual page belongs to the Lining page set of a registration of any update engine (R273). -/
def isLining (s : State) (part vpage : Nat) : Bool :=
  s.regions.any (fun g => g.2.ue.table.any (fun t => t.part = part && decide (t.lin ≤ vpage ∧ vpage < t.lin + t.count)))

/-- The checkpoint areas (R499, R609). -/
def inCkptArea (vpage : Nat) : Bool := decide (0x38000000 ≤ vpage ∧ vpage ≤ 0x3DFFFFFF)

/-- Whether a guest page may be reached (R330): by its borrower alone. -/
def guestOk (s : State) (who : Asker) (r : PrtRec) : Bool :=
  match who with
  | .peer c => decide (c / 8 = s.chip / 8 ∧ c % 8 = r.affinity.toNat % 8)
  | _ => false

def torn (s : State) (part : Nat) : Bool := (s.part part).state == .ending || (s.part part).state == .erasing

/-- The die that an access comes from: a compute die, or 2 for LD (R21, R324). -/
def askerDie : Asker → Nat
  | .region r => r / 8
  | _ => 2

/-- The first of the two die-to-die Cuffs of the edge between two dies (R21); none within a die. -/
def dieEdge (a b : Nat) : Option Nat := if a = b then none else if a < 2 ∧ b < 2 then some 4 else some (2 * min a b)

/-- The Cuffs on the way of an access to a page (R21, R25). -/
def wayCuffs (who : Asker) (p : Nat) : List Nat :=
  (match dieEdge (askerDie who) (pageHalf p) with
    | some e => [16 + e, 17 + e]
    | none => []) ++ [pageRegion p]

/-- The first Cuff on the way of an access to a page whose slot is empty (R25, R378). -/
def emptyCuff (s : State) (who : Asker) (p part : Nat) (kgen : Bool) : Option Nat :=
  (wayCuffs who p).find? (fun c => !s.slotLoaded c part kgen || (Sparse.get D2d.reset s.d2d (c - 16)).txClosed.toNat.testBit (2 * part + b2n kgen) && decide (16 ≤ c))

/-- An access takes its slots in the Cuffs on its way (R377, R751); whether their words stand. -/
def takeWay (s : State) (who : Asker) (p part : Nat) (kgen : Bool) : State × Bool :=
  (wayCuffs who p).foldl (fun a c => if a.2 then a.1.takeSlot c (2 * part + b2n kgen) (if c < 16 then p else c - 16) 0 else a) (s, true)

/-- Control block of a memory or die-to-die Cuff (R815). -/
def cuffBlock (c : Nat) : Nat := if c < 16 then mcuffBlock c else 0x60 + (c - 16)

/-- Whether a translation stands in the cache that serves an access (R323, R324). -/
def tcHit (s : State) (who : Asker) (part vpage : Nat) : Bool :=
  (s.region (s.tcRegion who part vpage)).tc.any (fun e => e.part = part && e.vpage = vpage)

/-- Whether the residency of a record lets an access go on (R326, R330): how it is answered where it does not. -/
def residency (s : State) (who : Asker) (r : PrtRec) (vpage : Nat) (write : Bool) : Option Verdict :=
  let st := r.state.toNat
  if st = prtPoisoned then some (.refused 6 0x2005)
  else if (st = prtGuest ∨ 2 ^ 30 ≤ vpage) ∧ !s.guestOk who r then some (.refused 6 0x2006)
  else if st = prtScrubbing then some .wait
  else if st = prtMigrating && write then some .wait
  else none

/-- Whether an access may go ahead, and where (R320, R326, R330, R366, R378, R507). A lookup that walks waits for every repair, one that meets a record with
STATE 7 begins one (R314, R328, R336). -/
def access (s : State) (who : Asker) (part vpage : Nat) (write : Bool) : State × Verdict :=
  if !s.mem.repairs.isEmpty && !s.tcHit who part vpage then (s, .wait)
  else
    let t := s.translate who part vpage
    let s := t.1
    match t.2 with
    | none =>
      match s.crown.loans.find? (fun l => l.part = part && l.vpage = vpage) with
      | some l =>
        if s.net.absent.toNat.testBit l.lender then (s, .refused 5 0x3009)
        else if l.recalling && write then (s, .wait)
        else (s.onCrown (fun c => { c with loans := c.loans.map (fun x => if x = l then { x with heat := min 255 (x.heat + 1) } else x) }), .loan l.lender l.index)
      | none => (s, .refused 6 (if 2 ^ 30 ≤ vpage ∧ who.far = false then 0x2006 else 0x2001))
    | some p =>
      let r := s.mem.record p
      if s.mem.repairs.any (fun x => x.1 = p) then (s, .wait)
      else if r.state = 7 then (s.recordFails p 16, .wait)
      else
        match s.residency who r vpage write with
        | some v => (s, v)
        | none =>
          if write && s.isLining part vpage then (s, .refused 6 0x1105)
          else if write && inCkptArea vpage && who != .ckpt then (s, .refused 6 0x500B)
          else
            match s.emptyCuff who p part r.kgen with
            | some c => (s.raise (cuffBlock c) 0x2101 (if c < 16 then p else c - 16) 0 0, .refused 6 0x2101)
            | none =>
              if s.torn part then (s, .refused 4 0x2205)
              else
                let k := s.takeWay who p part r.kgen
                (k.1, if k.2 then .served p else .wait)

/-! Effects of accesses. -/

/-- Line accesses to a page are sampled for HEAT and AFFINITY (R316, R329): of each 2^SAMPLE of a region the last, counted from reset. (DESIGN CHOICE, log entry 148) -/
def heat (s : State) (who : Asker) (p lines : Nat) : State :=
  let r := pageRegion p
  let c := s.reg (ctl 0x0009 0)
  let g := s.region r
  if c.toNat.testBit 0 then
    let k := 2 ^ bitsNat c.toNat 4 1
    let n := (g.memCnt + lines) / k - g.memCnt / k
    let s := s.setRegion r { g with memCnt := (g.memCnt + lines) % 2 ^ 16 }
    if n = 0 then s
    else s.onMem (fun m => m.onRecord p (fun x =>
      { x with heat := BitVec.ofNat 8 (min 255 (x.heat.toNat + n)),
               affinity := match who with
                 | .region q => if x.state.toNat = prtGuest then x.affinity else BitVec.ofNat 4 q
                 | _ => x.affinity }))
  else s

/-- A page is dropped from every region buffer and from the fills in flight (R332). -/
def rbDrop (s : State) (p : Nat) : State :=
  (List.range 16).foldl (fun s r => s.onRegion r (fun g =>
    { g with rb := g.rb.filter (fun f => f.page ≠ p), fills := g.fills.filter (fun f => f.1 ≠ p) })) s

/-- A 64-bit counter in two registers (R338). -/
def count64 (s : State) (addr n : Nat) : State := { s with counts := Sparse.update 0 s.counts addr (fun x => satAdd 64 x n) }

/-- Of some lines of a page, those that region `r`'s buffer does not hold (R331). -/
def rbMiss (s : State) (r p : Nat) (lines : List Nat) : List Nat :=
  match (s.region r).rb.find? (fun f => f.page = p) with
  | some f => lines.filter (fun l => !f.valid.toNat.testBit l)
  | none => lines

/-- Lines read by a mover of region `r` (R331): those its region buffer holds are served there, the others become fills. -/
def rbRead (s : State) (r p : Nat) (lines : List Nat) : State :=
  let g := s.region r
  match g.rb.find? (fun f => f.page = p) with
  | some f =>
    let hit := lines.filter (fun l => f.valid.toNat.testBit l)
    let miss := lines.filter (fun l => !f.valid.toNat.testBit l)
    (s.setRegion r { g with rb := g.rb.filter (fun x => x ≠ f) ++ [f],
                            fills := g.fills ++ (miss.map (fun l => (p, l))).filter (fun x => !g.fills.contains x) }).count64
      (ctl (regionBlock r) 0x808) hit.length
  | none =>
    s.setRegion r { g with fills := g.fills ++ (lines.map (fun l => (p, l))).filter (fun x => !g.fills.contains x) }

/-- A region-buffer frame takes a line (R331): least recently used replacement among 16 ways, disabled ones apart (R749). -/
def rbFill (s : State) (r p l : Nat) : State :=
  let g := s.region r
  if g.fills.contains (p, l) then
    let set := p % 64
    let part := (s.mem.record p).part.toNat
    let g := { g with fills := g.fills.filter (fun x => x ≠ (p, l)) }
    let keep (g : Region) : State := (s.setRegion r g).count64 (ctl (regionBlock r) 0x810) 1
    let put (f : RbFrame) : RbFrame := { f with valid := f.valid ||| (1#256 <<< l) }
    match g.rb.find? (fun f => f.page = p) with
    | some f => keep { g with rb := g.rb.filter (fun x => x ≠ f) ++ [put f] }
    | none =>
      let free := (List.range 16).find? (fun w => !g.rbOff.contains (16 * set + w) && !g.rb.any (fun f => f.set = set && f.way = w))
      match free with
      | some w => keep { g with rb := g.rb ++ [put ⟨set, w, p, part, 0⟩] }
      | none =>
        match g.rb.find? (fun f => f.set = set) with
        | some old => keep { g with rb := g.rb.filter (fun x => x ≠ old) ++ [put ⟨set, old.way, p, part, 0⟩] }
        | none => s.setRegion r g
  else s

/-- Minutes of the error window in nanoseconds (R739, R761). (DEDUCED, log entry 97) -/
def errWindow (s : State) (r : Nat) : Nat := s.regField (ctl (regionBlock r) 0xA00) 31 24 * 60000000000

/-- A symbol corrected in a page (R309, R749): counted, logged, and the page retired at CORR_LIMIT. (DEDUCED, log entry 49) -/
def corrected (s : State) (p line : Nat) : State :=
  let r := pageRegion p
  let blk := regionBlock r
  let s := (s.count (ctl blk 0x804) 1).raise blk 0x2007 p line r
  let g := s.region r
  let n := (assocGet g.corr p).getD 0 + 1
  let table := assocSet g.corr p n
  let s := s.setRegion r { g with corr := newest 64 table }
  if s.regField (ctl blk 0xA00) 23 20 ≤ n && !s.mem.retired.contains p && !s.mem.retireQ.contains p then
    let s := (s.raise blk 0x200A p line r).onRegion r (fun g => { g with errLast := 0x200A })
    if (s.mem.record p).state.toNat = prtFree then s.onMem (fun m => { m with retired := m.retired ++ [p] })
    else s.onMem (fun m => { m with retireQ := m.retireQ ++ [p] })
  else s

/-- A region-buffer parity error (R334, R749): the line is filled again; a second one of a frame within the window
disables the frame. -/
def rbParity (s : State) (r p line : Nat) : State :=
  let blk := regionBlock r
  let s := s.raise blk 0x2008 p line r
  let g := s.region r
  match g.rb.find? (fun f => f.page = p) with
  | none => s
  | some f =>
    let key := 16 * f.set + f.way
    let recent := g.rbErrs.filter (fun e => s.clock.now ≤ e.2 + s.errWindow r)
    if recent.any (fun e => e.1 = key) then
      (s.raise blk 0x200B p line r).setRegion r
        { g with rb := g.rb.filter (fun x => x ≠ f), rbOff := g.rbOff ++ [key], rbErrs := recent, errLast := 0x200B }
    else
      s.setRegion r { g with rb := g.rb.filter (fun x => x ≠ f) ++ [{ f with valid := f.valid &&& ~~~(1#256 <<< line) }],
                             fills := g.fills ++ [(p, line)], rbErrs := recent ++ [(key, s.clock.now)] }

/-! The lines of a page at its Cuff. -/

/-- What a line now carries, or is written under (R381, R384, R386): the record's EPOCH and KGEN, or those of the whole-page write that has written it. -/
def wantSeal (s : State) (p i : Nat) : Seal :=
  let r := s.mem.record p
  let q := pageRegion p
  let old : Seal := ⟨s.heldKeys q (2 * r.part.toNat + b2n r.kgen), r.epoch.toNat, r.kgen, r.part.toNat⟩
  match (s.region q).cuff.trackers.find? (fun t => t.page = p) with
  | some t => if t.written.toNat.testBit i then ⟨s.heldKeys q (2 * r.part.toNat + b2n t.kgen), r.epoch.toNat + 1, t.kgen, r.part.toNat⟩ else old
  | none => old

/-- `n` lines of a page from `i` on are written as they now should be (R381). -/
def sealNow (s : State) (p i n : Nat) : State := s.onMem (fun m => m.sealLines p i ((List.range n).map (fun k => s.wantSeal p (i + k))))

/-- What a read of a line finds (R308, R382): the line as written; that after a correction; another text whose tag matches; no codeword near; a tag that does
not match. The Boolean says whether a symbol has been corrected. -/
inductive LineFate where
  | sound (fixed : Bool)
  | other (text : Bytes) (fixed : Bool)
  | uncorrectable
  | forged (fixed : Bool)
  deriving DecidableEq, Repr

/-- The checks of a read in their order (R382). A line that nothing has written passes them. (DESIGN CHOICE, log entry 4) -/
def lineFate (s : State) (p i : Nat) : LineFate :=
  let e := s.mem.flipsOf p i
  match rsCorrect e with
  | none => .uncorrectable
  | some left =>
    let want := s.wantSeal p i
    let x := s.mem.sealOf p i
    if left = [] ∧ (x = want ∨ x = Seal.blank) then .sound (e != [])
    else
      let word := ((List.range 72).zip (Memory.lineWord p i x (s.mem.read p (64 * i) 64))).map (fun b => b.2 ^^^ Sparse.get 0 left b.1)
      let c := word.take 64
      if (word.drop 64).take 6 = Memory.lineTag p i want c then .other (Memory.linePlain p i want c) (e != left) else .forged (e != left)

/-- A corrected symbol is counted, and the line is written back (R309). -/
def lineFixed (s : State) (p i : Nat) (fixed : Bool) : State := if fixed then s.corrected p i else s

/-- A line is read (R309, R382, R383); whether it is released. -/
def checkLine (s : State) (p i : Nat) : State × Bool :=
  match s.lineFate p i with
  | .sound false => (s, true)
  | .sound true => ((s.corrected p i).onMem (fun m => { m with flips := Sparse.set [] m.flips (Memory.lineAddr p i) [] }), true)
  | .other text fixed => (((s.lineFixed p i fixed).onMem (fun m => m.write p (64 * i) text)).sealNow p i 1, true)
  | .uncorrectable => (s.beginHalt (mcuffBlock (pageRegion p)) 0x2102 p i 0, false)
  | .forged fixed => ((s.lineFixed p i fixed).beginHalt (mcuffBlock (pageRegion p)) 0x2103 p i 0, false)

/-- Whether the merge buffer holds a line that it has checked (R395). -/
def mergeHolds (s : State) (p i : Nat) : Bool := (s.region (pageRegion p)).cuff.merge.any (fun e => e.page = p && e.line = i && !e.pinned)

/-- The line that a merge entry holds (R394): the buffer is write-through, so that it is memory's own. -/
def mergeText (s : State) (e : MergeEntry) : Bytes := s.mem.read e.page (64 * e.line) 64


/-- A page's slot is taken for the lines of an access from `line0` on (R374, R751); whether it stands. -/
def takePage (s : State) (p line0 : Nat) : State × Bool :=
  let r := s.mem.record p
  s.takeSlot (pageRegion p) (2 * r.part.toNat + b2n r.kgen) p line0

/-- Faults of the hardware befall an access to page `p` from line `line0` on (R334, R336, R751); whether it goes ahead. -/
def faults (s : State) (who : Asker) (p line0 : Nat) (evs : List MemEvent) : State × Bool :=
  evs.foldl (fun acc e =>
    if acc.2 then
      let s := acc.1
      match e with
      | .line q i k x => (s.onMem (fun m => m.flipSymbol q.toNat i.toNat k x), true)
      | .slotBit c k => (s.flipSlot c k.toNat, true)
      | .storeBit k => (s.flipStore k, true)
      | .rbParity i => (match who with | .region q => s.rbParity q p (line0 + i) | _ => s, true)
      | .record i flips => s.recordFlips i.toNat flips
      | .sqb _ => acc
    else acc) (s, true)

/-- Lines of a page are read at the port, those of the merge buffer apart (R382, R395, R751); whether all are released. -/
def checkLines (s : State) (p : Nat) (lines : List Nat) : State × Bool :=
  lines.foldl (fun a i => if a.2 && !a.1.mergeHolds p i then a.1.checkLine p i else a) (if lines.isEmpty then (s, true) else s.takePage p (lines.headD 0))

/-- `n` lines of page `p` from `line0` on are read at the port (R309, R336, R382, R751); whether the access goes ahead. -/
def memRead (s : State) (who : Asker) (p line0 n : Nat) (evs : List MemEvent) : State × Bool :=
  let t := s.faults who p line0 evs
  if t.2 then t.1.checkLines p ((List.range n).map (line0 + ·)) else t

/-- Lines of a page are read for a mover of region `r` (R316, R331, R395): from its region buffer, else at the port; whether all are released. -/
def regionRead (s : State) (r p : Nat) (lines : List Nat) : State × Bool :=
  let miss := s.rbMiss r p lines
  let t := s.checkLines p miss
  if t.2 then ((t.1.heat (.region r) p miss.length).rbRead r p lines, true) else t

/-! Trackers and the merge buffer. -/

def tracked (s : State) (p : Nat) : Bool := (s.region (pageRegion p)).cuff.trackers.any (fun t => t.page = p)

def pinnedLine (s : State) (p line : Nat) : Bool :=
  (s.region (pageRegion p)).cuff.merge.any (fun e => e.page = p && e.line = line && e.pinned)

/-- Whether a page has any merge entry whose read is in flight. -/
def pinnedPage (s : State) (p : Nat) : Bool := (s.region (pageRegion p)).cuff.merge.any (fun e => e.page = p && e.pinned)

/-- The marks of a write the port accepts: DIRTY, and invalidation in the region buffers (R315, R332). -/
def wrote (s : State) (p : Nat) : State := (s.onMem (fun m => m.onRecord p (fun x => { x with dirty := true }))).rbDrop p

/-- Bytes are written at the port (R315, R332, R381): the lines they lie in are sealed anew. -/
def portWrite (s : State) (p off : Nat) (bs : Bytes) : State :=
  ((s.onMem (fun m => m.write p off bs)).sealNow p (off / 64) ((off % 64 + bs.length + 63) / 64)).wrote p

/-- What a partial write makes of the old bytes of its word (R393, R502, R503). -/
def partialBytes (op : PartialOp) (old : Nat → Bytes) : Bytes :=
  match op with
  | .bytes b => b
  | .add64 x => leBytes 8 (BitVec.ofNat 64 (leNat (old 8)) + x).toNat
  | .add32 x => leBytes 4 (fadd (BitVec.ofNat 32 (leNat (old 4))) x).toNat
  | .cas e x => if leNat (old 8) = e.toNat then leBytes 8 x.toNat else old 8

/-- Width of a partial write in bytes. -/
def partialLen (op : PartialOp) : Nat :=
  match op with
  | .bytes b => b.length
  | .add32 _ => 4
  | _ => 8

/-- A partial write takes effect in its line (R393, R394). -/
def applyPartial (s : State) (p off : Nat) (op : PartialOp) : State :=
  s.portWrite p off (partialBytes op (fun n => s.mem.read p off n))

/-- Merge entries of a page are dropped (R398). -/
def mergeDrop (s : State) (p : Nat) : State :=
  s.onCuff (pageRegion p) (fun c => { c with merge := c.merge.filter (fun e => e.page ≠ p) })

end State
end Sys2Proof.Machine
end

