-- ==== Sys2Proof/Machine/Checks.lean ====
section
/-!
DEFINITION. Operations of the mover and of the device's own engines: their fields, pieces and the checks made before anything leaves the chip (R498 to R507).
-/
namespace Sys2Proof.Machine
namespace MoverOp

/-- Fields of the fabric address (R498). -/
def chip (m : MoverOp) : Nat := bitsNat m.af.toNat 62 50
def part (m : MoverOp) : Nat := bitsNat m.af.toNat 49 45
def off (m : MoverOp) : Nat := bitsNat m.af.toNat 44 0
def vpage (m : MoverOp) : Nat := m.off / pageSize

def isAtomic (m : MoverOp) : Bool := decide (m.op = 0xC3 ∨ m.op = 0xC4)
def isFence (m : MoverOp) : Bool := decide (m.op = 0xC6)
def isGet (m : MoverOp) : Bool := decide (m.op = 0xC0)

/-- An operation that stands in its channel's order (R508, R509). -/
def ordered (m : MoverOp) : Bool := !m.relax && decide (m.op ≠ 0xC5) && !m.isFence

/-- The host window (R499). -/
def inHost (m : MoverOp) : Bool := decide (0x30000000 ≤ m.vpage ∧ m.vpage ≤ 0x37FFFFFF)

/-- The export window (R499). -/
def inExport (m : MoverOp) : Bool := decide (0x3FFFF000 ≤ m.vpage ∧ m.vpage ≤ 0x3FFFF03F)

/-- Address of the byte at an offset from aAF, as an offset in the partition's window. -/
def at_ (m : MoverOp) (rel : Nat) : Nat := m.off + rel

/-- What an atomic or a signal does to its word (R502, R506). -/
def atomicOp (m : MoverOp) : PartialOp :=
  if m.op = 0xC4 then .cas m.sv m.sw else if m.dtype = 1 then .add32 (m.sv.setWidth 32) else .add64 m.sv

/-- KIND of ATOMIC_REQ (R525). -/
def kind (m : MoverOp) : Nat := if m.op = 0xC4 then 2 else m.dtype

/-- An operation that ends with no piece sent (R507). (DEDUCED, log entry 39) -/
def refuse (m : MoverOp) (status code : Nat) : MoverOp :=
  { m with status := status, code := code, failAt := 0, progress := m.len, owed := 0, reqs := [], signalOwed := false, stage := .done }

/-- Square-buffer lines an operation reads or writes (R76). -/
def lines (m : MoverOp) : Nat × Nat :=
  let a := m.al.toNat
  (a / 64, (a + max m.len 1 - 1) / 64 - a / 64 + 1)

/-- An operation of `len` bytes on a fabric address, as a unit of the device makes it or as its checks are asked for. -/
def plain (op : Nat) (af : BitVec 64) (len : Nat) : MoverOp :=
  { slot := 0, order := 0, op := op, af := af, al := 0, as_ := 0, cc := 0, len := len, relax := true, dtype := 0, sv := 0, sw := 0, job := 0, index := 0,
    slotno := 0, stage := .waiting, status := 0, code := 0, failAt := 0, owed := 0, signalOwed := false, tokens := 0, floored := false, progress := 0, reqs := [] }

end MoverOp

/-- The piece of at most `left` bytes that begins at window offset `o` (R505). -/
def pieceLen (o left : Nat) : Nat := min left (min (pageSize - o % pageSize) (4096 - o % 64))

/-- A piece cut into whole lines and parts of lines (R527): (offset in the window, bytes). -/
def pieceFrags (o n : Nat) : List (Nat × Nat) :=
  let head := if o % 64 = 0 then 0 else min n (64 - o % 64)
  let body := (n - head) / 64 * 64
  let tail := n - head - body
  ([(o, head), (o + head, body), (o + head + body, tail)]).filter (fun x => x.2 ≠ 0)

/-- A fabric address (R498). -/
def fabricAddr (chip part off : Nat) : BitVec 64 := BitVec.ofNat 64 (chip * 2 ^ 50 + part * 2 ^ 45 + off)

/-- All pieces of `n` bytes from window offset `o`: (offset from the start, bytes). -/
def piecesFrom (o : Nat) : Nat → Nat → Nat → List (Nat × Nat)
  | 0, _, _ => []
  | _, _, 0 => []
  | fuel + 1, rel, left =>
    let k := pieceLen (o + rel) left
    (rel, k) :: piecesFrom o fuel (rel + k) (left - k)

def pieces (o n : Nat) : List (Nat × Nat) := piecesFrom o (n / 4096 + 3) 0 n

namespace State

/-- A code of an operation of core `n` as its owning block raises it (R822); codes of other blocks are in the status record alone. (DEDUCED, log entry 23) -/
def raiseOp (s : State) (n : Nat) (m : MoverOp) (code : Nat) : State :=
  let part := (s.core n).spec.part.toNat
  match code / 256 with
  | 0x31 => s.raise 0x000E code n m.chip m.slot
  | 0x22 => s.raise 0x000C code (s.part part).session 0 (s.part part).gen
  | 0x02 => s.raise 0x0002 code (m.off / 4096) 0 (s.part part).session
  | 0x50 => s.raise 0x000A code (s.part part).session 0 0
  | _ => s

/-- Whether the Charter of a partition's session names a chip (R507). -/
def chipNamed (s : State) (p chip : Nat) : Bool :=
  match (s.session (s.part p).session).charter with
  | some c => c.chips.contains chip
  | none => false

/-- Whether partition `p` may reach partition `q` by an operation (R418). -/
def partAllowed (s : State) (p q : Nat) (get : Bool) : Bool :=
  p = q || (get && (match s.partDecl p with
    | some d => d.reads.toNat.testBit q && decide ((s.part q).state ≠ .free ∧ (s.part q).session = (s.part p).session)
    | none => false))

/-- The export rule that a PUT to the export window falls under (R440, R441), with its place. (DEDUCED, log entry 42) -/
def exportRule (s : State) (p vpage : Nat) : Option ExportRule :=
  match (s.session (s.part p).session).charter with
  | some c => match c.exports[vpage - 0x3FFFF000]? with
    | some r => if r.src = p then some r else none
    | none => none
  | none => none

/-- Bytes exported under a rule in a step. -/
def usedBytes (x : Session) (rule step : Nat) : Nat :=
  ((x.used.find? (fun u => u.1 = rule && u.2.1 = step)).map (fun u => u.2.2)).getD 0

/-- A PUT to the export window that its rules allow (R440, R441): each page named needs a rule, and a plain one its cap. (DEDUCED, log entry 42) -/
def exportOk (s : State) (p : Nat) (m : MoverOp) : Bool :=
  let x := s.session (s.part p).session
  let step := (Sparse.get CrownPart.none s.crown.parts p).step
  let last := (m.off + m.len - 1) / pageSize
  decide (m.op = 0xC1 ∧ m.part = p ∧ last ≤ 0x3FFFF03F) && (List.range (last - m.vpage + 1)).all (fun i =>
    let v := m.vpage + i
    let lo := max m.off (v * pageSize)
    let hi := min (m.off + m.len) ((v + 1) * pageSize)
    match s.exportRule p v with
    | some r => r.form ≠ 1 || decide (usedBytes x (v - 0x3FFFF000) step + (hi - lo) ≤ r.cap)
    | none => false)

/-- Use of the windows of R499 (check 5 of R507): the code of a breach. -/
def windowBreach (s : State) (p : Nat) (m : MoverOp) : Option Nat :=
  let last := (m.off + m.len - 1) / pageSize
  let touches (lo hi : Nat) : Bool := decide (m.vpage ≤ hi ∧ lo ≤ last)
  if touches 0x30000000 0x37FFFFFF &&
      !(decide (m.op = 0xC0 ∨ m.op = 0xC1) && m.inHost && decide (last ≤ 0x37FFFFFF ∧ m.chip = s.chip ∧ m.off % 4096 = 0 ∧ m.len % 4096 = 0)) then
    some 0x3105
  else if touches 0x3FFFFFFF 0x3FFFFFFF && decide (m.op ≠ 0xC0) then some 0x3105
  else if m.op = 0xC2 ∧ (m.as_.toNat % 8 ≠ 0 ∨ bitsNat m.as_.toNat 62 45 ≠ bitsNat m.af.toNat 62 45) then some 0x3104
  else if touches 0x3FFFF000 0x3FFFF03F && !s.exportOk p m then some 0x220A
  else none

/-- Checks 1 to 6 of R507 on an operation of partition `p`, and the IDE stream for the host window (R658): status and code of the first that fails. (DEDUCED, log entry 39) -/
def firstCheck (s : State) (p : Nat) (m : MoverOp) : Option (Nat × Nat) :=
  if s.torn p || s.torn m.part then some (4, 0x2205)
  else if 2 ^ 45 < m.off + m.len then some (6, 0x3103)
  else if !s.partAllowed p m.part m.isGet then some (6, 0x220D)
  else if m.part ≠ 0 ∧ !s.chipNamed m.part m.chip then some (6, 0x3102)
  else match s.windowBreach p m with
    | some code => some (6, code)
    | none =>
      if m.chip ≠ s.chip ∧ (m.chip / 8 = s.chip / 8 ∧ s.net.absent.toNat.testBit (m.chip % 8) ∨ s.net.farAbsent.contains m.chip) then some (5, 0x3009)
      else if m.inHost && !s.host.ideSecure then some (6, 0x0204)
      else none

/-- A guest page of a loan (R365, R366): chip of the lender and virtual page there. -/
def guestPage (s : State) (lender index : Nat) : Nat × Nat :=
  (s.chip / 8 * 8 + lender, 2 ^ 30 + s.chip % 8 * 2 ^ 18 + index)

/-- The hash of a channel (R466). -/
def channelHash (n part : Nat) : Nat := n + part

end State
end Sys2Proof.Machine
end

