-- ==== Sys2Proof/Machine/ExecCore.lean ====
section
/-!
DEFINITION. Control of cores from outside the instruction stream (R92, R96, R109, R145, R151, R741, R259, R260).
-/
namespace Sys2Proof.Machine
namespace Core

/-- ENABLE set (R92, R96): fetch starts at the pc; CYCLE and RETIRED count anew (R97). (DEDUCED, log entry 36) -/
def enable (c : Core) : Core :=
  if c.ctl.quar || c.ctl.enable then c
  else
    { c with
      ctl := { c.ctl with enable := true, draining := false, ending := false, stopping := none,
                          waiting := false, run := if c.ctl.run = .asleep then .asleep else .running },
      spec := { c.spec with cycle := 0, retired := 0 } }

/-- ENABLE written 0 (R92). -/
def stopIssue (c : Core) : Core :=
  if c.ctl.enable then
    c.withCtl (fun k => { k with enable := false, waiting := false, ending := false, run := if c.ctl.run = .asleep then .asleep else if c.drained then .idle else .draining })
  else c

/-- DRAIN written 1 (R92). -/
def drain (c : Core) : Core :=
  if c.ctl.run = .running then c.withCtl (fun k => { k with draining := true, run := .draining }) else c

/-- The end of a stop or a drain (R92). -/
def settle (c : Core) : Core :=
  if c.ctl.run = .draining && c.drained && (!c.ctl.draining || c.mover.isEmpty) then
    c.withCtl (fun k => { k with run := .idle, draining := false, enable := false })
  else c

/-- Quarantine (R92, R740). -/
def quarantine (c : Core) : Core :=
  c.abandon.withCtl (fun k => { k with quar := true, enable := false, draining := false, ending := false, waiting := false, run := .quarantined })

/-- Quarantine lifted (R741). -/
def unquarantine (c : Core) : Core := c.withCtl (fun k => { k with quar := false, run := .idle, diagPassed := false })

/-- Lines and tiles that discarded instructions were writing (R92). (DEDUCED, log entry 32) -/
def lostLines (c : Core) : List Nat :=
  (c.unret.flatMap (fun u => (u.foot.writeLines ++ u.foot.spill).flatMap (fun r => (List.range r.2).map (r.1 + ·)))).eraseDups

/-- DEDUCED, log entry 32. -/
def lostTiles (c : Core) : List Nat := (c.unret.flatMap (fun u => u.foot.writeAcc)).eraseDups

/-- A value undefined for CORE_IWIN, or a write at the wrong time (R92). -/
def iwinBad (c : Core) (v : BitVec 32) : Bool :=
  decide (2 ^ 28 ≤ v.toNat) || decide (16383 < bitsNat v.toNat 13 0 + bitsNat v.toNat 27 14) || c.ctl.enable || !c.mover.isEmpty

/-- An accepted write of CORE_IWIN (R92, R96, R84), undefined contents apart. -/
def setWindow (c : Core) (v : BitVec 32) : Core :=
  { c with
    ctl := { c.ctl with iwinBase := v.extractLsb' 0 14, iwinLinesM1 := v.extractLsb' 14 14, pc := 0, waiting := false, waitWord := 0,
                        brimWait := none, ending := false, stopping := none, boosted := none },
    spec := { Special.reset with chip := c.spec.chip, part := c.spec.part },
    acc := [], chains := (c.chains.filter (fun e => e.2.poison)).map (fun e => (e.1, { Chain.none with poison := true })),
    s := [], a := [], td := [], v := [], p := [], unret := [], clean := [], refills := [], records := 0, seenWslot := false, slotOpen := false }

/-- A tile or vector instruction retires (R74, R70). (DESIGN CHOICE, log entry 34) -/
def retire (c : Core) (isTile : Bool) (id : Nat) : Core :=
  if c.unret.any (fun u => u.id = id && u.isTile == isTile && !u.held && u.redo.isNone) then
    { c with unret := c.unret.filter (fun u => u.id ≠ id), spec := { c.spec with retired := c.spec.retired + 1 } }
  else c

/-- STATE 5 once earlier work has retired or is held (R151). -/
def stopOnError (c : Core) : Core :=
  match c.ctl.stopping with
  | none => c
  | some k =>
    if c.ctl.enable && c.drained then (c.note k.code).withCtl (fun x => { x with run := .stopped, enable := false, draining := false })
    else c

/-- A waiting instruction's watchdog, an END's waits among them (R109, R145). (DEDUCED, log entry 35) -/
def timeout (c : Core) : CoreRes :=
  if (c.ctl.waiting || c.ctl.ending) && c.ctl.enable && c.ctl.run == .running && c.ctl.stopping.isNone && decide (c.spec.wdog ≠ 0)
  then c.trap cWaitTimeout 0 else c.quiet

end Core

/-- Code for a write of a core register by the host or by management (R92), or for a refused value (R15). -/
def cCoreReg : Nat := 0x1006

/-- Control address of a register of a core (R11). -/
def coreAddr (n off : Nat) : Nat := ctl (regionBlock (n / 32)) (0x8000 + n % 32 * 0x200 + off)

namespace State

/-- A write of a core register by Crown or firmware; others are refused (R92). -/
def coreWrite (s : State) (cr : BitVec 9) (who : Writer) (off : Nat) (f : State → State) : State :=
  if outside who then (s.refuse who (coreAddr cr.toNat off) cCoreReg).mapCore cr.toNat (fun c => c.note cCoreReg) else f s

/-- Undefined contents for lines of a core's square buffer (R92). -/
def freeLines (s : State) (n : Nat) (lines : List Nat) : State :=
  lines.foldl (fun s l =>
    let d := s.drawBytes 64
    d.2.mapCore n (fun c => { c with sqb := Sparse.setRun 0 c.sqb (64 * l) d.1 })) s

/-- Undefined contents for accumulator tiles of a core (R92). -/
def freeTiles (s : State) (n : Nat) (tiles : List Nat) : State :=
  tiles.foldl (fun s t =>
    let d := s.drawWords 1024
    d.2.mapCore n (fun c => c.setAcc t d.1)) s

/-- CORE_IWIN written by Crown or firmware (R92, R96). (DEDUCED, log entry 32) -/
def writeIwin (s : State) (cr : BitVec 9) (who : Writer) (v : BitVec 32) : State :=
  let n := cr.toNat
  let c := s.core n
  if c.iwinBad v then (s.refuse who (coreAddr n 8) cCoreReg).mapCore n (fun c => c.note cCoreReg)
  else ((s.mapCore n (fun c => c.setWindow v)).freeLines n c.lostLines).freeTiles n c.lostTiles

/-- Whether a stream is placed on a core. -/
def placedOn (s : State) (n : Nat) : Bool :=
  s.crown.parts.any (fun e => e.2.placed.any (fun p => p.core = n))

/-- A failed core's mover is fenced (R529): its operations are gone, their replies discarded. (DEDUCED, log entry 67) -/
def fenceMover (s : State) (n : Nat) : State :=
  let ops := (s.core n).mover
  let s := ops.foldl (fun s m => if m.tokens = 0 ∨ m.part = 0 then s else s.setPart m.part { s.part m.part with inflight := (s.part m.part).inflight - 1 }) s
  let s := { s with host := { s.host with exports := s.host.exports.filter (fun x => x.core ≠ n) } }
  s.mapCore n (fun c => { c with mover := [] })

/-- QUAR is set (R741); with a stream placed the region fences the core's mover and Crown is told, as of a persistent error (R360, R740). (DEDUCED, log entry 67) -/
def setQuar (s : State) (n : Nat) : State :=
  let t := ({ s with quarMap := s.quarMap ||| 1#512 <<< n }).mapCore n Core.quarantine
  let t := if (s.core n).ctl.quar then t else t.pushEvent 8 [n / 32, n % 32]
  if s.placedOn n && !(s.core n).ctl.quar then
    { t.fenceMover n with crown := { (t.fenceMover n).crown with escalations := (t.fenceMover n).crown.escalations ++ [(n, 0x1013, true)] } }
  else t

/-- QUAR written (R741): 1 quarantines; 0 is for firmware, after a passed diagnostic, with no stream placed. -/
def writeQuar (s : State) (cr : BitVec 9) (who : Writer) (on : Bool) : State :=
  let n := cr.toNat
  let c := s.core n
  let bit := 1#512 <<< n
  if on then s.setQuar n
  else if c.ctl.quar then
    if who = .firmware && c.ctl.diagPassed && !s.placedOn n then
      ({ s with quarMap := s.quarMap &&& ~~~bit }).mapCore n Core.unquarantine
    else (s.refuse who (coreAddr n 0) cCoreReg).mapCore n (fun c => c.note cCoreReg)
  else s

/-- A slot closes (R259): lateness beyond 64·THRESH cycles counts, and the worst wait is recorded. (DEDUCED, log entry 33) -/
def closeSlot (s : State) (n : Nat) : State :=
  let c := s.core n
  let r := n / 32
  let wait := c.spec.slotWait.toNat
  let thresh := s.regField (ctl (regionBlock r) 0x600) 15 0
  if c.slotOpen && decide (thresh ≠ 0) && decide (64 * thresh < wait) then
    s.onRegion r (fun g =>
      let g := { g with lateCnt := satAdd 32 g.lateCnt 1 }
      if g.worstWait < wait then
        { g with worstSlot := c.spec.slotno.toNat, worstWait := min wait (2 ^ 27 - 1), worstCore := n % 32 }
      else g)
  else s

end State

def execCoreEnable (cr : BitVec 9) (who : Writer) (s : State) : Host.Outcome State Fault Refusal :=
  live s (fun s => s.coreWrite cr who 0 (fun s => s.mapCore cr.toNat Core.enable))

def execCoreStop (cr : BitVec 9) (who : Writer) (s : State) : Host.Outcome State Fault Refusal :=
  live s (fun s => s.coreWrite cr who 0 (fun s => s.mapCore cr.toNat Core.stopIssue))

def execCoreDrain (cr : BitVec 9) (who : Writer) (s : State) : Host.Outcome State Fault Refusal :=
  live s (fun s => s.coreWrite cr who 0 (fun s => s.mapCore cr.toNat Core.drain))

def execCoreDrained (cr : BitVec 9) (s : State) : Host.Outcome State Fault Refusal :=
  live s (fun s => s.mapCore cr.toNat Core.settle)

def execCoreQuar (cr : BitVec 9) (who : Writer) (on : Bool) (s : State) : Host.Outcome State Fault Refusal :=
  live s (fun s => s.coreWrite cr who 0 (fun s => s.writeQuar cr who on))

def execCoreIwinWrite (cr : BitVec 9) (who : Writer) (value : BitVec 32) (s : State) : Host.Outcome State Fault Refusal :=
  live s (fun s => s.coreWrite cr who 8 (fun s => s.writeIwin cr who value))

def execTileRetire (cr : BitVec 9) (id : Nat) (s : State) : Host.Outcome State Fault Refusal :=
  live s (fun s => s.mapCore cr.toNat (fun c => c.retire true id))

def execVectorRetire (cr : BitVec 9) (id : Nat) (s : State) : Host.Outcome State Fault Refusal :=
  live s (fun s => s.mapCore cr.toNat (fun c => c.retire false id))

/-- The boost of R60 lasts for one grant: until the operation of that slot starts. -/
def execMoverBoost (cr : BitVec 9) (slot : BitVec 6) (s : State) : Host.Outcome State Fault Refusal :=
  live s (fun s => s.mapCore cr.toNat (fun c =>
    if c.mover.any (fun m => m.slot = slot.toNat) then c.withCtl (fun k => { k with boosted := some slot.toNat }) else c))

def execCoreStopOnError (cr : BitVec 9) (s : State) : Host.Outcome State Fault Refusal :=
  live s (fun s => s.mapCore cr.toNat Core.stopOnError)

def execWaitTimeout (cr : BitVec 9) (s : State) : Host.Outcome State Fault Refusal :=
  ok (s.onCore cr Core.timeout)

/-- WEAVE_LATE.CLEAR (R260). -/
def execWeaveLateClear (rg : BitVec 4) (who : Writer) (s : State) : Host.Outcome State Fault Refusal :=
  if outside who then ok (s.refuse who (ctl (regionBlock rg.toNat) 0x600) cCoreReg)
  else ok (s.onRegion rg.toNat (fun g => { g with lateCnt := 0, worstSlot := 0, worstWait := 0, worstCore := 0 }))

end Sys2Proof.Machine
end

