-- ==== Sys2Proof/Machine/Graph.lean ====
section
/-!
DEFINITION. Work graphs as bytes: their parts, the checks on them, and Brim plans (R344, R345, R575 to R578).
-/
namespace Sys2Proof.Machine

/-! A work graph's bytes (R344). -/

/-- A little-endian field. -/
def field_ (b : Bytes) (off n : Nat) : Nat := leNat ((b.drop off).take n)

def parseSlots (b : Bytes) (off n : Nat) : List SlotDecl :=
  (List.range n).map (fun i => let w := field_ b (off + 8 * i) 8; ⟨bitsNat w 16 0, bitsNat w 33 17, w.testBit 34⟩)

def parseStream (b : Bytes) (off n : Nat) : StreamDecl :=
  ⟨field_ b off 4, field_ b (off + 4) 2, field_ b (off + 6) 2, field_ b (off + 8) 1, field_ b (off + 9) 2, parseSlots b (field_ b (off + 12) 4) n,
   (List.range 24).map (fun i => field_ b (field_ b (off + 16) 4 + 2 * i) 2), []⟩

def parseTensor (b : Bytes) (off : Nat) : TensorDecl :=
  ⟨field_ b off 4, field_ b (off + 4) 4, field_ b (off + 8) 1, decide (field_ b (off + 9) 1 = 1), field_ b (off + 10) 2⟩

/-- DESIGN CHOICE, log entry 60. -/
def parseGraph (b : Bytes) : WorkGraph :=
  let nS := field_ b 8 4
  { part := field_ b 6 1, nSlots := nS, nGroups := field_ b 14 1,
    variants := (List.range (field_ b 7 1)).map (fun v =>
      let e := field_ b 16 4 + 8 * v
      (List.range (field_ b e 2)).map (fun i => parseStream b (field_ b (e + 4) 4 + 32 * i) nS)),
    tensors := (List.range (field_ b 12 2)).map (fun i => parseTensor b (field_ b 20 4 + 16 * i)) }

/-- Strictly descending numbers. -/
def falling : List Nat → Bool
  | a :: b :: r => decide (b < a) && falling (b :: r)
  | _ => true

/-- Whether two page runs meet. -/
def runsMeet (a b : Nat × Nat) : Bool := decide (a.1 < b.1 + b.2 ∧ b.1 < a.1 + a.2)

/-- Runs that meet none later in the list. -/
def apart : List (Nat × Nat) → Bool
  | [] => true
  | x :: xs => xs.all (fun y => !runsMeet x y) && apart xs

/-- Slots of a stream (R345). -/
def slotsOk (xs : List SlotDecl) : Bool :=
  xs.all (fun s => decide (s.start ≤ s.close)) && falling (xs.map SlotDecl.start).reverse

/-- Zero fields of a work graph's entries, and reserved bits of its slots (R344, R345). -/
def zeroFields (b : Bytes) (g : WorkGraph) : Bool :=
  decide (field_ b 15 1 = 0) &&
  (List.range g.variants.length).all (fun v =>
    let e := field_ b 16 4 + 8 * v
    decide (field_ b (e + 2) 2 = 0) && (List.range (field_ b e 2)).all (fun i =>
      let o := field_ b (e + 4) 4 + 32 * i
      decide (field_ b (o + 11) 1 = 0 ∧ field_ b (o + 20) 12 = 0) &&
      (List.range g.nSlots).all (fun k => decide (field_ b (field_ b (o + 12) 4 + 8 * k) 8 < 2 ^ 35)))) &&
  (List.range g.tensors.length).all (fun i =>
    let o := field_ b 20 4 + 16 * i
    decide (field_ b (o + 9) 1 ≤ 1 ∧ field_ b (o + 12) 4 = 0))

/-- Offsets of a work graph within SIZE (R345). -/
def offsetsOk (b : Bytes) (size : Nat) : Bool :=
  let nV := field_ b 7 1
  let nS := field_ b 8 4
  decide (field_ b 16 4 + 8 * nV ≤ size ∧ field_ b 20 4 + 16 * field_ b 12 2 ≤ size) && (List.range nV).all (fun v =>
    let e := field_ b 16 4 + 8 * v
    let n := field_ b e 2
    decide (field_ b (e + 4) 4 + 32 * n ≤ size) && (List.range n).all (fun i =>
      let o := field_ b (e + 4) 4 + 32 * i
      decide (field_ b (o + 12) 4 + 8 * nS ≤ size ∧ field_ b (o + 16) 4 + 48 ≤ size)))

/-- The checks of R345, R442 and R501 on a work graph of `size` bytes for a partition with a quota. (DEDUCED, log entry 59) -/
def graphOk (b : Bytes) (part quota : Nat) : Bool :=
  let size := field_ b 24 4
  decide (field_ b 0 4 = 0x47575243 ∧ field_ b 4 2 = 0x0100 ∧ field_ b 6 1 = part ∧ 1 ≤ field_ b 7 1 ∧ field_ b 7 1 ≤ 8) &&
  decide (1 ≤ field_ b 8 4 ∧ field_ b 8 4 ≤ 65535 ∧ 1 ≤ field_ b 12 2 ∧ field_ b 12 2 ≤ 4096 ∧ 1 ≤ field_ b 14 1 ∧ field_ b 14 1 ≤ 16) &&
  decide (32 ≤ size ∧ size ≤ b.length) && decide (field_ b 28 4 = crc32 ((b.take size).drop 32)) && offsetsOk b size &&
  (let g := parseGraph b
   zeroFields b g && falling (g.variants.map List.length) &&
   g.variants.all (fun ss =>
     decide (1 ≤ ss.length ∧ ss.length ≤ 512) &&
     (List.range g.nGroups).all (fun k => let n := (ss.filter (fun s => s.group = k)).length; decide (1 ≤ n ∧ n ≤ 32)) &&
     ss.all (fun s => decide (s.group < g.nGroups ∧ 1 ≤ s.imageLines ∧ s.imageLines ≤ 16384 ∧ 4 ≤ s.winBase ∧ s.winBase + s.imageLines ≤ 16384 ∧ s.rng < 4096) &&
       slotsOk s.slots && s.tlist.all (fun t => t = 0xFFFF || decide (t < g.tensors.length)))) &&
   g.tensors.all (fun t => decide (1 ≤ t.pages ∧ t.kind ≤ 3 ∧ t.first + t.pages ≤ 0x3FFFFFFE) &&
     !runsMeet (t.first, t.pages) (0x30000000, 0x8000000) && !runsMeet (t.first, t.pages) (0x38000000, 0x6000000) &&
     !runsMeet (t.first, t.pages) (0x3FFFF000, 0xFFE)) &&
   apart (g.tensors.map (fun t => (t.first, t.pages))) && decide ((g.tensors.map TensorDecl.pages).foldl (· + ·) 0 ≤ quota))

/-! Brim plans (R575 to R578). -/

def planKind (w : PlanWord) : Nat := bitsNat w.toNat 1 0
def planScope (w : PlanWord) : Nat := bitsNat w.toNat 4 2
def planName (w : PlanWord) : Nat := bitsNat w.toNat 16 5

/-- An entry with an undefined field or one it does not use (R576, R578). -/
def planBad (w : PlanWord) : Bool :=
  let k := planKind w
  let sc := planScope w
  if k = 0 then decide (w ≠ 0)
  else decide (k = 3 ∨ 4 ≤ sc ∨ bitsNat w.toNat 63 42 ≠ 0) || (k = 1 && decide (2 ≤ sc)) ||
    (decide (sc < 2) && decide (bitsNat w.toNat 41 17 ≠ 0)) || decide (sc = 2 ∧ 0 < bitsNat w.toNat 63 42)

/-- The plan of a stream, from the last six lines of its image (R575). -/
def planOf (image : Bytes) (lines : Nat) : List PlanWord :=
  (List.range 48).map (fun i => BitVec.ofNat 64 (field_ image (64 * (lines - 6) + 8 * i) 8))

def planId (part region : Nat) (w : PlanWord) : BrimId := ⟨part, planScope w, planName w, if planScope w = 0 then region else 0⟩

/-- Pages of a work graph's tensors of KIND 2 and KIND 3 (R601). -/
def setPagesOf (g : WorkGraph) : Nat := ((g.tensors.filter (fun t => 2 ≤ t.kind)).map TensorDecl.pages).foldl (· + ·) 0

/-! The deal of page groups (R353). -/

/-- Whether a tensor's page set stands with that of the first tensor of a run (R270): a page, two pages, or a sixteenth of a page for each group. -/
def joinsRun (run : List TensorDecl) (t : TensorDecl) : Bool :=
  match run.head? with
  | some h => h.kind = 2 && t.kind = 2 && decide (t.pages = h.pages ∨ t.pages = 2 * h.pages ∨ t.pages = ceilDiv h.pages 16)
  | none => false

/-- The tensor table as runs: page sets one after another whose groups are the same, and every other tensor alone. (DEDUCED, log entry 58) -/
def tensorRuns (ts : List TensorDecl) : List (List TensorDecl) :=
  ts.foldl (fun acc t => match acc.getLast? with
    | some run => if joinsRun run t then acc.dropLast ++ [run ++ [t]] else acc ++ [[t]]
    | none => [[t]]) []

/-- Page groups of a run. -/
def runGroups (run : List TensorDecl) : Nat := (run.head?.map TensorDecl.pages).getD 0

/-- Groups that are dealt together: the sixteen of a factor page where the run has factors, else one (R270, R272). (DEDUCED, log entry 58) -/
def runUnit (run : List TensorDecl) : Nat :=
  let n := runGroups run
  if run.any (fun t => t.pages ≠ n && t.pages ≠ 2 * n) then 16 else 1

/-- Pages that the moments of a work graph take more in wide mode (R602): of a run's page sets as long as the first, those after the half and the Lining, two at
most. (DEDUCED, log entry 93) -/
def wideExtra (g : WorkGraph) : Nat :=
  ((tensorRuns g.tensors).map (fun run =>
    runGroups run * min 2 ((run.filter (fun t => t.kind = 2 && decide (t.pages = runGroups run))).length - 2))).foldl (· + ·) 0

/-- Pages of a tensor of a run that belong to its groups from `lo` to `hi`. -/
def groupRun (n lo hi : Nat) (t : TensorDecl) : List Nat :=
  let per (a b : Nat) : List Nat := (List.range (b - a)).map (fun i => t.first + a + i)
  if t.pages = n then per lo (min hi n)
  else if t.pages = 2 * n then per (2 * lo) (min (2 * hi) (2 * n))
  else per (lo / 16) (min (ceilDiv hi 16) t.pages)

/-- Pages of the `u`th unit of a run, each with its tensor's PIN. -/
def unitPages (run : List TensorDecl) (u : Nat) : List (Nat × Bool) :=
  let k := runUnit run
  run.flatMap (fun t => (groupRun (runGroups run) (k * u) (k * (u + 1)) t).map (fun v => (v, t.pin)))

end Sys2Proof.Machine
end

