-- ==== Sys2Proof/Machine/Cuff.lean ====
section
/-!
DEFINITION. Writes at the memory Cuff: whole-page writes and their trackers (R385 to R390), partial writes and the merge
buffer (R393 to R398), the scrubber's queue (R392), and answers to those who wait.
-/
namespace Sys2Proof.Machine

/-- Whether an operation's first failure is replaced by another: the lowest address governs (R515). (DEDUCED, log entry 40) -/
def MoverOp.fail (m : MoverOp) (rel status code : Nat) : MoverOp :=
  if m.status = 0 ∨ rel < m.failAt then { m with status := status, code := code, failAt := rel } else m

/-- Traffic class of an operation (R519). -/
def MoverOp.cls (m : MoverOp) : Nat :=
  if m.op = 0xC5 then 1 else if (m.op = 0xC3 ∨ m.op = 0xC4) && m.relax then 0 else 2

/-- Bytes an operation has to move. -/
def MoverOp.total (m : MoverOp) : Nat := m.len

/-- An operation with nothing outstanding is done; a signal still owed is sent first (R506), and a contribution is counted first (R546). -/
def MoverOp.settle (m : MoverOp) : MoverOp :=
  if m.total ≤ m.progress ∧ m.owed = 0 ∧ m.reqs = [] ∧ (m.signalOwed = false ∨ m.status ≠ 0) then
    { m with stage := if m.op = 0xC5 ∧ m.status = 0 then .sent else .done, signalOwed := false } else m

namespace State

def moverOp (s : State) (n slot : Nat) : Option MoverOp := (s.core n).mover.find? (fun m => m.slot = slot)

/-- A mover slot's operation changes. -/
def onOp (s : State) (n slot : Nat) (f : MoverOp → MoverOp) : State :=
  s.mapCore n (fun c => { c with mover := c.mover.map (fun m => if m.slot = slot then f m else m) })

/-- One local write of an operation has landed, with the old value of an atomic (R502, R518). -/
def opLanded (s : State) (n slot : Nat) (old : Option Bytes) : State :=
  match s.moverOp n slot with
  | none => s
  | some m =>
    let s := match old with
      | some b => if m.op = 0xC3 ∨ m.op = 0xC4 then s.mapCore n (fun c => c.writeSqb m.al.toNat b) else s
      | none => s
    s.onOp n slot (fun m => { m with owed := m.owed - 1 }.settle)

/-- The reply to a waiting write: to a core's operation, or as a frame to the chip that asked (R526). -/
def answer (s : State) (who : Requester) (old : Option Bytes) : State :=
  match who with
  | .core n slot => s.opLanded n slot old
  | .peer part chip core slot j =>
    match old with
    | some b => s.replyOn j 0x16 part 0 chip (replyOpw core slot 0 0) b
    | none => s.replyOn j 0x17 part 0 chip (replyOpw core slot 0 0) []
  | .signal part chip core slot j => s.replyOn j 0x17 part 0 chip (replyOpw core slot 0 0) []
  | .engine => s

/-- The old value that an atomic returns. -/
def oldOf (s : State) (p off : Nat) (op : PartialOp) : Option Bytes :=
  match op with
  | .bytes _ => none
  | _ => some (s.mem.read p off (partialLen op))

/-- How a write fares at the Cuff. -/
inductive WriteEnd where
  | landed (old : Option Bytes)
  | pending
  | wait
  deriving DecidableEq, Repr

/-- A partial write (R394 to R396): a hit lands at once, a miss takes an entry and waits for its read. -/
def partialWrite (s : State) (who : Requester) (p off : Nat) (op : PartialOp) : State × WriteEnd :=
  let r := pageRegion p
  let line := off / 64
  let g := s.region r
  if s.tracked p then (s, .wait)
  else
    match g.cuff.merge.find? (fun e => e.page = p && e.line = line) with
    | some e =>
      if e.pinned then
        (s.onCuff r (fun c => { c with merge := c.merge.map (fun x => if x.page = p ∧ x.line = line then { x with pend := x.pend ++ [⟨off, op, who⟩] } else x) }), .pending)
      else
        let s := s.count (ctl (mcuffBlock r) 0x14) 1
        let old := s.oldOf p off op
        let s := s.onCuff r (fun c => { c with merge := c.merge.filter (fun x => x ≠ e) ++ [e] })
        (s.applyPartial p off op, .landed old)
    | none =>
      let full := decide (512 ≤ g.cuff.merge.length)
      if full && g.cuff.merge.all (fun e => e.pinned) then (s, .wait)
      else
        let victim := if full then g.cuff.merge.find? (fun e => !e.pinned) else none
        let kept := match victim with | some v => g.cuff.merge.filter (fun x => x ≠ v) | none => g.cuff.merge
        ((s.count (ctl (mcuffBlock r) 0x10) 1).onCuff r (fun c => { c with merge := kept ++ [⟨p, line, true, [⟨off, op, who⟩]⟩] }), .pending)

/-- Whole lines written to a page: they wait for an open tracker or for a pinned entry of one of them (R386, R396). -/
def lineWrite (s : State) (p off : Nat) (bs : Bytes) : Option State :=
  if s.tracked p || (List.range (bs.length / 64)).any (fun i => s.pinnedLine p (off / 64 + i)) then none
  else some (s.portWrite p off bs)

/-- Scrubber entries not reserved for re-encryptions (R392). -/
def scrubRoom (c : MemCuff) : Bool :=
  decide (c.scrubQ.length < 256) && decide ((c.scrubQ.filter (fun j => j.kind ≠ .reencrypt)).length < 240)

/-- A job for the Cuff scrubber; one that finds no entry waits in Crown (R392). -/
def scrub (s : State) (kind : ScrubKind) (p : Nat) : State :=
  s.onCuff (pageRegion p) (fun c =>
    if (if kind = .reencrypt then decide (c.scrubQ.length < 256) else scrubRoom c) then { c with scrubQ := c.scrubQ ++ [⟨kind, p⟩] }
    else { c with crownList := c.crownList.filter (fun j => j.page ≠ p) ++ [⟨kind, p⟩] })

/-- A whole-page write begins (R386, R390, R398): none where it must wait. (DEDUCED, log entry 45) -/
def openTracker (s : State) (p : Nat) (kgen : Bool) (who : Requester) : State × Bool :=
  let r := pageRegion p
  let c := (s.region r).cuff
  if s.tracked p || decide (16 ≤ c.trackers.length) || s.pinnedPage p then (s, false)
  else if (s.mem.record p).epoch.toNat = 2 ^ 24 - 1 then
    if c.stallNoted.contains (p, who) then (s, false)
    else (((s.count (ctl (mcuffBlock r) 0x1C) 1).raise (mcuffBlock r) 0x2108 p 0 (2 ^ 24 - 1)).onCuff r
      (fun c => { c with stallNoted := c.stallNoted ++ [(p, who)] }), false)
  else ((s.mergeDrop p).onCuff r (fun c => { c with trackers := c.trackers ++ [⟨p, 0, kgen, who⟩],
                                                    stallNoted := c.stallNoted.filter (fun x => x ≠ (p, who)) }), true)

/-- Every line of a tracked page is written. (DEDUCED, log entry 45) -/
def writeTracked (s : State) (p : Nat) (bs : Bytes) : State :=
  (s.onCuff (pageRegion p) (fun c =>
    { c with trackers := c.trackers.map (fun t => if t.page = p then { t with written := BitVec.allOnes 256 } else t) })).portWrite p 0 bs

/-- Newest live generation of a partition, as its parity (R446). (DEDUCED, log entry 51) -/
def newestKgen (s : State) (part : Nat) : Bool := decide ((s.part part).gen % 2 = 1)

/-- KEYS raises a code for a partition's session (R822). (DEDUCED, log entry 51) -/
def keyCode (s : State) (part code : Nat) : State := s.raise 0x000C code (s.part part).session 0 (s.part part).gen

/-- A rotation request (R447 to R449): the code of a refusal, or 0. The new generation is live at once; a sweep job is
queued for every page of the older one. -/
def rotate (s : State) (part : Nat) : State × Nat :=
  let x := s.part part
  match x.state with
  | .rotating => (s.keyCode part 0x2203, 0x2203)
  | .open_ =>
    if x.gen = 65535 then
      ((((s.setPart part { x with exhausted := true }).keyCode part 0x2204).pushEvent 3 [part, x.gen, 0x2204]).ownerEvent 3 [part, x.gen, 0x2204], 0x2204)
    else
      let s := s.setChipSlots (2 * part + (x.gen + 1) % 2) true
      let s := s.setPart part { x with gen := x.gen + 1, state := .rotating }
      let old := decide (x.gen % 2 = 1)
      let pages := (s.mem.pagesOf (fun q => q = part)).filter (fun p => (s.mem.record p).kgen = old)
      (pages.foldl (fun s p => s.scrub .sweep p) s, 0)
  | _ => (s.keyCode part 0x2209, 0x2209)

/-- A rotation for the sake of a page's epoch; answered with BUSY it is repeated when the sweep completes (R389). -/
def askRotation (s : State) (part : Nat) : State :=
  let t := s.rotate part
  if t.2 = 0x2203 then t.1.setPart part { t.1.part part with schedulePending := true } else t.1

/-- The record takes a new EPOCH and KGEN; at the threshold the page is queued for re-encryption (R385, R386, R388). -/
def setEpoch (s : State) (p epoch : Nat) (kgen : Bool) : State :=
  let r := pageRegion p
  let s := s.onMem (fun m => m.onRecord p (fun x => { x with epoch := BitVec.ofNat 24 epoch, kgen := kgen }))
  if 16711680 ≤ epoch && !(s.region r).cuff.threshNoted.contains p then
    let s := (s.raise (mcuffBlock r) 0x2107 p 0 epoch).onCuff r (fun c => { c with threshNoted := c.threshNoted ++ [p] })
    let part := (s.mem.record p).part.toNat
    let s := if (s.mem.record p).kgen = s.newestKgen part then s.askRotation part else s
    s.scrub .reencrypt p
  else s

/-- A tracker whose 256 lines are written closes: the record advances and its writer is answered (R385, R386). -/
def closeTracker (s : State) (p : Nat) : State :=
  let r := pageRegion p
  match (s.region r).cuff.trackers.find? (fun t => t.page = p) with
  | none => s
  | some t =>
    if t.written = BitVec.allOnes 256 then
      let s := s.onCuff r (fun c => { c with trackers := c.trackers.filter (fun x => x.page ≠ p) })
      (s.setEpoch p ((s.mem.record p).epoch.toNat + 1) t.kgen).answer t.who none
    else s

/-- A whole page written by an engine of the device in one step: copy, restore, write-back (R385). It waits for its tracker; a Cuff whose
slot is empty refuses it (R378). -/
def enginePage (s : State) (p : Nat) (kgen : Bool) (bs : Bytes) : State × Bool :=
  if !s.slotLoaded (pageRegion p) (s.mem.record p).part.toNat kgen then (s.raise (mcuffBlock (pageRegion p)) 0x2101 p 0 0, false)
  else
  let k := s.takeSlot (pageRegion p) (2 * (s.mem.record p).part.toNat + b2n kgen) p 0
  if !k.2 then k
  else
  let t := k.1.openTracker p kgen .engine
  if t.2 then ((t.1.writeTracked p bs).closeTracker p, true) else (t.1, false)

end State
end Sys2Proof.Machine
end

