-- ==== Sys2Proof/Machine/Brim.lean ====
section
/-!
DEFINITION. The Brim network: nodes, generations, releases, flags, and barriers across chips (R574 to R596).
-/
namespace Sys2Proof.Machine
namespace State

def onBrim (s : State) (f : BrimNet → BrimNet) : State := { s with brim := f s.brim }

/-- A message enters the network. -/
def brimPut (s : State) (m : BrimMsg) : State := s.onBrim (fun b => { b with wire := b.wire ++ [m] })

/-- The key under which a core's slot names its node (R597). -/
def brimKey (s : State) (n slot : Nat) : BrimKey :=
  let lo := ((s.core n).brimSlot slot).lo.toNat
  let scope := bitsNat lo 4 2
  ⟨if scope = 0 then n / 32 else 0, scope, bitsNat lo 14 5⟩

def nodeHas (k : BrimKey) (b : BrimNode) : Bool := decide (b.id.region = k.region ∧ b.id.scope = k.scope ∧ b.entry = k.entry)

def node (s : State) (k : BrimKey) : Option BrimNode := s.brim.nodes.find? (nodeHas k)

def nodeOf (s : State) (id : BrimId) : Option BrimNode := s.brim.nodes.find? (fun b => b.id = id)

def onNode (s : State) (id : BrimId) (f : BrimNode → BrimNode) : State :=
  s.onBrim (fun b => { b with nodes := b.nodes.map (fun x => if x.id = id then f x else x) })

/-- Whether the barrier of a slot is broken (R591). -/
def slotBroken (s : State) (n slot : Nat) : Bool :=
  match s.node (s.brimKey n slot) with
  | some b => b.broken
  | none => false

/-- The ring table of a job in a partition's Charter (R534, R535). -/
def ringOf (s : State) (part job : Nat) : Option RingTable :=
  match (s.session (s.part part).session).charter with
  | some c => c.rings.find? (fun t => t.job = job && t.part = part)
  | none => none

/-- Chips of a barrier across chips (R587): the group positions of its MASK, or its ring table's members. -/
def brimChips (s : State) (b : BrimNode) : List Nat :=
  let field := bitsNat b.plan.toNat 24 17
  if b.id.scope = 2 then ((List.range 8).filter (fun q => field.testBit q)).map (fun q => s.chip / 8 * 8 + q)
  else match s.ringOf b.id.part field with
    | some t => t.chips
    | none => []

/-- Width of the rows of a fabric barrier (R535). -/
def brimWidth (s : State) (b : BrimNode) : Nat :=
  match s.ringOf b.id.part (bitsNat b.plan.toNat 24 17) with
  | some t => t.width
  | none => 1

/-- Chip that holds a counter (R587): the lowest position of a group barrier, the row's or the fabric's root. -/
def brimRoot (s : State) (b : BrimNode) (fabric : Bool) : Option Nat :=
  let chips := s.brimChips b
  if b.id.scope = 2 ∨ fabric then chips.head?
  else
    let w := max (s.brimWidth b) 1
    match chips.findIdx? (· = s.chip) with
    | some i => chips[i / w * w]?
    | none => none

/-- Adders to a counter (R587). -/
def brimAdders (s : State) (b : BrimNode) (fabric : Bool) : Nat :=
  let chips := s.brimChips b
  if b.id.scope = 2 then chips.length
  else if fabric then chips.length / max (s.brimWidth b) 1 else s.brimWidth b

/-- Byte offset in the partition's window of a counter word (R588). -/
def counterOff (b : BrimNode) (fabric : Bool) (gen : Nat) : Nat :=
  b.quadVp * pageSize + 32 * bitsNat b.plan.toNat 41 30 + (if fabric then 16 else 0) + 8 * (gen % 2)

/-- Releases of a generation to the participants on this chip (R581). -/
def releaseLocal (s : State) (b : BrimNode) : State :=
  let s := s.onNode b.id (fun x => { x with rel := x.rel + 1 })
  b.members.foldl (fun s m => s.brimPut (.release m.1 m.2)) s

/-- OPW of a BRIM frame (R590). -/
def brimOpw (b : BrimNode) (gen kind : Nat) : BitVec 64 :=
  BitVec.ofNat 64 (b.id.name + b2n (decide (b.id.scope = 3)) * 2 ^ 12 + gen % 2 ^ 16 * 2 ^ 13 + kind * 2 ^ 29)

/-- BRIM frames to other chips (R590). -/
def brimSend (s : State) (b : BrimNode) (chips : List Nat) (gen kind : Nat) : State :=
  (chips.filter (fun c => c ≠ s.chip)).foldl (fun s c =>
    s.queueTo c b.id.part 0x0E b.id.part 0 (brimOpw b gen kind) []) s

/-- A barrier breaks (R591): BROKEN to the other members, its waits end, its cores stop, and Crown asks for restore. -/
def brimBreak (s : State) (b : BrimNode) : State :=
  if b.broken then s
  else
    let s := (s.onNode b.id (fun x => { x with broken := true })).count (ctl 0x000E 0x408) 1
    let s := s.brimSend b (s.brimChips b) b.rel 1
    let s := b.members.foldl (fun s m =>
      let c := s.core m.1
      if c.ctl.brimWait = some m.2 then
        (s.setCore m.1 (c.stopWith 0x4005 m.2)).raise (regionBlock (m.1 / 32)) 0x4005 m.1 m.2 b.rel
      else s) s
    s.crownAsk b.id.part 0x4005 0 0

/-- The counter atomic of a generation complete on this chip (R587): at this chip's own memory, or to the root, under the checks of R507. -/
def brimAtomic (s : State) (b : BrimNode) (fabric : Bool) (gen : Nat) : State :=
  let off := counterOff b fabric gen
  match s.brimRoot b fabric with
  | none => s.brimBreak b
  | some root =>
    if (s.firstCheck b.id.part (MoverOp.plain 0xC3 (fabricAddr root b.id.part off) 8)).isSome then s.brimBreak b
    else if root = s.chip then
      let a := s.access .ld b.id.part (off / pageSize) true
      match a.2 with
      | .refused _ _ => a.1.brimBreak b
      | _ => a.1.post ⟨none, b.id.part, off, .add64 1⟩
    else
      match s.sendTo root b.id.part 0x15 b.id.part 0 (offOpw off 511 63 true 0) (leBytes 8 1) with
      | some s => s.onBrim (fun x => { x with atomics := x.atomics ++ [(root, b.id)] })
      | none => s.brimBreak b

/-- The next generation of a node completes once its counter is full (R581). -/
def brimFull (s : State) (id : BrimId) : State :=
  match s.nodeOf id with
  | none => s
  | some b =>
    let g := b.gen
    if b.members.length ≤ (if g % 2 = 0 then b.even else b.odd) then
      let b := if g % 2 = 0 then { b with even := 0, gen := g + 1 } else { b with odd := 0, gen := g + 1 }
      let s := s.onNode b.id (fun _ => b)
      if b.id.scope ≤ 1 then s.releaseLocal b else s.brimAtomic b false g
    else s

/-- An arrival reaches its node (R581) and counts in the counter of its generation's parity. Generations complete in ascending order (R580), so that
a second one may stand full behind the next. -/
def brimArrive (s : State) (k : BrimKey) (gen : Nat) : State :=
  match s.node k with
  | none => s
  | some b =>
    ((s.onNode b.id (fun b => if gen % 2 = 0 then { b with even := b.even + 1 } else { b with odd := b.odd + 1 })).brimFull b.id).brimFull b.id

/-- The last adder of a generation (R589): the next phase, or RELEASE. The generation is one of the two that a counter's parity leaves open; at the
releasing root the later of two waits for the earlier (R580). (DEDUCED, log entry 144) -/
def brimCounted (s : State) (id : BrimId) (fabric odd : Bool) (old : Nat) : State :=
  match s.nodeOf id with
  | none => s
  | some b =>
    let g := if decide (b.rel % 2 = 1) = odd then b.rel else b.rel + 1
    if old + 1 = s.brimAdders b fabric * (g / 2 + 1) then
      if b.id.scope = 3 && !fabric then s.brimAtomic b true g
      else if g ≠ b.rel then s.brimPut (.counter id fabric odd old)
      else
        let chips := s.brimChips b
        let w := max (s.brimWidth b) 1
        let toward := if b.id.scope = 2 then chips
          else (chips.zipIdx.filter (fun c => c.2 % w = 0 ∨ c.2 < w)).map Prod.fst
        (s.brimSend b toward g 0).releaseLocal b
    else s

/-- A RELEASE or BROKEN from another chip (R590, R591). A row root passes RELEASE on to its row (R589). (DEDUCED, log entry 144) -/
def brimFrame (s : State) (part : Nat) (opw : BitVec 64) : State :=
  let w := opw.toNat
  let scope := 2 + bitsNat w 12 12
  let drop (s : State) : State := s.count (ctl 0x000E 0x404) 1
  match s.nodeOf ⟨part, scope, bitsNat w 11 0, 0⟩ with
  | none => drop s
  | some b =>
    if bitsNat w 30 29 = 1 then s.brimBreak b
    else if bitsNat w 28 13 ≠ b.rel % 2 ^ 16 then drop s
    else
      let row := s.brimWidth b
      let chips := s.brimChips b
      let s := if scope = 3 ∧ s.brimRoot b false = some s.chip then
          match chips.findIdx? (· = s.chip) with
          | some i => s.brimSend b ((chips.drop i).take row) b.rel 0
          | none => s
        else s
      s.releaseLocal b

/-- A flag node takes a new value and sends it to every participant slot (R585). -/
def flagTake (s : State) (k : BrimKey) (f : BitVec 32 → BitVec 32) : State :=
  match s.node k with
  | none => s
  | some b =>
    let v := f b.value
    let s := s.onNode b.id (fun x => { x with value := v })
    b.members.foldl (fun s m => s.brimPut (.value m.1 m.2 v)) s

/-- The agent reads the old value of a counter atomic as it lands in this chip's memory (R589). -/
def brimSees (s : State) (p off : Nat) (op : PartialOp) (old : Nat) : State :=
  match op with
  | .add64 _ =>
    let r := s.mem.record p
    let at_ := r.vpage.toNat * pageSize + off
    s.brim.nodes.foldl (fun s b =>
      if 2 ≤ b.id.scope ∧ b.id.part = r.part.toNat ∧ b.flag = false then
        [(false, 0), (false, 1), (true, 0), (true, 1)].foldl (fun s x =>
          if counterOff b x.1 x.2 = at_ ∧ s.brimRoot b x.1 = some s.chip then
            s.brimPut (.counter b.id x.1 (decide (x.2 = 1)) old) else s) s
      else s) s
  | _ => s

/-- Take the `k`-th message of a kind off the network. -/
def brimTake (s : State) (f : BrimMsg → Bool) (k : Nat) : Option (BrimMsg × State) :=
  match (s.brim.wire.zipIdx.filter (fun m => f m.1))[k]? with
  | none => none
  | some m => some (m.1, s.onBrim (fun b => { b with wire := b.wire.eraseIdx m.2 }))

/-- Slots of a core that break R593: a barrier with ARRIVED apart from SEEN, a flag whose copy is not 0. -/
def dirtySlots (c : Core) : List Nat :=
  (List.range 48).filter (fun i => (c.slotKind i = 2 && c.slotArrived i != c.slotSeen i) || (c.slotKind i = 1 && (c.brimSlot i).hi != 0))

/-- The slot check at END (R594). -/
def brimCheck (s : State) (n : Nat) : State :=
  let c := s.core n
  match dirtySlots c with
  | [] => s
  | i :: rest =>
    let ds := i :: rest
    let r := n / 32
    let bits : BitVec 48 := ds.foldl (fun w i => w ||| (1#48 <<< i)) 0
    let flags := (ds.filter (fun i => c.slotKind i = 1)).map (s.brimKey n)
    let s := s.onBrim (fun b => { b with dirtyCore := Sparse.set 0 b.dirtyCore r (n % 32), dirty := Sparse.set 0 b.dirty r bits,
                                         dirtyFlags := b.dirtyFlags ++ flags })
    let s := s.raise (regionBlock r) 0x4004 n i (c.slotArrived i)
    if ds.any (fun i => c.slotKind i = 2) then s.crownAsk c.spec.part.toNat 0x4004 0 c.spec.slotno.toNat else s

/-- Undefined value of a slot register, or a bit its layout reserves (R597, R824). (DEDUCED, log entry 144) -/
def slotWriteBad (b : BrimSlot) (hi : Bool) (v : Nat) : Bool :=
  if hi then
    match bitsNat b.lo.toNat 1 0 with
    | 2 => decide (2 ^ 16 ≤ v)
    | 1 => false
    | _ => decide (v ≠ 0)
  else decide (bitsNat v 1 0 = 3 ∨ 4 ≤ bitsNat v 4 2) || v.testBit 15 ||
    decide (bitsNat v 4 2 = 0 ∧ 256 ≤ bitsNat v 14 5) || decide (512 ≤ bitsNat v 14 5) ||
    decide (bitsNat v 1 0 ≠ 2 ∧ bitsNat v 31 16 ≠ 0)

/-- A slot register written by Crown or firmware (R597, R824). -/
def writeSlot (s : State) (cr : BitVec 9) (who : Writer) (slot : Nat) (hi : Bool) (v : BitVec 32) : State :=
  let n := cr.toNat
  let c := s.core n
  let b := c.brimSlot slot
  let addr := ctl (regionBlock (n / 32)) (0x4000 + 0x200 * (n % 32) + 8 * slot + (if hi then 4 else 0))
  if outside who || c.ctl.enable || slotWriteBad b hi v.toNat then s.refuse who addr 0x4006
  else
    s.setCore n (c.setBrimSlot slot
      (if hi then { b with hi := v }
       else ⟨v, if bitsNat v.toNat 1 0 = bitsNat b.lo.toNat 1 0 then b.hi else 0⟩))

end State
end Sys2Proof.Machine
end

