-- ==== Sys2Proof/Machine/Engine.lean ====
section
/-!
DEFINITION. Reads, writes and signals of the device's own engines: update engines, reduction, Crown, the checkpoint controllers, the host port
(R278, R366, R369, R393, R507).
-/
namespace Sys2Proof.Machine

/-- The access of an engine that stands in a region, or on LD (R324). -/
def engAsker : Option Nat → Asker
  | some r => .region r
  | none => .ld

/-- How an engine's read is answered: with bytes; it must wait, and what is done meanwhile; no page serves it. -/
inductive EngRead where
  | got (s : State) (b : Bytes)
  | wait (f : State → State)
  | missing (s : State) (code : Nat)

/-- Whether a frame is taken from the receive buffer: it has taken effect, or it stays there, and what is done meanwhile. -/
inductive Taken where
  | took (s : State)
  | held (f : State → State)

namespace State

/-- Guest address of a loaned page's byte (R365). (DESIGN CHOICE, log entry 46) -/
def guestOff (s : State) (index off : Nat) : Nat := (2 ^ 30 + s.chip % 8 * 2 ^ 18 + index) * pageSize + off % pageSize

/-! Writes. -/

/-- A write to a lent page goes to the lender (R366), in frames of MSLOT 61; it waits while no link of the path is up. (DEDUCED, log entry 141) -/
def lendWrite (s : State) (lender index : Nat) (w : EngWrite) : State × Bool :=
  let dst := s.chip / 8 * 8 + lender
  match s.chooseLink dst 511 with
  | none => (s, false)
  | some j =>
    let at_ (o : Nat) : Nat := s.guestOff index o
    let send (s : State) (type : Nat) (opw : BitVec 64) (b : Bytes) : State :=
      (s.queueOn j type w.part 2 dst opw b).onNet (fun n => { n with eng := n.eng ++ [(dst, 61)] })
    (match w.op with
    | .bytes b => ((pieces w.off b.length).flatMap (fun x => pieceFrags (w.off + x.1) x.2)).foldl (fun s x =>
        let d := (b.drop (x.1 - w.off)).take x.2
        if x.2 % 64 = 0 then send s 0x10 (linesOpw (at_ x.1 / 64) 511 61 (x.2 / 64) false) d
        else send s 0x11 (offOpw (at_ x.1) 511 61 false 0) (d ++ List.replicate (63 - x.2) 0 ++ [BitVec.ofNat 8 x.2])) s
    | .add64 x => send s 0x15 (offOpw (at_ w.off) 511 61 false 0) (leBytes 8 x.toNat ++ leBytes 8 0)
    | .add32 x => send s 0x15 (offOpw (at_ w.off) 511 61 false 1) (leBytes 8 x.toNat ++ leBytes 8 0)
    | .cas e x => send s 0x15 (offOpw (at_ w.off) 511 61 false 2) (leBytes 8 e.toNat ++ leBytes 8 x.toNat), true)

/-- A write of whole lines, or one that is a partial write (R393), at the Cuff; whether it has been taken. -/
def cuffWrite (s : State) (who : Asker) (p off : Nat) (op : PartialOp) : State × Bool :=
  match op with
  | .bytes b =>
    if off % 64 = 0 ∧ b.length % 64 = 0 then
      match s.lineWrite p off b with
      | some s => (s.heat who p (b.length / 64), true)
      | none => (s, false)
    else
      let r := s.partialWrite .engine p off op
      match r.2 with
      | .wait => (s, false)
      | _ => (r.1.heat who p 1, true)
  | _ =>
    let r := s.partialWrite .engine p off op
    match r.2 with
    | .wait => (s, false)
    | .pending => (r.1.heat who p 1, true)
    | .landed old => ((r.1.heat who p 1).brimSees p off op (leNat (old.getD [])), true)

/-- One try of a write that lies within the whole lines, or within one line, of a page: what it leaves, and whether it still waits. A page that no longer
serves it loses it. (DEDUCED, log entry 141) -/
def engTry (s : State) (w : EngWrite) : State × Bool :=
  let a := s.access (engAsker w.region) w.part (w.off / pageSize) true
  match a.2 with
  | .served p => let t := a.1.cuffWrite (engAsker w.region) p (w.off % pageSize) w.op; (t.1, !t.2)
  | .wait => (a.1, true)
  | .loan lender index => let t := a.1.lendWrite lender index w; (t.1, !t.2)
  | .refused _ _ => (a.1, false)

/-- Engines' writes that wait are tried again, oldest first; the later ones of an engine stand behind its first that still waits. -/
def drainEngine (s : State) : State :=
  let t := s.mem.engine.foldl (fun (a : State × List EngWrite) w =>
    if a.2.any (fun x => x.region = w.region ∧ x.part = w.part) then (a.1, a.2 ++ [w])
    else let r := a.1.engTry w; if r.2 then (r.1, a.2 ++ [w]) else (r.1, a.2)) (s.onMem (fun m => { m with engine := [] }), [])
  t.1.onMem (fun m => { m with engine := t.2 })

/-- A write's parts: whole lines of one page, or bytes of one line (R393, R527): offset in the window, bytes. -/
def writeParts (o : Nat) (b : Bytes) : List (Nat × Bytes) :=
  ((List.range ((o + b.length - 1) / pageSize - o / pageSize + 1)).flatMap (fun i =>
    let lo := max o ((o / pageSize + i) * pageSize)
    let hi := min (o + b.length) ((o / pageSize + i + 1) * pageSize)
    pieceFrags lo (hi - lo))).map (fun x => (x.1, (b.drop (x.1 - o)).take x.2))

/-- An engine writes bytes at a window offset of a partition, behind its earlier writes; whether a page serves it. -/
def enginePut (s : State) (region : Option Nat) (part o : Nat) (b : Bytes) : State × Bool :=
  match (s.access (engAsker region) part (o / pageSize) true).2 with
  | .refused _ _ => (s, false)
  | _ => ((writeParts o b).foldl (fun s x => s.post ⟨region, part, x.1, .bytes x.2⟩) s, true)

/-- A write of a step that is retried as a whole: none where it must wait; an address not served is told apart. -/
def engineWrite (s : State) (part o : Nat) (bs : Bytes) : State × Option Bool :=
  (writeParts o bs).foldl (fun acc x =>
    match acc.2 with
    | some true =>
      let a := acc.1.access .ld part (x.1 / pageSize) true
      match a.2 with
      | .served p => let t := a.1.cuffWrite .ld p (x.1 % pageSize) (.bytes x.2); (t.1, if t.2 then some true else none)
      | .wait => (a.1, none)
      | .loan lender index => let t := a.1.lendWrite lender index ⟨none, part, x.1, .bytes x.2⟩; (t.1, if t.2 then some true else none)
      | .refused _ _ => (a.1, some false)
    | _ => acc) (s, some true)

/-! Reads. -/

/-- Whether a write of an engine to some lines of a page is still under way: a later read of an engine waits for it. -/
def engineBehind (s : State) (part v line n : Nat) (p : Option Nat) : Bool :=
  s.mem.engine.any (fun w => decide (w.part = part ∧ w.off / pageSize = v)) ||
  (match p with
   | some p => (s.region (pageRegion p)).cuff.merge.any (fun e => decide (e.page = p ∧ line ≤ e.line ∧ e.line < line + n) && e.pend.any (fun w => w.who == .engine))
   | none => false)

/-- A read of lines of a virtual page from another chip. -/
def fetchOf (s : State) (chip part v line n : Nat) : Option EngFetch :=
  s.mem.fetched.find? (fun f => f.chip = chip && f.part = part && f.vpage = v && f.line = line && f.lines = n)

/-- Lines of a virtual page are asked of another chip, where the page begins at window offset `base` (R290, R366), in frames of MSLOT 58. (DEDUCED, log entry 141) -/
def fetchAsk (s : State) (chip part v line n base : Nat) : State :=
  if (s.fetchOf chip part v line n).isSome then s
  else match s.chooseLink chip 511 with
    | none => s
    | some j =>
      let ps := pieces (base + 64 * line) (64 * n)
      let s := ps.foldl (fun s x =>
        (s.queueOn j 0x13 part 2 chip (linesOpw ((base + 64 * line + x.1) / 64) 511 58 (x.2 / 64) false) []).onNet
          (fun k => { k with eng := k.eng ++ [(chip, 58)] })) s
      s.onMem (fun m => { m with fetched := m.fetched ++ [⟨part, v, line, n, chip, ps.length, [], 0⟩] })

/-- A reply with lines that an engine has asked of another chip. -/
def fetchGot (s : State) (chip status code : Nat) (b : Bytes) : State :=
  match s.mem.fetched.find? (fun f => f.chip = chip && decide (f.left ≠ 0)) with
  | none => s
  | some f => s.onMem (fun m => { m with fetched := m.fetched.map (fun x =>
      if x = f then { x with left := x.left - 1, got := x.got ++ b, code := if x.code = 0 ∧ 1 < status then code else x.code } else x) })

/-- What a read of lines from another chip has brought; one that was refused is dropped, and made again where `again` says so. -/
def fetchGet (s : State) (chip part v line lines base o n : Nat) (again : Bool) : EngRead :=
  match s.fetchOf chip part v line lines with
  | none => .wait (fun s => s.fetchAsk chip part v line lines base)
  | some f =>
    let drop (s : State) : State := s.onMem (fun m => { m with fetched := m.fetched.erase f })
    if f.left ≠ 0 then .wait id
    else if f.code = 0 then .got (drop s) ((f.got.drop (o % 64)).take n)
    else if again then .wait drop
    else .missing (drop s) f.code

/-- A read of an engine at window offset `o`, within one page (R309, R316, R366, R382). -/
def engineRead (s : State) (region : Option Nat) (part o n : Nat) : EngRead :=
  let who := engAsker region
  let v := o / pageSize
  let line := o % pageSize / 64
  let lines := (o % pageSize + n + 63) / 64 - line
  let a := s.access who part v false
  match a.2 with
  | .wait => .wait id
  | .refused _ code => .missing a.1 code
  | .loan lender index =>
    if s.engineBehind part v line lines none then .wait id
    else a.1.fetchGet (s.chip / 8 * 8 + lender) part v line lines (s.guestOff index 0) o n true
  | .served p =>
    if s.engineBehind part v line lines (some p) then .wait id
    else
      let ls := (List.range lines).map (line + ·)
      let t := a.1.checkLines p ls
      if t.2 then .got (t.1.heat who p lines) (t.1.mem.read p (o % pageSize) n) else .wait (fun s => (s.checkLines p ls).1)

/-- A list of reads, one after another. -/
def engineReads (s : State) (region : Option Nat) (part : Nat) : List (Nat × Nat) → EngRead
  | [] => .got s []
  | x :: xs => match s.engineRead region part x.1 x.2 with
    | .got s b => match engineReads s region part xs with
      | .got s c => .got s (b ++ c)
      | r => r
    | r => r

/-- The parts of a run of bytes that lie in one page each: offset, bytes. -/
def pageParts (o n : Nat) : List (Nat × Nat) :=
  (List.range ((o + n - 1) / pageSize - o / pageSize + 1)).map (fun i =>
    let lo := max o ((o / pageSize + i) * pageSize)
    (lo, min (o + n) ((o / pageSize + i + 1) * pageSize) - lo))

/-- Reads of parts of pages from another chip, one after another. -/
def fetchReads (s : State) (chip part : Nat) : List (Nat × Nat) → EngRead
  | [] => .got s []
  | x :: xs => match s.fetchGet chip part (x.1 / pageSize) (x.1 % pageSize / 64) ((x.1 % pageSize + x.2 + 63) / 64 - x.1 % pageSize / 64) (x.1 / pageSize * pageSize)
      x.1 x.2 false with
    | .got s b => match fetchReads s chip part xs with
      | .got s c => .got s (b ++ c)
      | r => r
    | r => r

/-- A read by an engine at a fabric address, checked as a GET of partition `p` is (R290, R507). -/
def engineGet (s : State) (region : Option Nat) (p addr n : Nat) : EngRead :=
  let m := MoverOp.plain 0xC0 (BitVec.ofNat 64 addr) n
  match s.firstCheck p m with
  | some c => .missing s c.2
  | none => if m.chip = s.chip then s.engineReads region m.part (pageParts m.off n) else s.fetchReads m.chip m.part (pageParts m.off n)

/-! Signals and the end of a ring's command. -/

/-- A flag at a fabric address rises by one, as PUT_SIGNAL raises its signal (R278, R564): nothing where a check of R507 fails. (DEDUCED, log entry 141) -/
def engineSignal (s : State) (region : Option Nat) (p addr : Nat) : State :=
  let m := MoverOp.plain 0xC3 (BitVec.ofNat 64 addr) 8
  match s.firstCheck p m with
  | some _ => s
  | none =>
    if addr % 8 ≠ 0 then s
    else if m.chip = s.chip then s.post ⟨region, m.part, m.off, .add64 1⟩
    else match s.sendTo m.chip m.part 0x12 m.part 2 (offOpw m.off 511 61 true 0) [] with
      | some s => s.onNet (fun n => { n with eng := n.eng ++ [(m.chip, 61)] })
      | none => s

/-- A command of a ring ends (R278, R537): its STATUS, then its signal. -/
def slotDone (s : State) (region : Option Nat) (part slotOff code : Nat) (signal : Nat) : State :=
  (s.enginePut region part (slotOff + 56) (leBytes 8 code)).1.engineSignal region part signal

end State

/-- The effect of a command on the device, after which engines' writes that nothing holds any more land. (DESIGN CHOICE, log entry 1; DEDUCED, log entry 141) -/
def liveEng (s : State) (f : State → State) : Host.Outcome State Fault Refusal :=
  if s.halt.isSome then .next s else .next (f s).drainEngine

end Sys2Proof.Machine
end

