-- ==== Sys2Proof/Machine/Mover.lean ====
section
/-!
DEFINITION. The mover: what an operation does after it has left its slot (R498 to R530).
-/
namespace Sys2Proof.Machine
namespace State

/-- The hazard waits of R76: a fill waits for readers and writers of its target lines, a send for writers of its source lines; a spill tile is read and
written. -/
def moverClear (c : Core) (m : MoverOp) : Bool :=
  let fills := m.isGet || m.isAtomic
  let hits (rs : List (Nat × Nat)) : Bool := rs.any (fun r => Core.rangesMeet r m.lines)
  m.isFence || c.unret.all (fun u => !hits (u.foot.writeLines ++ u.foot.spill) && !(fills && hits u.foot.readLines))

/-- Whether an earlier operation keeps this one in its slot: a FENCE of its scope (R510), or the channel's order (R508). (DEDUCED, log entry 38) -/
def moverHeld (c : Core) (chip : Nat) (m : MoverOp) : Bool :=
  c.mover.any (fun x => decide (x.order < m.order) &&
    (if x.isFence then decide (x.dtype = 1) || decide (x.chip = m.chip ∧ x.part = m.part)
     else m.ordered && x.ordered && decide (x.chip = m.chip ∧ x.part = m.part) &&
       (if m.chip = chip then decide (x.stage ≠ .done) else decide (x.stage = .waiting ∨ x.stage = .quota))))

/-- Whether earlier operations of a FENCE's scope have all completed (R510). (DEDUCED, log entry 38) -/
def fenceOpen (c : Core) (m : MoverOp) : Bool :=
  !c.mover.any (fun x => decide (x.order < m.order) && (decide (m.dtype = 1) || decide (x.chip = m.chip ∧ x.part = m.part)))

/-- Bytes of a GET's target that a refusal leaves undefined (R514, R518): free values. -/
def loseBytes (s : State) (n : Nat) (m : MoverOp) (rel k : Nat) : State :=
  if m.isGet then
    let t := s.drawBytes k
    t.2.mapCore n (fun c => { c with sqb := Sparse.setRun 0 c.sqb (m.al.toNat + rel) t.1 })
  else s

/-- An operation ends before anything has left the chip. -/
def refuseOp (s : State) (n : Nat) (m : MoverOp) (status code : Nat) : State :=
  ((if status = 5 then s.loseBytes n m 0 m.len else s).raiseOp n m code).onOp n m.slot (fun m => m.refuse status code)

/-! Local pieces. -/

/-- Where the write of a piece ends up. -/
inductive PieceEnd where
  | next (s : State)
  | wait (s : State)

/-- A piece's frames to another chip (R525, R527), each with the request that its reply closes; `rel` is the offset from aAF of the first byte, `o` the
offset in the destination's window. -/
def sendPiece (s : State) (n : Nat) (m : MoverOp) (j dst o rel k : Nat) : State :=
  if m.isGet then
    let line := o / 64
    let cnt := (o + k - 1) / 64 - line + 1
    (s.queueOn j 0x13 m.part m.cls dst (linesOpw line n m.slot cnt m.relax) []).onOp n m.slot
      (fun m => { m with reqs := m.reqs ++ [⟨dst, rel, k⟩] })
  else
    (pieceFrags o k).foldl (fun s x =>
      let r := rel + (x.1 - o)
      let bs := (s.core n).readSqb (m.al.toNat + r) x.2
      let s := if x.2 % 64 = 0 then s.queueOn j 0x10 m.part m.cls dst (linesOpw (x.1 / 64) n m.slot (x.2 / 64) m.relax) bs
        else s.queueOn j 0x11 m.part m.cls dst (offOpw x.1 n m.slot m.relax 0) (bs ++ List.replicate (63 - x.2) 0 ++ [BitVec.ofNat 8 x.2])
      s.onOp n m.slot (fun m => { m with reqs := m.reqs ++ [⟨dst, r, x.2⟩] })) s

/-- An atomic's frame to another chip (R525). -/
def sendAtomic (s : State) (n : Nat) (m : MoverOp) (j dst o : Nat) : State :=
  let body := leBytes 8 m.sv.toNat ++ leBytes 8 m.sw.toNat
  (s.queueOn j 0x15 m.part m.cls dst (offOpw o n m.slot m.relax m.kind) body).onOp n m.slot
    (fun m => { m with reqs := m.reqs ++ [⟨dst, 0, m.len⟩] })

/-- Progress past a piece; the caller counts what is still owed. -/
def passPiece (s : State) (n slot k : Nat) : State := s.onOp n slot (fun m => { m with progress := m.progress + k })

/-- One piece of an operation on this chip's own memory (R505, R527). -/
def localPiece (s : State) (n : Nat) (m : MoverOp) (ev : List MemEvent) : PieceEnd :=
  let rel := m.progress
  let o := m.at_ rel
  let k0 := if m.isAtomic then m.len else pieceLen o (m.len - rel)
  let whole := decide (m.op = 0xC1 ∨ m.op = 0xC2 ∨ m.op = 0xC5) && decide (o % pageSize = 0 ∧ pageSize ≤ m.len - rel)
  let k := if whole then pageSize else k0
  let who : Asker := .region (n / 32)
  let write := !m.isGet
  let a := s.access who m.part (o / pageSize) write
  let s := a.1
  match a.2 with
  | .wait => .wait s
  | .refused st code =>
    .next ((s.raiseOp n m code).onOp n m.slot (fun m => { m.fail rel st code with progress := m.progress + k }))
  | .loan lender index =>
    let g := s.guestPage lender index
    match s.chooseLink g.1 (channelHash n m.part) with
    | none => .next ((s.loseBytes n m rel k).onOp n m.slot (fun m => { m.fail rel 5 0x3009 with progress := m.progress + k }))
    | some j =>
      let o' := g.2 * pageSize + o % pageSize
      if m.isAtomic then .next ((s.sendAtomic n m j g.1 o').passPiece n m.slot k)
      else
        let s := (pieces o' k).foldl (fun s x => s.sendPiece n m j g.1 (o' + x.1) (rel + x.1) x.2) s
        .next (s.passPiece n m.slot k)
  | .served p =>
    let t := s.faults who p (o % pageSize / 64) ev
    if !t.2 then .wait t.1
    else
      let s := t.1
      let lines := (o % pageSize + k - 1) / 64 - o % pageSize / 64 + 1
      if m.isGet then
        let want := (List.range lines).map (fun i => o % pageSize / 64 + i)
        let t := s.regionRead (n / 32) p want
        if !t.2 then .wait t.1
        else
          let bs := t.1.mem.read p (o % pageSize) k
          .next ((t.1.mapCore n (fun c => c.fillPiece m rel bs)).passPiece n m.slot k)
      else if m.isAtomic then
        let r := s.partialWrite (.core n m.slot) p (o % pageSize) m.atomicOp
        match r.2 with
        | .wait => .wait r.1
        | .pending => .next (((r.1.heat who p 1).onOp n m.slot (fun m => { m with owed := m.owed + 1 })).passPiece n m.slot k)
        | .landed old =>
          let s := (r.1.heat who p 1).passPiece n m.slot k
          let s := s.brimSees p (o % pageSize) m.atomicOp (leNat (old.getD []))
          .next (match old with
            | some b => s.mapCore n (fun c => c.writeSqb m.al.toNat b)
            | none => s)
      else if whole then
        let bs := (s.core n).readSqb (m.al.toNat + rel) pageSize
        let t := s.openTracker p (s.mem.record p).kgen (.core n m.slot)
        if t.2 then .next ((((t.1.writeTracked p bs).heat who p 256).onOp n m.slot (fun m => { m with owed := m.owed + 1 })).passPiece n m.slot k)
        else .wait t.1
      else
        let bs := (s.core n).readSqb (m.al.toNat + rel) k
        match pieceFrags (o % pageSize) k with
        | [(x, y)] =>
          if y % 64 = 0 then
            match s.lineWrite p x bs with
            | some s => .next ((s.heat who p lines).passPiece n m.slot k)
            | none => .wait s
          else
            let r := s.partialWrite (.core n m.slot) p x (.bytes bs)
            match r.2 with
            | .wait => .wait r.1
            | .pending => .next (((r.1.heat who p 1).onOp n m.slot (fun m => { m with owed := m.owed + 1 })).passPiece n m.slot k)
            | .landed _ => .next ((r.1.heat who p 1).passPiece n m.slot k)
        | (_, y) :: _ =>
          -- a piece of both whole lines and parts of lines goes part by part
          let bs := bs.take y
          if y % 64 = 0 then
            match s.lineWrite p (o % pageSize) bs with
            | some s => .next ((s.heat who p (y / 64)).passPiece n m.slot y)
            | none => .wait s
          else
            let r := s.partialWrite (.core n m.slot) p (o % pageSize) (.bytes bs)
            match r.2 with
            | .wait => .wait r.1
            | .pending => .next (((r.1.heat who p 1).onOp n m.slot (fun m => { m with owed := m.owed + 1 })).passPiece n m.slot y)
            | .landed _ => .next ((r.1.heat who p 1).passPiece n m.slot y)
        | [] => .next (s.passPiece n m.slot k)

/-- The signal of a PUT_SIGNAL on this chip, once all its data has landed (R506). -/
def localSignal (s : State) (n : Nat) (m : MoverOp) : State :=
  let o := bitsNat m.as_.toNat 44 0
  let a := s.access (.region (n / 32)) m.part (o / pageSize) true
  let s := a.1
  match a.2 with
  | .wait => s
  | .refused st code => (s.raiseOp n m code).onOp n m.slot (fun m => { m.fail m.len st code with signalOwed := false })
  | .loan lender index =>
    let g := s.guestPage lender index
    match s.chooseLink g.1 (channelHash n m.part) with
    | none => s.onOp n m.slot (fun m => { m.fail m.len 5 0x3009 with signalOwed := false })
    | some j => (s.queueOn j 0x12 m.part m.cls g.1 (offOpw (g.2 * pageSize + o % pageSize) n m.slot m.relax 0) []).onOp n m.slot
        (fun m => { m with signalOwed := false, reqs := m.reqs ++ [⟨g.1, m.len, 8⟩] })
  | .served p =>
    let r := s.partialWrite (.core n m.slot) p (o % pageSize) (.add64 1)
    match r.2 with
    | .wait => r.1
    | .pending => r.1.onOp n m.slot (fun m => { m with owed := m.owed + 1, signalOwed := false })
    | .landed old => (r.1.brimSees p (o % pageSize) (.add64 1) (leNat (old.getD []))).onOp n m.slot (fun m => { m with signalOwed := false })

/-- Pieces of a local operation until one must wait. -/
def runLocal : Nat → State → Nat → Nat → List MemEvent → State
  | 0, s, _, _, _ => s
  | fuel + 1, s, n, slot, ev =>
    match s.moverOp n slot with
    | none => s
    | some m =>
      if m.progress < m.len then
        match s.localPiece n m ev with
        | .wait s => s
        | .next s => runLocal fuel s n slot []
      else
        let s := if m.signalOwed && decide (m.owed = 0 ∧ m.reqs = [] ∧ m.status = 0) then s.localSignal n m else s
        s.onOp n slot MoverOp.settle

/-! Exports. -/

/-- A PUT to the export window goes to the sealing engine, one export for each page named (R441). (DEDUCED, log entry 42) -/
def takeExports (s : State) (n : Nat) (m : MoverOp) : State :=
  let p := (s.core n).spec.part.toNat
  let step := (Sparse.get CrownPart.none s.crown.parts p).step
  let last := (m.off + m.len - 1) / pageSize
  let s := (List.range (last - m.vpage + 1)).foldl (fun s i =>
    let v := m.vpage + i
    let lo := max m.off (v * pageSize)
    let hi := min (m.off + m.len) ((v + 1) * pageSize)
    match s.exportRule p v with
    | none => s
    | some r =>
      let rule := v - 0x3FFFF000
      let id := (s.part p).session
      let x := s.session id
      let s := s.setSession id { x with used := x.used.filter (fun u => !(u.1 = rule && u.2.1 = step)) ++ [(rule, step, usedBytes x rule step + (hi - lo))] }
      { s with host := { s.host with exports := s.host.exports ++
          [⟨p, rule, r.form, r.dest, n, m.slot, step, (s.core n).readSqb (m.al.toNat + (lo - m.off)) (hi - lo)⟩] } }) s
  s.onOp n m.slot (fun m => { m with progress := m.len, owed := last - m.vpage + 1, stage := .sent })

/-! Quota (R521, R522). -/

def quotaTokens (m : MoverOp) : Nat := if m.isFence then 0 else if m.isAtomic then 8 else m.len

/-- Tokens added over `ns` nanoseconds, within BURST. -/
def addTokens (s : State) (p ns : Nat) : State :=
  match s.partDecl p with
  | some d => let x := s.part p
              s.setPart p { x with tokens := min (x.tokens + d.rate * ns) (d.burst * 2 ^ 20) }
  | none => s

/-- Whether a partition's quota lets an operation pass. -/
def quotaOpen (s : State) (p : Nat) (m : MoverOp) : Bool :=
  p = 0 || (match s.partDecl p with
    | some d => decide ((s.part p).inflight < d.inflight ∧ quotaTokens m ≤ (s.part p).tokens)
    | none => true)

/-- Earlier ordered operations of the channel that still stand at the quota stage (R522). -/
def quotaBehind (c : Core) (m : MoverOp) : Bool :=
  c.mover.any (fun x => decide (x.order < m.order ∧ x.stage = .quota ∧ x.chip = m.chip ∧ x.part = m.part))

/-- All frames of an operation to another chip join its channel's link (R525, R527). -/
def sendOp (s : State) (n : Nat) (m : MoverOp) (j : Nat) : State :=
  let s := if m.isAtomic then s.sendAtomic n m j m.chip m.off
    else (pieces m.off m.len).foldl (fun s x => s.sendPiece n m j m.chip (m.off + x.1) x.1 x.2) s
  let s := if m.signalOwed then
      (s.queueOn j 0x12 m.part m.cls m.chip (offOpw (bitsNat m.as_.toNat 44 0) n m.slot m.relax 0) []).onOp n m.slot
        (fun m => { m with signalOwed := false, reqs := m.reqs ++ [⟨m.chip, m.len, 8⟩] })
    else s
  s.onOp n m.slot (fun m => { m with progress := m.len, stage := .passed })

/-- The quota stage is passed (R522): tokens are taken, and the frames join the link. (DEDUCED, log entry 39) -/
def quotaPass (s : State) (n slot ns : Nat) : State :=
  match s.moverOp n slot with
  | none => s
  | some m =>
    let p := m.part
    let s := s.addTokens p ns
    if m.stage ≠ .quota ∨ quotaBehind (s.core n) m ∨ !s.quotaOpen p m then s
    else
      let x := s.part p
      let s := if p = 0 then s else s.setPart p { x with inflight := x.inflight + 1, tokens := x.tokens - quotaTokens m }
      let s := s.onOp n slot (fun m => { m with tokens := max (quotaTokens m) 1 })
      if m.isFence then s.onOp n slot (fun m => { m with stage := .done })
      else if m.inHost then s.onOp n slot (fun m => { m with stage := .passed })
      else if m.op = 0xC5 then s.refuseOp n m 6 0x3203
      else
        match s.chooseLink m.chip (channelHash n m.part) with
        | some j => s.sendOp n m j
        | none => s.refuseOp n m 5 0x3009

/-! Replies (R525, R526). -/

/-- The first request to a chip that an operation still awaits, taken off. -/
def takeReq (m : MoverOp) (chip : Nat) : Option (MoverReq × MoverOp) :=
  match m.reqs.find? (fun r => r.chip = chip) with
  | none => none
  | some r => some (r, { m with reqs := m.reqs.erase r })

/-- A reply reaches its operation: `land` says what an OK reply brings. -/
def reply (s : State) (n slot chip status code : Nat) (land : State → MoverOp → MoverReq → State) : State :=
  match s.moverOp n slot with
  | none => s
  | some m =>
    match takeReq m chip with
    | none => s
    | some (r, _) =>
      let s := s.onOp n slot (fun m => match takeReq m chip with | some t => t.2 | none => m)
      let s := if status ≤ 1 then (land s m r).onOp n slot (fun m => { m with floored := m.floored || decide (status = 1) }) else if code = 0x3108 then s
        else s.onOp n slot (fun m => m.fail r.rel status code)
      s.onOp n slot MoverOp.settle

/-- Lines that a GET asked for land at aAL (R527). -/
def landGet (payload : Bytes) (n : Nat) (s : State) (m : MoverOp) (r : MoverReq) : State :=
  let skip := m.at_ r.rel % 64
  s.mapCore n (fun c => c.fillPiece m r.rel ((payload.drop skip).take r.len))

/-- An atomic's old value lands at aAL (R502). -/
def landAtomic (payload : Bytes) (n : Nat) (s : State) (m : MoverOp) (_ : MoverReq) : State :=
  s.mapCore n (fun c => c.writeSqb m.al.toNat (payload.take m.len))

/-! Completion (R512 to R518). -/

/-- Delay class (R523). (DEDUCED, log entry 156) -/
def delayClass (d us : Nat) : Nat := if us ≤ d then 0 else if us ≤ 10 * d then 1 else if us ≤ 100 * d then 2 else 3

/-- The counter of operations that completed with a status (R530). -/
def statusCounter (status : Nat) : Nat := ctl 0x000E (0x108 + 4 * (status - 1))

/-- A status record (R517). (DESIGN CHOICE, log entry 126) -/
def statusRecord (m : MoverOp) (status code k : Nat) (delay : Nat) : Bytes :=
  leBytes 1 status ++ leBytes 1 m.op ++ leBytes 2 code ++ leBytes 4 k ++
  leBytes 8 (m.af + BitVec.ofNat 64 (if status = 1 then 0 else m.failAt)).toNat ++ leBytes 4 m.index ++ leBytes 4 m.slotno.toNat ++
  leBytes 1 m.cc ++ leBytes 1 delay ++ leBytes 1 m.slot ++ List.replicate 5 0

/-- SREC as the ring's first byte and its entries (R97, R516); none where it is 0. -/
def recordRing (c : Core) : Option (Nat × Nat) :=
  let w := c.spec.srec.toNat
  if w = 0 then none else some (bitsNat w 13 0 * 64, 2 * (bitsNat w 27 14 + 1))

/-- Whether the record of an operation must wait for its line (R516). -/
def recordBlocked (c : Core) (m : MoverOp) : Bool :=
  match recordRing c with
  | none => false
  | some r =>
    let line := (r.1 + 32 * (c.records % r.2)) / 64
    m.status ≠ 0 && c.unret.any (fun u => (u.foot.readLines ++ u.foot.writeLines).any (fun x => Core.rangesMeet x (line, 1)))

/-- An earlier ordered operation of the channel that has not completed (R512). -/
def completionHeld (c : Core) (m : MoverOp) : Bool :=
  m.ordered && c.mover.any (fun x => decide (x.order < m.order) && x.ordered && decide (x.chip = m.chip ∧ x.part = m.part))

/-- An operation completes (R514): its record, then its counter; the slot is free. A GET of which some pieces have not landed leaves no slot it touches
clean (R84). `us` is the time since issue. (DEDUCED, log entry 40) -/
def complete (s : State) (n slot us : Nat) : State :=
  match s.moverOp n slot with
  | none => s
  | some m =>
    let c := s.core n
    let d := s.regField (ctl 0x000E 0x100) 23 12
    let late := decide (d ≠ 0 ∧ d < us)
    let status := if m.status ≠ 0 then m.status else if late || m.floored then 1 else 0
    let code := if status = 1 then 0x3107 else m.code
    if m.stage ≠ .done ∨ completionHeld c m ∨ recordBlocked c { m with status := status } then s
    else
      let p := m.part
      let s := if m.tokens = 0 ∨ p = 0 then s else s.setPart p { s.part p with inflight := (s.part p).inflight - 1 }
      let s := if status = 4 then s.loseBytes n m 0 m.len else s
      let torn := status = 4 ∨ status = 5 ∨ status = 6 ∧ (code / 256 = 0x20 ∨ code / 256 = 0x21 ∨ code = 0x0206 ∨ code = 0x0207)
      let s := if m.isGet ∧ torn then
          s.mapCore n (fun c => { c with clean := c.clean.filter (fun e => !Core.slotTouched m.al.toNat m.len e.1) })
        else s
      let s := if status = 0 then s else s.count (statusCounter status) 1
      let s := if status = 2 then s.count (ctl 0x000E (0x204 + 8 * p)) 1 else s
      let s := if status = 1 then s.raiseOp n m 0x3107 else s
      let s := if status = 0 then s else
        s.mapCore n (fun c => match recordRing c with
          | none => c
          | some r =>
            let delay := delayClass d us + b2n m.floored * 4 + m.cls * 8
            let c := c.writeSqb (r.1 + 32 * (c.records % r.2)) (statusRecord m status code (c.records % 2 ^ 32) delay)
            { c with records := c.records + 1 })
      let v := (s.core n).getCc m.cc
      let s := s.mapCore n (fun c => { c with mover := c.mover.filter (fun x => x.slot ≠ slot) })
      if v = BitVec.allOnes 32 then
        let c := s.core n
        s.putCore n ⟨c.note 0x100E, [c.logOf 0x100E]⟩
      else s.mapCore n (fun c => c.setCc m.cc (v + 1))

/-! The host window (R670 to R672). -/

/-- CTR of a partition's host window. -/
def hostCtr (s : State) (p : Nat) : Nat := Sparse.get 0 s.host.hostCtr p

/-- Whether a block is served (R670). (DESIGN CHOICE, log entry 41) -/
def hostBlockOk (s : State) (p i : Nat) : Bool :=
  (s.reg (ctl 2 (0x400 + 0x20 * p))).toNat.testBit 0 && decide (i < s.regField (ctl 2 (0x414 + 0x20 * p)) 29 0)

/-- Additional data of block `i` of partition `p` (R672). -/
def hostAad (p i : Nat) : Bytes := leBytes 8 i ++ leBytes 1 p ++ List.replicate 7 0

/-- A block sealed under the partition's host-window key (R671, R672): ciphertext and trailer. -/
def sealBlock (key p i ctr : Nat) (text : Bytes) : Bytes :=
  let iv := keyPart key 32 4 ++ leBytes 8 ctr
  let ct := gcmText (keyPart key 0 32) iv text
  ct ++ leBytes 8 ctr ++ gcmTag (keyPart key 0 32) iv (hostAad p i) ct ++ List.replicate 8 0

/-- A block and its trailer opened (R672): none where the tag fails or the trailer's last bytes are not zero. -/
def openBlock (key p i : Nat) (b : HostBlock) : Option Bytes :=
  let ct := (b.data ++ List.replicate 4096 0).take 4096
  let tr := (b.trailer ++ List.replicate 32 0).take 32
  let iv := keyPart key 32 4 ++ tr.take 8
  if gcmTag (keyPart key 0 32) iv (hostAad p i) ct = (tr.drop 8).take 16 ∧ tr.drop 24 = List.replicate 8 0 then some (gcmText (keyPart key 0 32) iv ct) else none

/-- A passed operation on the host window moves its blocks through slot 2p of the PCIe Cuff (R378, R671); `blocks` are the host's answers to a GET, block by
block. (DESIGN CHOICE, log entry 41) -/
def hostTransfer (s : State) (n slot : Nat) (blocks : List HostBlock) : State :=
  match s.moverOp n slot with
  | none => s
  | some m =>
    if m.stage ≠ .passed ∨ !m.inHost then s
    else
      let p := m.part
      let first := (m.off - 0x30000000 * pageSize) / 4096
      let s := (List.range (m.len / 4096)).foldl (fun s k =>
        let i := first + k
        let rel := 4096 * k
        let bad (s : State) (code : Nat) : State := (s.raiseOp n { m with af := m.af + BitVec.ofNat 64 rel } code).onOp n slot (fun m => m.fail rel 6 code)
        let key := s.heldKeys 58 (2 * p)
        if !s.hostBlockOk p i then bad s 0x0207
        else if key = 0 then bad s 0x2101
        else if !(s.takeSlot 58 (2 * p) 0 0).2 then (s.takeSlot 58 (2 * p) 0 0).1
        else if m.isGet then
          match (blocks[k]?).bind (openBlock key p i) with
          | some data => s.mapCore n (fun c => c.fillPiece m rel data)
          | none => bad s 0x0206
        else
          let ctr := s.hostCtr p
          ({ s with host := { s.host with hostCtr := Sparse.set 0 s.host.hostCtr p (ctr + 1) } }).emit
            (.dma p i ctr (sealBlock key p i ctr ((s.core n).readSqb (m.al.toNat + rel) 4096)))) s
      s.onOp n slot (fun m => { m with progress := m.len, stage := .done })

end State
end Sys2Proof.Machine
end

