-- ==== Sys2Proof/Machine/Reduce.lean ====
section
/-!
DEFINITION. Gradient reduction: jobs, contributions, the adds and their order, frames and completion (R532 to R569).
-/
namespace Sys2Proof.Machine
namespace RedJob

/-- A little-endian field of the command slot (R538). -/
def fld (j : RedJob) (off n : Nat) : Nat := leNat ((j.cmd.drop off).take n)

def job (j : RedJob) : Nat := j.fld 1 1
def wire (j : RedJob) : Nat := j.fld 2 1
def result (j : RedJob) : Nat := j.fld 3 1
def elems (j : RedJob) : Nat := j.fld 8 4
def bucketElems (j : RedJob) : Nat := j.fld 12 1 * 524288
def inflight (j : RedJob) : Nat := j.fld 14 1
def contribOff (j : RedJob) : Nat := j.fld 16 4 * pageSize
def resultOff (j : RedJob) : Nat := j.fld 20 4 * pageSize
def scaleOff (j : RedJob) : Nat := j.fld 24 4 * pageSize
def xdef (j : RedJob) : Nat := j.fld 28 1
def doneFlag (j : RedJob) : Nat := j.fld 40 8
def signal (j : RedJob) : Nat := j.fld 48 8

/-- Buckets of a round (R544). -/
def buckets (j : RedJob) : Nat := ceilDiv j.elems j.bucketElems

/-- Elements and blocks of a bucket (R544, R548). -/
def bucketSize (j : RedJob) (n : Nat) : Nat := min ((n + 1) * j.bucketElems) j.elems - n * j.bucketElems
def blocks (j : RedJob) (n : Nat) : Nat := j.bucketSize n / 32

/-- The step of the round (R558). -/
def step (j : RedJob) : Nat := (j.fld 32 6 + j.fld 13 1 * j.round) % 2 ^ 48

/-- Whether this round runs on VWB8 wire (R552). -/
def vwbRound (j : RedJob) : Bool := decide (j.wire = 3 ∧ j.round ≠ 0)

/-- Whether frames of a KIND may carry VWB8 blocks in this round (R552, R556, R562). -/
def vwbForm (j : RedJob) (kind : Nat) : Bool := (decide (2 ≤ kind) && decide (j.result = 1)) || j.vwbRound

/-- Landed bytes of a bucket. -/
def landedOf (j : RedJob) (n : Nat) : Nat := Sparse.get 0 j.landed n

/-- The round that a bucket stands in: the next one once it is complete (R546). -/
def roundOf (j : RedJob) (n : Nat) : Nat := if n < j.complete then j.round + 1 else j.round

def bucket (j : RedJob) (n : Nat) : Option RedBucket := j.flight.find? (fun b => b.n = n)
def onBucket (j : RedJob) (n : Nat) (f : RedBucket → RedBucket) : RedJob :=
  { j with flight := j.flight.map (fun b => if b.n = n then f b else b) }

end RedJob

/-- A part of `total` things divided into `k` by the floor rule (R548): first and end of part `i`. -/
def part_ (total k i : Nat) : Nat × Nat := (total * i / k, total * (i + 1) / k)

/-- The part that holds index `b`. -/
def partAt (total k b : Nat) : Nat := ((List.range k).find? (fun i => decide ((part_ total k i).1 ≤ b ∧ b < (part_ total k i).2))).getD 0

/-- This chip's place in a job (R535): rows G, width R, row, column, and the members. -/
structure RingPos where
  rows : Nat
  cols : Nat
  g : Nat
  c : Nat
  chips : List Nat
  stream : Nat

def RingPos.chipAt (r : RingPos) (g c : Nat) : Nat := r.chips.getD (g % r.rows * r.cols + c % r.cols) 0
def RingPos.groupPred (r : RingPos) : Nat := r.chipAt r.g (r.c + r.cols - 1)
def RingPos.groupSucc (r : RingPos) : Nat := r.chipAt r.g (r.c + 1)
def RingPos.fabPred (r : RingPos) : Nat := r.chipAt (r.g + r.rows - 1) r.c
def RingPos.fabSucc (r : RingPos) : Nat := r.chipAt (r.g + 1) r.c

/-- The distinct neighbours of a member (R535). -/
def RingPos.neighbours (r : RingPos) : List Nat :=
  ((if 2 ≤ r.cols then [r.groupPred, r.groupSucc] else []) ++ (if 2 ≤ r.rows then [r.fabPred, r.fabSucc] else [])).eraseDups

/-- Segment of a block, rail part within the segment, and piece within the rail part (R548, R549). -/
def RingPos.segOf (r : RingPos) (nb b : Nat) : Nat := partAt nb r.cols b
def RingPos.railOf (r : RingPos) (nb b : Nat) : Nat :=
  let seg := part_ nb r.cols (r.segOf nb b)
  partAt (seg.2 - seg.1) 8 (b - seg.1)
def RingPos.pieceOf (r : RingPos) (nb b : Nat) : Nat :=
  let seg := part_ nb r.cols (r.segOf nb b)
  let rail := part_ (seg.2 - seg.1) 8 (r.railOf nb b)
  partAt (rail.2 - rail.1) r.rows (b - seg.1 - rail.1)

/-- Whether a block of a RED_DATA frame is one that this member takes in that KIND (R548 to R551). -/
def RingPos.expects (r : RingPos) (nb kind b : Nat) : Bool :=
  let seg := r.segOf nb b
  match kind with
  | 0 => decide (seg ≠ (r.c + r.cols - 1) % r.cols)
  | 1 => decide (seg = r.c ∧ r.pieceOf nb b ≠ (r.g + r.rows - 1) % r.rows)
  | 2 => decide (seg = r.c ∧ r.pieceOf nb b ≠ r.g)
  | _ => decide (seg ≠ r.c)

/-! Values. -/

/-- The 32 values of a block. -/
def RedBlock.values : RedBlock → List FVal
  | .half e => e.map (fun w => bf16.decode w.toNat)
  | .vwb v => v.values

/-- floor_log2 of the largest magnitude, for finite values not all zero (R553). -/
def amaxLog (vs : List FVal) : Option Int :=
  if vs.any (fun v => !v.isFinite) then none
  else vs.foldl (fun m v => match v with
    | .fin _ k e => if k = 0 then m else match m with
      | some x => some (max x (floorLog2 k e))
      | none => some (floorLog2 k e)
    | _ => m) none

/-- X of the next round (R553). -/
def nextX (j : RedJob) (vs : List FVal) : Nat :=
  match amaxLog vs with
  | some l => (min (max (l + 127 + j.fld 15 1) 1) 251).toNat
  | none => j.xdef

/-- Draw index (R559). -/
def redDraw (elem phase pos t : Nat) : Nat := elem * 65536 + phase * 16384 + pos * 16 + t

/-- VWB8 encoding from a bump on, each bump with its own draws (R177, R178, R559). -/
def redEncode (X : Nat) (xs : List FVal) (rnd : Nat → Nat → Nat) : Nat → Nat → Option Vwb
  | 0, _ => none
  | fuel + 1, b =>
    if b > 3 then none
    else match vwbEncode X xs ((List.range 32).map (rnd b)) 1 b with
      | some v => some v
      | none => redEncode X xs rnd fuel (b + 1)

/-- BF16 by stochastic rounding with T = 8 (R550, R555). -/
def redHalf (xs : List FVal) (rnd : Nat → Nat → Nat) : RedBlock :=
  .half (xs.zipIdx.map (fun x => BitVec.ofNat 16 (encode bf16 (.sr (rnd 8 x.2)) x.1)))

/-- What a member passes on or holds for 32 values (R550, R554, R555): the block, and whether it fell back. `from_` is the block received, if any. -/
def redCode (vwb : Bool) (X : Nat) (from_ : Option RedBlock) (xs : List FVal) (rnd : Nat → Nat → Nat) : RedBlock × Bool :=
  match vwb, from_ with
  | true, some (.vwb v) => match redEncode X xs rnd 4 v.bump with
    | some v => (.vwb v, false)
    | none => (redHalf xs rnd, true)
  | true, none => match redEncode X xs rnd 4 0 with
    | some v => (.vwb v, false)
    | none => (redHalf xs rnd, true)
  | _, _ => (redHalf xs rnd, false)

/-- Bytes of a block in a frame or a page (R562). -/
def RedBlock.bytes : RedBlock → Bytes
  | .half e => e.flatMap (fun w => leBytes 2 w.toNat)
  | .vwb v => v.q ++ [BitVec.ofNat 8 v.exp, BitVec.ofNat 8 v.bump]

/-- A VWB8 block from its 34 bytes (R174); none where R176 makes it illegal. -/
def vwbFrom (b : Bytes) : Option Vwb :=
  let v : Vwb := ⟨b.take 32, ((b[32]?).getD 0).toNat, ((b[33]?).getD 0).toNat⟩
  if v.legal then some v else none

def halfFrom (b : Bytes) : List (BitVec 16) := (List.range 32).map (fun i => BitVec.ofNat 16 (leNat ((b.drop (2 * i)).take 2)))

/-- Blocks cut into frames (R562): consecutive ones, at most 64 in FORM 0, and 120 and 4 096 B in FORM 1. -/
def redChunk (form : Bool) : List (Nat × RedBlock) → List (List (Nat × RedBlock))
  | [] => []
  | x :: xs =>
    match redChunk form xs with
    | (y :: ys) :: rest =>
      let n : Nat := ys.length + 2
      let size : Nat := ((x :: y :: ys).map (fun z => z.2.bytes.length)).foldl (· + ·) 0
      if decide (x.1 + 1 = y.1) && (if form then decide (n ≤ 120 ∧ size + 16 ≤ 4096) else decide (n ≤ 64)) then (x :: y :: ys) :: rest else [x] :: (y :: ys) :: rest
    | other => [x] :: other

/-- Payload of a RED_DATA frame (R562). (DESIGN CHOICE, log entry 92) -/
def redPayload (form : Bool) (xs : List (Nat × RedBlock)) : Bytes :=
  let mask := xs.zipIdx.foldl (fun m x => match x.1.2 with | .half _ => m + 2 ^ x.2 | .vwb _ => m) 0
  (if form then leBytes 16 mask else []) ++ xs.flatMap (fun x => x.2.bytes)

namespace State

def onRed (s : State) (f : Reduce → Reduce) : State := { s with red := f s.red }
def redJob (s : State) (part job : Nat) : Option RedJob := s.red.jobs.find? (fun j => j.part = part && j.job = job)
def redEntry (s : State) (t : Nat) : Option RedJob := s.red.jobs.find? (fun j => j.entry = t)
def onJob (s : State) (t : Nat) (f : RedJob → RedJob) : State :=
  s.onRed (fun r => { r with jobs := r.jobs.map (fun j => if j.entry = t then f j else j) })

/-- This chip's place in the ring table of a job (R534, R535). -/
def ringPos (s : State) (part job : Nat) : Option RingPos :=
  match s.ringOf part job with
  | none => none
  | some t => match t.chips.findIdx? (· = s.chip) with
    | none => none
    | some i => some ⟨t.rows, max t.width 1, i / max t.width 1, i % max t.width 1, t.chips, t.stream⟩

/-- A reduction code with its arguments (R822). -/
def redRaise (s : State) (j : RedJob) (code bucket : Nat) : State := s.raise 0x000D code j.entry bucket (j.round % 2 ^ 32)

/-! Frames. -/

/-- A rail over which a chip is reached: up here and, as far as is known, there. -/
def railUp (s : State) (dst j : Nat) : Bool := s.linkUsable j && !s.net.far.contains (dst, j - 28)

/-- Link of a hop for data (R536): the group path's in turn, or the rails from one on. With none up, a frame waits on the first. (DESIGN CHOICE, log entry 92) -/
def redLink (s : State) (dst : Nat) (rail : Option Nat) : Nat :=
  let turn (js : List Nat) (up : List Nat) : Nat := (up[s.red.deal % max up.length 1]?).getD (js.headD 28)
  let rails (r : Nat) : List Nat := (List.range 8).map (fun i => 28 + (r + i) % 8)
  if dst / 8 = s.chip / 8 then turn (pathLinks s.chip dst 0) ((pathLinks s.chip dst 0).filter s.linkUsable)
  else match rail with
    | some r => ((rails r).find? (s.railUp dst)).getD (28 + r % 8)
    | none => turn (rails 0) ((rails 0).filter (s.railUp dst))

/-- A control frame of reduction to a neighbour (R561). -/
def redCtl (s : State) (j : RedJob) (dst type : Nat) (opw : Nat) : State := s.queueTo dst j.part type j.part 0 (BitVec.ofNat 64 opw) []

/-- RED_READY (R561). -/
def redReady (s : State) (j : RedJob) (dst kind n : Nat) : State :=
  s.redCtl j dst 0x21 (j.job + kind * 2 ^ 8 + n * 2 ^ 10 + j.round % 256 * 2 ^ 26)

/-- RED_DATA frames of blocks (R561, R562), FORM 1 where VWB8 blocks may occur. (DESIGN CHOICE, log entry 92) -/
def redData (s : State) (j : RedJob) (r : RingPos) (dst kind n : Nat) (xs : List (Nat × RedBlock)) : State :=
  let form := j.vwbForm kind
  let nb := j.blocks n
  (redChunk form xs).foldl (fun s c =>
    match c.head? with
    | none => s
    | some x =>
      let l := s.redLink dst (if kind = 1 ∨ kind = 2 then some (r.railOf nb x.1) else none)
      let opw := j.job + kind * 2 ^ 8 + n * 2 ^ 10 + x.1 * 2 ^ 26 + c.length * 2 ^ 46 + b2n form * 2 ^ 53 + j.round % 256 * 2 ^ 54
      (s.queueOn l 0x22 j.part 1 dst (BitVec.ofNat 64 opw) (redPayload form c)).onRed (fun q => { q with deal := q.deal + 1 })) s

/-! Failure (R567). -/

/-- A REDUCE_PUT that waits for a bucket ends. -/
def redEndPuts (s : State) (j : RedJob) (status code : Nat) : State :=
  s.cores.foldl (fun s c => c.2.mover.foldl (fun s m =>
    if m.op = 0xC5 ∧ m.stage = .passed ∧ m.part = j.part ∧ m.job = j.job then s.onOp c.1 m.slot (fun m => m.refuse status code) else s) s) s

/-- A job fails (R567). `heard` is the neighbour whose abort brought it. -/
def redFail (s : State) (t code bucket : Nat) : State :=
  match s.redEntry t with
  | none => s
  | some j =>
    if j.run = .failed then s
    else
      let s := s.redRaise j code bucket
      let s : State := match s.ringPos j.part j.job with
        | some r => (r.neighbours.filter (fun c => !j.aborted.contains c)).foldl (fun s c => s.redCtl j c 0x23 (j.job + code * 2 ^ 8)) s
        | none => s
      let s := s.redEndPuts j (if code = 0x3208 then 5 else 6) (if code = 0x3208 then 0x3208 else 0x320A)
      let s := if j.run = .opening then s.slotDone none j.part j.slotOff code j.signal else s
      let s := (s.onJob t (fun j => { j with run := .failed, flight := [] })).askRestore j.part
      if code = 0x3210 then s.unitAsk else s

/-! The phases. -/

def redRnd (s : State) (j : RedJob) (r : RingPos) (n b phase pos : Nat) : Nat → Nat → Nat :=
  let k := streamKey (s.seedOf j.part) r.stream
  fun t i => draw k j.step (redDraw (n * j.bucketElems + 32 * b + i) phase pos t)

/-- Counts of what one encoding did (R555, R572). (DEDUCED, log entry 91) -/
def redCount (s : State) (j : RedJob) (n : Nat) (x : RedBlock × Bool) : State :=
  let s := match x.1 with
    | .vwb v => if v.bump ≠ 0 then s.count (ctl 0x000D (0x108 + 0x10 * j.entry)) 1 else s
    | .half _ => s
  if x.2 then (s.count (ctl 0x000D (0x10C + 0x10 * j.entry)) 1).redRaise j 0x320D n else s

/-- How a step of the engine ends: done; to be tried again, and what is done meanwhile; or a job failed by a missing page. -/
inductive RedEnd where
  | done (s : State)
  | wait (f : State → State)
  | miss

def RedEnd.then_ (e : RedEnd) (f : State → RedEnd) : RedEnd :=
  match e with
  | .done s => f s
  | x => x

/-- A step that reads `n` bytes of a job's range (R542). -/
def redRead (s : State) (j : RedJob) (off n : Nat) (f : State → Bytes → RedEnd) : RedEnd :=
  match s.engineRead none j.part off n with
  | .got s b => f s b
  | .wait g => .wait g
  | .missing _ _ => .miss

/-- A step with a block of this chip's contribution (R542). -/
def redOwn (s : State) (j : RedJob) (n b : Nat) (f : State → RedBlock → RedEnd) : RedEnd :=
  s.redRead j (j.contribOff + 2 * (n * j.bucketElems + 32 * b)) 64 (fun s bs => f s (.half (halfFrom bs)))

/-- A step with a block's agreed exponent, from the scale table (R552). -/
def redX (s : State) (j : RedJob) (n b : Nat) (f : State → Nat → RedEnd) : RedEnd :=
  if j.vwbRound then s.redRead j (j.scaleOff + (n * j.bucketElems + 32 * b) / 32) 1 (fun s bs => f s (leNat bs)) else f s 0

/-- A step with the agreed exponents of some blocks. -/
def redXs (s : State) (j : RedJob) (n : Nat) (f : State → List (Nat × Nat) → RedEnd) : List Nat → List (Nat × Nat) → RedEnd
  | [], acc => f s acc
  | b :: bs, acc => s.redX j n b (fun s x => redXs s j n f bs (acc ++ [(b, x)]))

/-- A list of steps in order. (DESIGN CHOICE, log entry 92) -/
def redEach {α : Type} (xs : List α) (s : State) (f : State → α → RedEnd) : RedEnd :=
  xs.foldl (fun e x => e.then_ (fun s => f s x)) (.done s)

def ofWrite (t : State × Option Bool) : RedEnd :=
  match t.2 with
  | some true => .done t.1
  | some false => .miss
  | none => .wait id

/-- The final value of a block enters the result range, and its X the scale table (R542, R551, R553). -/
def redFinal (s : State) (t n : Nat) (b : Nat) (v : RedBlock) : RedEnd :=
  match s.redEntry t with
  | none => .done s
  | some j =>
    let e := n * j.bucketElems + 32 * b
    let vs := v.values
    let data := match v with
      | .vwb _ => if j.result = 1 then v.bytes else (RedBlock.half (vs.map (fun x => BitVec.ofNat 16 (encode bf16 .rne x)))).bytes
      | .half _ => v.bytes
    let off := if j.result = 1 then j.resultOff + e / 8192 * pageSize + 34 * (e % 8192 / 32) else j.resultOff + 2 * e
    (ofWrite (s.engineWrite j.part off data)).then_ (fun s =>
      (if j.wire = 3 then ofWrite (s.engineWrite j.part (j.scaleOff + e / 32) [BitVec.ofNat 8 (nextX j vs)]) else .done s).then_ (fun s =>
        .done (s.onJob t (fun j => j.onBucket n (fun x => { x with done := x.done ++ [b] })))))

/-- The holder of a final value re-encodes a 16-bit block under RESULT 1 (R556). (DEDUCED, log entry 91) -/
def redRecode (s : State) (j : RedJob) (r : RingPos) (n b phase pos : Nat) (v : RedBlock) : State × RedBlock :=
  match v with
  | .vwb _ => (s, v)
  | .half _ =>
    if j.result = 1 then
      let vs := v.values
      let X := match amaxLog vs with
        | some l => (min (max (l + 127) 1) 251).toNat
        | none => 1
      match redEncode X vs (fun t i => s.redRnd j r n b phase pos (t + 4) i) 4 0 with
      | some x => (if x.exp = 0xFF then s.count (ctl 0x000D (0x10C + 0x10 * j.entry)) 1
                   else if x.bump ≠ 0 then s.count (ctl 0x000D (0x108 + 0x10 * j.entry)) 1 else s, .vwb x)
      | none => (s.count (ctl 0x000D (0x10C + 0x10 * j.entry)) 1, .vwb ⟨vs.map (fun _ => 0), 0xFF, 0⟩)
    else (s, v)

/-- The final values of this column's segment that this member holds or receives (R551): result, fabric gather, group gather. `holder` is the row that holds it. -/
def redSegmentFinal (s : State) (t n : Nat) (r : RingPos) (xs : List (Nat × RedBlock)) (holder : Bool) (phase pos : Nat) : RedEnd :=
  match s.redEntry t with
  | none => .done s
  | some j =>
    let rec_ := xs.foldl (fun (a : State × List (Nat × RedBlock)) x =>
      if holder then let u := a.1.redRecode j r n x.1 phase pos x.2; (u.1, a.2 ++ [(x.1, u.2)]) else (a.1, a.2 ++ [x])) (s, [])
    (redEach rec_.2 rec_.1 (fun s x => s.redFinal t n x.1 x.2)).then_ (fun s =>
      let nb := j.blocks n
      let on := rec_.2.filter (fun x => decide (2 ≤ r.rows) && decide (r.pieceOf nb x.1 ≠ (r.g + 1) % r.rows))
      let s := if on = [] then s else s.redData j r r.fabSucc 2 n on
      .done (if 2 ≤ r.cols then s.redData j r r.groupSucc 3 n rec_.2 else s))

/-- Blocks go to the group successor once its RED_READY has come (R547). -/
def redGroupSend (s : State) (t n : Nat) (r : RingPos) (xs : List (Nat × RedBlock)) : State :=
  match s.redEntry t with
  | none => s
  | some j => match j.bucket n with
    | none => s
    | some b => if b.groupReady then s.redData j r r.groupSucc 0 n xs
      else s.onJob t (fun j => j.onBucket n (fun b => { b with waitG := b.waitG ++ xs }))

def redFabSend (s : State) (t n : Nat) (r : RingPos) (xs : List (Nat × RedBlock)) : State :=
  match s.redEntry t with
  | none => s
  | some j => match j.bucket n with
    | none => s
    | some b => if b.fabReady then s.redData j r r.fabSucc 1 n xs
      else s.onJob t (fun j => j.onBucket n (fun b => { b with waitF := b.waitF ++ xs }))

/-- The group-phase values of this column's segment are all final (R547, R549): RED_READY to the fabric predecessor, and this row's first
pieces to its successor; without a fabric phase they are the result. -/
def redGroupFinal (s : State) (t n : Nat) (r : RingPos) : RedEnd :=
  match s.redEntry t with
  | none => .done s
  | some j => match j.bucket n with
    | none => .done s
    | some b =>
      let nb := j.blocks n
      let seg := part_ nb r.cols r.c
      if b.groupFinal ∨ b.sums.length < seg.2 - seg.1 then .done s
      else
        let s := s.onJob t (fun j => j.onBucket n (fun b => { b with groupFinal := true }))
        if r.rows < 2 then s.redSegmentFinal t n r b.sums true 0 r.c
        else
          let s := s.redReady j r.fabPred 1 n
          let first := b.sums.filter (fun x => decide (r.pieceOf nb x.1 = (r.g + r.rows - 1) % r.rows))
          s.redXs j n (fun s xs =>
            let coded := first.map (fun x => match x.2, j.vwbRound && decide (r.cols < 2) with
              | .half _, true => (x.1, (redCode true ((assocGet xs x.1).getD 0) none x.2.values (s.redRnd j r n x.1 1 r.g)))
              | _, _ => (x.1, (x.2, false)))
            let s := coded.foldl (fun s x => s.redCount j n x.2) s
            .done (s.redFabSend t n r (coded.map (fun x => (x.1, x.2.1))))) (if r.cols < 2 then first.map Prod.fst else []) []

/-- The segment that begins at this column leaves unchanged, or encoded under the agreed exponents (R548, R554). -/
def redFirst (s : State) (t n : Nat) (r : RingPos) : RedEnd :=
  match s.redEntry t with
  | none => .done s
  | some j =>
    let seg := part_ (j.blocks n) r.cols ((r.c + r.cols - 1) % r.cols)
    (redEach (List.range (seg.2 - seg.1)) s (fun s i =>
      let b := seg.1 + i
      s.redOwn j n b (fun s own => s.redX j n b (fun s X =>
        let x : RedBlock × Bool := if j.vwbRound then redCode true X none own.values (s.redRnd j r n b 0 r.c) else (own, false)
        .done ((s.redCount j n x).onJob t (fun j => j.onBucket n (fun y => { y with waitG := y.waitG ++ [(b, x.1)] }))))))).then_ (fun s =>
        match s.redEntry t with
        | none => .done s
        | some j => match j.bucket n with
          | none => .done s
          | some b =>
            let s := s.onJob t (fun j => j.onBucket n (fun b => { b with waitG := [] }))
            .done (s.redData j r r.groupSucc 0 n b.waitG))

/-- A bucket starts (R547): RED_READY to the group predecessor; with one column its contributions are its group values. -/
def redStart (s : State) (t : Nat) : RedEnd :=
  match s.redEntry t with
  | none => .done s
  | some j =>
    let n := j.started
    match s.ringPos j.part j.job with
    | none => .done s
    | some r =>
      let ready (k : Nat) : Bool := j.early.any (fun e => decide (e = (k, n, j.round % 256)))
      let b : RedBucket := ⟨n, ready 0, ready 1, false, [], [], [], [], []⟩
      let s := s.onJob t (fun j => { j with run := .active, started := n + 1, flight := j.flight ++ [b],
                                            early := j.early.filter (fun e => decide (e ≠ (0, n, j.round % 256) ∧ e ≠ (1, n, j.round % 256))) })
      if 2 ≤ r.cols then
        let s := s.redReady j r.groupPred 0 n
        if b.groupReady then s.redFirst t n r else .done s
      else
        (redEach (List.range (j.blocks n)) s (fun s i =>
          s.redOwn j n i (fun s own =>
            .done (s.onJob t (fun j => j.onBucket n (fun b => { b with sums := b.sums ++ [(i, own)] })))))).then_ (fun s => s.redGroupFinal t n r)

/-- RED_READY (R547): from the group or the fabric successor. -/
def redTakeReady (s : State) (t n kind : Nat) (r : RingPos) : RedEnd :=
  match s.redEntry t with
  | none => .done s
  | some j =>
    match j.bucket n with
    | none => .done (s.onJob t (fun j => { j with early := j.early ++ [(kind, n, j.roundOf n % 256)] }))
    | some b =>
      if kind = 0 then
        let s := s.onJob t (fun j => j.onBucket n (fun b => { b with groupReady := true }))
        s.redFirst t n r
      else
        let s := s.onJob t (fun j => j.onBucket n (fun b => { b with fabReady := true, waitF := [] }))
        .done (if b.waitF = [] then s else s.redData j r r.fabSucc 1 n b.waitF)

/-- One add (R550): the received block, this member's own values, one rounding. -/
def redAdd (s : State) (j : RedJob) (r : RingPos) (n b : Nat) (got : RedBlock) (own : List FVal) (phase pos : Nat) (f : State → RedBlock → RedEnd) : RedEnd :=
  let sums := List.zipWith (fun x y => (val32 (rne32 (x.add y)))) got.values own
  s.redX j n b (fun s X =>
    let x := redCode j.vwbRound X (some got) sums (s.redRnd j r n b phase pos)
    let s := s.onRed (fun q => { q with adds := (q.adds + 32) % 2 ^ 64 })
    f (s.redCount j n x) x.1)

/-- One block of a RED_DATA frame (R548 to R551). -/
def redTakeBlock (s : State) (t n kind : Nat) (r : RingPos) (b : Nat) (got : RedBlock) : RedEnd :=
  match s.redEntry t with
  | none => .done s
  | some j =>
    let nb := j.blocks n
    let seg := r.segOf nb b
    match kind with
    | 0 =>
      s.redOwn j n b (fun s own => s.redAdd j r n b got own.values 0 r.c (fun s x =>
        if seg = r.c then .done (s.onJob t (fun j => j.onBucket n (fun y => { y with sums := y.sums ++ [(b, x)] })))
        else .done (s.redGroupSend t n r [(b, x)])))
    | 1 =>
      match (j.bucket n).bind (fun y => assocGet y.sums b) with
      | none => .done s
      | some own =>
        s.redAdd j r n b got own.values 1 r.g (fun s x =>
          if r.pieceOf nb b = r.g then s.redSegmentFinal t n r [(b, x)] true 1 r.g
          else .done (s.redFabSend t n r [(b, x)]))
    | 2 => s.redSegmentFinal t n r [(b, got)] false 1 r.g
    | _ => (s.redFinal t n b got).then_ (fun s =>
        .done (if seg ≠ (r.c + 1) % r.cols then s.redData j r r.groupSucc 3 n [(b, got)] else s))

/-- The blocks of a RED_DATA payload (R557, R562), `X` being the agreed exponents: none where a form rule is broken. (DEDUCED, log entry 91) -/
def redParse (X : Nat → Nat) (kind first count : Nat) (form : Bool) (payload : Bytes) : Option (List (Nat × RedBlock)) :=
  if form then
    let mask := leNat (payload.take 16)
    let size (i : Nat) : Nat := if mask.testBit i then 64 else 34
    let offs := (List.range count).foldl (fun (a : List Nat × Nat) i => (a.1 ++ [a.2], a.2 + size i)) ([], 16)
    if mask ≥ 2 ^ count ∨ count = 0 ∨ 120 < count ∨ ceilDiv offs.2 256 * 256 ≠ payload.length then none
    else
      (List.zip (List.range count) offs.1).foldl (fun acc x =>
        match acc with
        | none => none
        | some xs =>
          let b := first + x.1
          let bs := (payload.drop x.2).take (size x.1)
          if mask.testBit x.1 then some (xs ++ [(b, .half (halfFrom bs))])
          else match vwbFrom bs with
            | none => none
            | some v =>
              let good := v.exp = 0xFF ∨ (if kind ≤ 1 then v.exp = X b else 1 ≤ v.exp ∧ v.exp ≤ 251)
              if good then some (xs ++ [(b, .vwb v)]) else none) (some [])
  else if count = 0 ∨ 64 < count ∨ ceilDiv (64 * count) 256 * 256 ≠ payload.length then none
  else some ((List.range count).map (fun i => (first + i, .half (halfFrom ((payload.drop (64 * i)).take 64)))))

/-! Opening (R538 to R540). -/

/-- A field of an OPEN outside its range (R538). (DEDUCED, log entry 91) -/
def redOpenBad (c : Bytes) : Bool :=
  let f (o n : Nat) : Nat := leNat ((c.drop o).take n)
  let w := f 2 1
  let e := f 8 4
  decide (w ≠ 2 ∧ w ≠ 3) || decide (1 < f 3 1 ∨ f 3 1 = 1 ∧ w ≠ 3) || decide (e = 0 ∨ e % 32 ≠ 0) ||
  decide (f 12 1 = 0 ∨ 64 < f 12 1 ∨ f 13 1 = 0 ∨ 64 < f 13 1 ∨ f 14 1 = 0 ∨ 16 < f 14 1 ∨ 3 < f 15 1) ||
  decide (w = 2 ∧ (f 15 1 ≠ 0 ∨ f 24 4 ≠ 0 ∨ f 28 1 ≠ 0)) || decide (w = 3 ∧ (f 28 1 = 0 ∨ 251 < f 28 1)) ||
  decide (f 29 3 ≠ 0 ∨ 2 ^ 48 ≤ f 32 8 ∨ f 40 8 % 8 ≠ 0)

/-- DONE_FLAG lies on this chip in the job's partition (R538). -/
def redFlagBad (s : State) (part : Nat) (c : Bytes) : Bool :=
  let a := leNat ((c.drop 40).take 8)
  decide (bitsNat a 63 50 ≠ s.chip ∨ bitsNat a 49 45 ≠ part)

/-- Digest of an OPEN (R540): 7 bytes of SHA-384 as a number. -/
def redDigest (c : Bytes) : Nat :=
  leNat ((sha384 ((c.drop 1).take 3 ++ (c.drop 8).take 8 ++ (c.drop 28).take 1 ++ (c.drop 32).take 8)).take 7)

/-- Every neighbour's digest has matched: the job is idle, and the OPEN completes (R540). -/
def redMatched (s : State) (t : Nat) : State :=
  match s.redEntry t with
  | none => s
  | some j => match s.ringPos j.part j.job with
    | none => s
    | some r =>
      if j.run = .opening ∧ r.neighbours.all (fun c => j.matched.contains c) then
        (s.onJob t (fun j => { j with run := .idle })).slotDone none j.part j.slotOff 0 j.signal
      else s

/-- A neighbour's digest (R540). -/
def redTakeOpen (s : State) (t src digest : Nat) : State :=
  match s.redEntry t with
  | none => s
  | some j =>
    if digest = redDigest j.cmd then (s.onJob t (fun j => { j with matched := j.matched ++ [src] })).redMatched t
    else s.redFail t 0x3207 0

/-- OPEN (R539, R540): the slot's bytes and its window offset. -/
def redOpen (s : State) (part slotOff : Nat) (c : Bytes) : State :=
  let job := leNat ((c.drop 1).take 1)
  let signal := leNat ((c.drop 48).take 8)
  let refuse (code : Nat) : State := (s.raise 0x000D code 0 0 0).slotDone none part slotOff code signal
  if redOpenBad c || s.redFlagBad part c then refuse 0x320B
  else match s.ringPos part job with
    | none => refuse 0x320C
    | some r =>
      if (s.redJob part job).isSome then refuse 0x320B
      else match (List.range 32).find? (fun t => (s.redEntry t).isNone) with
        | none => refuse 0x3206
        | some t =>
          let j : RedJob := ⟨t, part, c, slotOff, .opening, [], 0, [], 0, 0, [], [], [], none⟩
          let s := s.onRed (fun q => { q with jobs := q.jobs ++ [j] })
          let s := r.neighbours.foldl (fun s d => s.redCtl j d 0x20 (job + redDigest c * 2 ^ 8)) s
          let mine := s.red.early.filter (fun e => e.part = part && e.job = job)
          let s := s.onRed (fun q => { q with early := q.early.filter (fun e => !(e.part = part && e.job = job)) })
          mine.foldl (fun s e => s.redTakeOpen t e.src e.digest) s

/-- CLOSE (R539, R541). (DEDUCED, log entry 91) -/
def redClose (s : State) (part slotOff : Nat) (c : Bytes) : State :=
  let job := leNat ((c.drop 1).take 1)
  let signal := leNat ((c.drop 48).take 8)
  let refuse (code : Nat) : State := (s.raise 0x000D code 0 0 0).slotDone none part slotOff code signal
  if leNat ((c.drop 2).take 2) ≠ 0 ∨ leNat ((c.drop 8).take 40) ≠ 0 then refuse 0x320B
  else match s.redJob part job with
    | none => refuse 0x3201
    | some j =>
      if j.run = .closing then refuse 0x320A
      else if j.run = .failed then (s.onRed (fun q => { q with jobs := q.jobs.filter (fun x => x.entry ≠ j.entry) })).slotDone none part slotOff 0 signal
      else
        let s := if j.run = .opening then s.slotDone none j.part j.slotOff 0x320A j.signal else s
        s.onJob j.entry (fun j => { j with run := .closing, cmd := j.cmd.take 48 ++ leBytes 8 signal ++ j.cmd.drop 56, closeOff := some slotOff })

/-- The next slot of a partition's reduction ring, where it has landed (R276, R537): its offset in the window and its bytes. -/
def redSlot (s : State) (part : Nat) : State × Option (Nat × Bytes) :=
  match s.red.rings.find? (fun r => r.part = part) with
  | none => (s, none)
  | some r =>
    let off := r.vpage * pageSize + 64 * (r.seq % max r.slots 1)
    match s.engineRead none part off 64 with
    | .got t bs => if leNat ((bs.drop 4).take 4) = r.seq % 2 ^ 32 then (t, some (off, bs)) else (t, none)
    | .wait f => (f s, none)
    | .missing t _ => (t, none)

/-- The slot is consumed. -/
def redConsume (s : State) (part : Nat) : State :=
  s.onRed (fun q => { q with rings := q.rings.map (fun r => if r.part = part then { r with seq := r.seq + 1 } else r) })

/-! Contributions (R543 to R546). -/

/-- Bytes of an operation in each bucket it touches (R544). -/
def redShare (j : RedJob) (m : MoverOp) : List (Nat × Nat) :=
  let lo := m.off - j.contribOff
  let hi := lo + m.len
  let size := 2 * j.bucketElems
  (List.range (hi / size + 1)).filterMap (fun n =>
    let a := max lo (n * size)
    let b := min hi ((n + 1) * size)
    if a < b then some (n, b - a) else none)

/-- Bytes of a bucket that operations already past their checks have still to count (R544). -/
def redComing (s : State) (j : RedJob) (b : Nat) : Nat :=
  (s.cores.flatMap (fun c => c.2.mover)).foldl (fun a m =>
    if m.op = 0xC5 ∧ m.part = j.part ∧ m.job = j.job ∧ m.progress ≠ 0 ∧ m.stage ≠ .done then
      a + (((redShare j m).filter (fun x => x.1 = b)).map Prod.snd).sum else a) 0

/-- A REDUCE_PUT on this chip (R543, R546): its checks, its wait for a bucket in flight, its bytes, its count. (DEDUCED, log entry 91) -/
def redPut (s : State) (n : Nat) (m : MoverOp) (ev : List MemEvent) : State :=
  match s.redJob m.part m.job with
  | none => s.refuseOp n m 6 0x3201
  | some j =>
    if j.run = .failed ∨ j.run = .closing then s.refuseOp n m 6 0x320A
    else if m.dtype ≠ j.wire then s.refuseOp n m 6 0x3202
    else if m.chip ≠ s.chip ∨ m.off < j.contribOff ∨ j.contribOff + 2 * j.elems < m.off + m.len then s.refuseOp n m 6 0x3203
    else
      let share := redShare j m
      if m.progress = 0 ∧ share.any (fun x => (j.bucket x.1).isSome) then s.onOp n m.slot (fun m => { m with stage := .passed })
      else if m.progress = 0 ∧ share.any (fun x => decide (2 * j.bucketSize x.1 < j.landedOf x.1 + s.redComing j x.1 + x.2)) then s.refuseOp n m 6 0x3204
      else
        let s := if m.stage = .sent then s else runLocal (m.len / 64 + 8) s n m.slot ev
        match s.moverOp n m.slot with
        | some x => if x.stage = .sent then
            (s.onJob j.entry (fun j => { j with landed := share.foldl (fun l y => Sparse.update 0 l y.1 (· + y.2)) j.landed })).onOp n m.slot
              (fun m => { m with stage := .done })
          else s
        | none => s

/-! Completion (R564, R565). -/

/-- The lowest bucket not complete is freed once every block is final. -/
def redBucketDone (s : State) (t : Nat) : State :=
  match s.redEntry t with
  | none => s
  | some j => match j.bucket j.complete with
    | none => s
    | some b =>
      if b.done.length < j.blocks b.n then s
      else
        let s := s.onJob t (fun j =>
          let j := { j with flight := j.flight.filter (fun x => x.n ≠ b.n), complete := b.n + 1, landed := Sparse.set 0 j.landed b.n 0 }
          if j.complete = j.buckets then
            { j with complete := 0, started := 0, round := j.round + 1, run := if j.run = .closing then .closing else .idle }
          else j)
        s.engineSignal none j.part j.doneFlag

/-- A CLOSE whose buckets in flight have completed (R541). -/
def redCloseDone (s : State) (t : Nat) : State :=
  match s.redEntry t with
  | none => s
  | some j => match j.closeOff with
    | none => s
    | some off =>
      if j.flight = [] then (s.onRed (fun q => { q with jobs := q.jobs.filter (fun x => x.entry ≠ t) })).slotDone none j.part off 0 j.signal
      else s

end State
end Sys2Proof.Machine
end

