-- ==== Sys2Proof/Machine/Pages.lean ====
section
/-!
DEFINITION. Crown's pages: free pages, mapping and its fallbacks, release, and whole-page moves (R321, R322, R327, R348, R353, R355).
-/
namespace Sys2Proof.Machine

/-- How the mapping of a page in a region fares: mapped; refused because the chain is full, with the page that was to be linked (R321); no page. -/
inductive MapEnd where
  | mapped (s : State)
  | full (page : Nat)
  | noPage

/-- A mapping under way: the device, the insertions refused so far (page and region, R321), whether all is well, and whether a page was lacking. -/
structure MapRun where
  st : State
  full : List (Nat × Nat)
  good : Bool
  lack : Bool

namespace State

/-- Whether a region is held down (R348, R652, R716). (DEDUCED, log entry 130) -/
def regionUsable (s : State) (r : Nat) : Bool := !s.boot.held.toNat.testBit r

/-- Whether a physical page may be taken: FREE, and not retired (R749). -/
def pageFree (s : State) (p : Nat) : Bool := decide ((s.mem.record p).state.toNat = prtFree) && !(s.mem.record p).valid

/-- The lowest free page of a region. (DESIGN CHOICE, log entry 47) -/
def freePage (s : State) (r : Nat) : Option Nat :=
  if s.regionUsable r then ((List.range 131072).map (r * 131072 + ·)).find? (fun p => s.pageFree p && !s.mem.retired.contains p) else none

/-- Free pages of the chip: usable regions' pages that are not in use, retired or reserved. -/
def freePages (s : State) : Nat :=
  ((List.range 16).filter s.regionUsable).length * 131072 - (s.mem.prt.filter (fun e => decide (e.2.state.toNat ≠ prtFree) || e.2.valid)).length - s.mem.retired.length

/-- Free pages of a region. -/
def regionFree (s : State) (r : Nat) : Nat :=
  if s.regionUsable r then
    131072 - (s.mem.prt.filter (fun e => decide (pageRegion e.1 = r) && (decide (e.2.state.toNat ≠ prtFree) || e.2.valid))).length - (s.mem.retired.filter (fun p => pageRegion p = r)).length
  else 0

def mapped (s : State) (part vpage : Nat) : Option Nat := (s.mem.lookup part vpage).1

/-- A loan of a partition's virtual page (R366). -/
def loanOf (s : State) (part vpage : Nat) : Option Loan := s.crown.loans.find? (fun l => l.part = part && l.vpage = vpage)

/-! Mapping. -/

/-- A page of a region for a virtual page (R353): the record is linked, SCRUBBING, and its zero-fill queued. `into` is the state it goes to. -/
def mapAt (s : State) (part vpage r into affinity : Nat) : MapEnd :=
  match s.freePage r with
  | none => .noPage
  | some p =>
    match s.mem.link p (fun x => { x with part := BitVec.ofNat 5 part, vpage := BitVec.ofNat 31 vpage, state := BitVec.ofNat 3 prtScrubbing, dirty := false,
                                          heat := 0, affinity := BitVec.ofNat 4 affinity, becomes := BitVec.ofNat 3 into }) with
    | some m => .mapped ((({ s with mem := m }).tcDrop part vpage).scrub .zeroFill p)
    | none => .full p

/-- The region that takes what region `r` could not link (R353): at the same position on the other die, else the lowest of that die, with `n` free pages. -/
def otherRegion (s : State) (r n : Nat) : Option Nat :=
  (Nat.xor r 8 :: (List.range 8).map (fun i => (if r < 8 then 8 else 0) + i)).find? (fun q => s.regionUsable q && decide (n ≤ s.regionFree q))

/-- The region that takes what region `r` has no room for: itself where it has `n` free pages, else the lowest of its die, then of the other die. (DESIGN CHOICE, log entry 47) -/
def roomRegion (s : State) (r n : Nat) : Option Nat :=
  (r :: ((List.range 8).map (r / 8 * 8 + ·) ++ (List.range 8).map (fun i => (1 - r / 8) * 8 + i))).find? (fun q => s.regionUsable q && decide (n ≤ s.regionFree q))

end State

namespace MapRun

def start (s : State) : MapRun := ⟨s, [], true, false⟩

/-- A mapping ends: where it was refused, only the refused insertions are left of it (R321, R345). -/
def finish (m : MapRun) (s : State) : State := m.full.foldl (fun s x => s.raise 9 0x2004 x.1 0 x.2) (if m.good then m.st else s)

/-- One page at a region; `next` is tried where its chain is full. -/
def page (m : MapRun) (part vpage r into affinity : Nat) (next : MapRun → MapRun) : MapRun :=
  match m.st.mapAt part vpage r into affinity with
  | .mapped s => { m with st := s }
  | .full p => next { m with full := m.full ++ [(p, r)] }
  | .noPage => { m with good := false, lack := true }

def refuse (m : MapRun) : MapRun := { m with good := false }

/-- A page with the fallbacks of R353. `affinity` is the region itself where none is given. -/
def single (m : MapRun) (part vpage r into : Nat) (affinity : Option Nat) : MapRun :=
  if !m.good then m
  else match m.st.roomRegion r 1 with
    | none => { m with good := false, lack := true }
    | some q => m.page part vpage q into (affinity.getD q) (fun m => match m.st.otherRegion q 1 with
      | none => m.refuse
      | some k => m.page part vpage k into (affinity.getD k) refuse)

end MapRun

namespace State

/-- A mapped page takes the PIN of its tensor (R327): Pin and Unpin. -/
def pagePin (s : State) (p : Nat) (pin : Bool) : State :=
  let x := s.mem.record p
  let goal : BitVec 3 := BitVec.ofNat 3 (if pin then prtPinned else prtLocal)
  let st := x.state.toNat
  if (st = prtLocal ∨ st = prtPinned) ∧ x.state ≠ goal then
    (s.tcDrop x.part.toNat x.vpage.toNat).onMem (fun m => m.onRecord p (fun r => { r with state := goal }))
  else if st = prtScrubbing ∨ st = prtMigrating then s.onMem (fun m => m.onRecord p (fun r => { r with becomes := goal }))
  else s

/-- A single page of Crown's own or of a tensor: one that is mapped, or on loan, is kept (R343). -/
def keepOrMap (m : MapRun) (part vpage r : Nat) (pin : Bool) : MapRun :=
  match m.st.mapped part vpage with
  | some p => { m with st := m.st.pagePin p pin }
  | none => if (m.st.loanOf part vpage).isSome then m else m.single part vpage r (if pin then prtPinned else prtLocal) none

/-- A pinned page of Crown's own in the lowest region with room (R342, R369). (DESIGN CHOICE, log entry 61) -/
def mapPinned (s : State) (part vpage : Nat) : State :=
  let r := ((List.range 16).find? (fun r => (s.freePage r).isSome)).getD 0
  ((MapRun.start s).single part vpage r prtPinned none).finish s

/-! Moving a page (R327, R355). -/

/-- A page that held nothing its owner keeps is erased, and is FREE then (R327). -/
def eraseFree (s : State) (p : Nat) : State :=
  (s.onMem (fun m => m.onRecord p (fun x => { x with valid := false, state := BitVec.ofNat 3 prtScrubbing, becomes := 0 }))).scrub .erase p

/-- A page is released (R327): unlinked and erased. -/
def releasePage (s : State) (p : Nat) : State :=
  let r := s.mem.record p
  ((s.tcDrop r.part.toNat r.vpage.toNat).onMem (fun m => m.unlink p)).eraseFree p

/-- A migration starts (R327, R355, R398): the source is MIGRATING, the destination in region `toward` MIGRATING with VALID 0. -/
def migrateTo (s : State) (p toward : Nat) : State :=
  let r := s.mem.record p
  if s.pinnedPage p then s
  else match s.freePage toward with
    | none => s
    | some d =>
      let s := (s.tcDrop r.part.toNat r.vpage.toNat).mergeDrop p
      let s := s.onMem (fun m => (m.onRecord p (fun x => { x with state := BitVec.ofNat 3 prtMigrating, becomes := r.state })).onRecord d
        (fun x => { x with valid := false, state := BitVec.ofNat 3 prtMigrating, part := r.part, vpage := r.vpage }))
      s.onCrown (fun c => { c with copies := c.copies ++ [⟨p, d, .migrate⟩] })

/-- Whether a chain would be too long for one more page of a half (R321). -/
def chainFull (s : State) (part vpage d : Nat) : Bool :=
  decide (32 ≤ (s.mem.chainList 33 (s.mem.record (Memory.anchor d (bucket part vpage s.mem.salt))).head).length)

/-- A page is read whole by an engine of the device and its lines checked, where its slot is loaded (R378, R382, R316); whether it has been. -/
def readWhole (s : State) (who : Asker) (p : Nat) : State × Bool :=
  let r := s.mem.record p
  if !s.slotLoaded (pageRegion p) r.part.toNat r.kgen then (s.raise (mcuffBlock (pageRegion p)) 0x2101 p 0 0, false)
  else
    let t := s.checkLines p (List.range 256)
    (t.1.heat who p (if t.2 then 256 else 0), t.2)

/-- A page's bytes are written whole at another, which takes its place in the chain (R322, R327); false where the copy must wait. -/
def movePage (s : State) (src dst : Nat) (into : Nat) : State × Bool :=
  let a := s.readWhole .ld src
  if !a.2 then a
  else
    let r := a.1.mem.record src
    let t := a.1.enginePage dst (a.1.newestKgen r.part.toNat) (a.1.mem.read src 0 pageSize)
    if !t.2 then (t.1, false)
    else
      let s := (t.1.tcDrop r.part.toNat r.vpage.toNat).onMem (fun m => m.unlink src)
      match s.mem.link dst (fun x => { x with part := r.part, vpage := r.vpage, state := BitVec.ofNat 3 into, dirty := r.dirty, heat := r.heat,
                                              affinity := r.affinity, becomes := 0 }) with
      | none => (s, true)
      | some m => (({ s with mem := m }).eraseFree src, true)

/-! Page sets (R272, R353). -/

/-- Regions to which page groups are dealt (R353, R746): those not held whose update engine works. (DEDUCED, log entry 58) -/
def dealRegions (s : State) : List Nat := (List.range 16).filter (fun r => s.regionUsable r && decide ((s.region r).ue.state ≠ 4))

/-- The pages of groups that stand together are mapped in one region, those already mapped brought there (R272, R353). -/
def mapUnitAt (m : MapRun) (part r : Nat) (pages : List (Nat × Bool)) (next : MapRun → MapRun) : MapRun :=
  let t := pages.foldl (fun (a : MapRun × Bool) x =>
    if a.2 || !a.1.good then a
    else match a.1.st.mapped part x.1 with
      | some p =>
        let s := a.1.st.pagePin p x.2
        if pageRegion p = r then ({ a.1 with st := s }, false)
        else if (s.mem.record p).state.toNat = prtLocal ∨ (s.mem.record p).state.toNat = prtPinned then ({ a.1 with st := s.migrateTo p r }, false)
        else (a.1, false)
      | none => match a.1.st.mapAt part x.1 r (if x.2 then prtPinned else prtLocal) r with
        | .mapped s => ({ a.1 with st := s }, false)
        | .full p => ({ a.1 with full := a.1.full ++ [(p, r)] }, true)
        | .noPage => ({ a.1 with good := false, lack := true }, false)) (m, false)
  if t.2 then next { m with full := t.1.full } else t.1

/-- A unit of page groups (R353): in the region where some page of it stands, else in the one that the deal names. (DEDUCED, log entry 58) -/
def mapUnit (m : MapRun) (part r : Nat) (pages : List (Nat × Bool)) : MapRun :=
  if !m.good then m
  else
    let s := m.st
    let home := (pages.filterMap (fun x => s.mapped part x.1)).head?.map pageRegion
    let need := (pages.filter (fun x => (s.mapped part x.1).isNone)).length
    match (match home with | some q => some q | none => s.roomRegion r need) with
    | none => { m with good := false, lack := true }
    | some q => mapUnitAt m part q pages (fun m => match m.st.otherRegion q pages.length with
      | none => m.refuse
      | some k => mapUnitAt m part k pages MapRun.refuse)

/-- Regions for a tensor's pages in turn (R353). `regionOf` gives a stream group's region. A tensor with no usable consumer is spread over all
regions by page, a ring without one goes to region 0. (DESIGN CHOICE, log entry 152) -/
def tensorRegion (s : State) (regionOf : Nat → Nat) (nGroups : Nat) (t : TensorDecl) (i : Nat) : Nat :=
  let groups := (List.range nGroups).filter (fun g => t.consumers.testBit g)
  let regions := (groups.map regionOf).filter s.regionUsable
  let spread := if regions = [] then (List.range 16).filter s.regionUsable else regions
  if t.kind = 3 then (groups.map regionOf).headD 0 else spread.getD (i % max 1 spread.length) 0

/-- The tensors of a run are mapped (R353); `next` counts what has been dealt. -/
def mapRun (m : MapRun) (part : Nat) (regionOf : Nat → Nat) (nGroups next : Nat) (run : List TensorDecl) : MapRun × Nat :=
  match run with
  | [] => (m, next)
  | t :: _ =>
    if t.kind = 2 then
      let units := ceilDiv (runGroups run) (runUnit run)
      let rs := m.st.dealRegions
      ((List.range units).foldl (fun m u => mapUnit m part (rs.getD ((next + u) % max 1 rs.length) 0) (unitPages run u)) m, next + units)
    else
      ((List.range t.pages).foldl (fun m i =>
        if m.good then keepOrMap m part (t.first + i) (m.st.tensorRegion regionOf nGroups t i) (t.pin || t.kind = 3) else m) m, next)

/-- Pages that a partition has, on loan or not, those of Crown's own apart. -/
def pagesHeld (s : State) (part : Nat) : Nat :=
  (s.mem.pagesOf (fun q => q = part)).length + (s.crown.loans.filter (fun l => l.part = part)).length - 2

/-- All tensors of a work graph (R353), within the quota. -/
def mapGraph (s : State) (part quota : Nat) (regionOf : Nat → Nat) (g : WorkGraph) : MapRun :=
  let m := ((tensorRuns g.tensors).foldl (fun a run => mapRun a.1 part regionOf g.nGroups a.2 run) (MapRun.start s, 0)).1
  if m.good && decide (quota < m.st.pagesHeld part) then m.refuse else m

end State
end Sys2Proof.Machine
end

