-- ==== Sys2Proof/Machine/Lend.lean ====
section
/-!
DEFINITION. Lending of pages between the chips of a group (R363 to R368).
-/
namespace Sys2Proof.Machine
namespace State

/-- The layout of a lending message in OPW is the model's; CROWN frames carry partition 0. (DESIGN CHOICE, log entry 62) -/
def lendOpw : LendMsg → BitVec 64
  | .ask => 1
  | .offer n => BitVec.ofNat 64 (2 + n * 2 ^ 8)
  | .request n => BitVec.ofNat 64 (3 + n * 2 ^ 8)
  | .grant n => BitVec.ofNat 64 (4 + n * 2 ^ 8)
  | .lend p i => BitVec.ofNat 64 (5 + p * 2 ^ 8 + i * 2 ^ 16)
  | .returned p i => BitVec.ofNat 64 (6 + p * 2 ^ 8 + i * 2 ^ 16)
  | .recall p i => BitVec.ofNat 64 (7 + p * 2 ^ 8 + i * 2 ^ 16)

/-- Chip at a position of this group. -/
def groupChip (s : State) (pos : Nat) : Nat := s.chip / 8 * 8 + pos

/-- A lending message to a group peer, where a link to it is up. (DESIGN CHOICE, log entry 62) -/
def lendSend (s : State) (pos : Nat) (m : LendMsg) : State := (s.sendTo (s.groupChip pos) 0 0x0D 0 0 (lendOpw m) []).getD s

/-- Copies for lending that are under way, in order. -/
def lendCopies (s : State) : List PageCopy := s.crown.copies.filter (fun c => match c.kind with | .lend _ _ _ _ => true | _ => false)

def recallCopies (s : State) : List PageCopy := s.crown.copies.filter (fun c => match c.kind with | .recall _ _ _ _ => true | _ => false)

/-- Pages lent out or on their way out (R363). -/
def borrowed (s : State) : Nat := s.crown.loans.length + s.lendCopies.length

/-- Whether this chip borrows. -/
def borrows (s : State) : Bool := decide (s.borrowed ≠ 0) || !s.crown.asks.isEmpty || !s.crown.offers.isEmpty

def lendEnabled (s : State) : Bool := (s.reg (ctl 8 0)).toNat.testBit 1

/-- Pages granted to peers that they have not yet put here (R363). -/
def promised (s : State) : Nat := (s.crown.granted.map Prod.snd).foldl (· + ·) 0

/-- Pages this chip can lend. -/
def lendable (s : State) : Nat := if s.borrows || !s.lendEnabled then 0 else s.freePages - s.promised - s.regField (ctl 8 0x1C) 20 0

/-- Group peers that can be asked. -/
def lendPeers (s : State) : List Nat :=
  (List.range 8).filter (fun q => decide (q ≠ s.chip % 8) && !s.net.absent.toNat.testBit q && (s.chooseLink (s.groupChip q) 0).isSome)

/-- Whether Crown may ask for pages now. -/
def mayBorrow (s : State) : Bool :=
  s.lendEnabled && s.crown.asks.isEmpty && s.crown.offers.isEmpty && decide (s.ckpt.atRest = 0) && decide (s.borrowed < 262144)

/-- Crown asks its group peers (R363). -/
def borrowAsk (s : State) : State :=
  if !s.mayBorrow then s else s.lendPeers.foldl (fun s q => s.lendSend q .ask) (s.onCrown (fun c => { c with asks := s.lendPeers, noLender := false }))

/-- Crown asks when its free pages fall below LOW.PAGES (R363). -/
def borrow (s : State) : State := if decide (s.regField (ctl 8 0x18) 20 0 ≤ s.freePages) then s else s.borrowAsk

/-- The pages of KIND operand or activation that may be lent, coldest first, ties to the lower P (R364). -/
def lendPages (s : State) : List Nat :=
  let ok (e : Nat × PrtRec) : Bool :=
    e.2.valid && decide (e.2.state.toNat = prtLocal) && !s.ckpt.atRest.toNat.testBit e.2.part.toNat && (s.crownPart e.2.part.toNat).wg.elim false (fun g =>
      g.tensors.any (fun t => decide (t.kind ≤ 1 ∧ t.first ≤ e.2.vpage.toNat ∧ e.2.vpage.toNat < t.first + t.pages)))
  let es := s.mem.prt.filter ok
  (List.range 256).flatMap (fun h => (es.filter (fun e => e.2.heat.toNat = h)).map Prod.fst)

/-- Whether a mapping that finds no page may yet be helped by a lender (R353): a negotiation or a copy for lending runs, or can begin. (DESIGN CHOICE, log entry 47) -/
def lenderHope (s : State) : Bool :=
  !s.crown.asks.isEmpty || !s.crown.offers.isEmpty || !s.lendCopies.isEmpty ||
  (s.mayBorrow && !s.crown.noLender && !s.lendPeers.isEmpty && !s.lendPages.isEmpty)

/-- The lowest loan index not in use. (DESIGN CHOICE, log entry 46) -/
def loanIndex (s : State) : Nat :=
  let used := s.crown.loans.map Loan.index ++ s.crown.copies.filterMap (fun c => match c.kind with
    | .lend _ _ _ i => some i
    | .recall _ _ _ i => some i
    | .migrate => none)
  ((List.range 262144).find? (fun i => !used.contains i)).getD 0

/-- A page goes to a lender (R325, R365): it is read whole, and stays MIGRATING while its contents are put there. (DESIGN CHOICE, log entry 62) -/
def lendPage (s : State) (pos p : Nat) : State :=
  if s.pinnedPage p then s
  else
    let t := s.readWhole .ld p
    if !t.2 then t.1
    else
      let s := t.1
      let r := s.mem.record p
      let i := s.loanIndex
      let g := s.guestPage pos i
      let bs := s.mem.read p 0 pageSize
      let s := (s.lendSend pos (.lend r.part.toNat i)).tcDrop r.part.toNat r.vpage.toNat
      let s := (s.mergeDrop p).onMem (fun m => m.onRecord p (fun x => { x with state := BitVec.ofNat 3 prtMigrating, becomes := r.state }))
      let s := s.onCrown (fun c => { c with copies := c.copies ++ [⟨p, p, .lend r.part.toNat r.vpage.toNat pos i⟩] })
      (List.range 4).foldl (fun s q =>
        match s.sendTo g.1 0 0x10 r.part.toNat 2 (linesOpw (g.2 * 256 + 64 * q) 511 60 64 true) ((bs.drop (4096 * q)).take 4096) with
        | some s => s.onNet (fun n => { n with eng := n.eng ++ [(g.1, 60)] })
        | none => s) s

/-- Every peer asked has answered: the one with the most pages is asked for them, the lower position winning ties. -/
def borrowChoose (s : State) : State :=
  if !s.crown.asks.isEmpty then s
  else
    let most := (s.crown.offers.map Prod.snd).foldl max 0
    match ((List.range 8).find? (fun q => decide (0 < most) && s.crown.offers.contains (q, most))) with
    | none => s.onCrown (fun c => { c with offers := [], noLender := true })
    | some q => s.lendSend q (.request (min 1024 (262144 - s.borrowed)))

/-- A lending message from the group peer at a position. (DESIGN CHOICE, log entry 62; DEDUCED, log entry 63) -/
def lendMsg (s : State) (pos : Nat) (m : LendMsg) : State :=
  match m with
  | .ask => (s.onCrown (fun c => { c with granted := c.granted.filter (fun g => g.1 ≠ pos) })).lendSend pos (.offer s.lendable)
  | .offer n =>
    if s.crown.asks.contains pos then (s.onCrown (fun c => { c with asks := c.asks.filter (· ≠ pos), offers := c.offers ++ [(pos, n)] })).borrowChoose else s
  | .request n =>
    let k := min (min n 1024) s.lendable
    if k = 0 then (s.crownRaise 0x0807 pos 0 0).lendSend pos (.grant 0)
    else ((s.place 8 0 0 pos k 0 0).onCrown (fun c => { c with granted := c.granted ++ [(pos, k)] })).lendSend pos (.grant k)
  | .grant n =>
    if s.crown.offers.isEmpty then s
    else
      let s := s.onCrown (fun c => { c with offers := [], noLender := decide (n = 0) })
      if n = 0 then s.crownRaise 0x0807 pos 0 0
      else if s.ckpt.atRest ≠ 0 then s
      else
        let was := s.lendCopies.length
        let s := (s.lendPages.take (min n 1024)).foldl (fun s p => s.lendPage pos p) s
        s.place 7 0 0 pos (s.lendCopies.length - was) 0 0
  | .lend part i =>
    if (s.part part).state = .free then s
    else
      let s := s.onCrown (fun c => { c with granted := (c.granted.map (fun g => if g.1 = pos then (g.1, g.2 - 1) else g)).filter (fun g => g.2 ≠ 0) })
      let r := ((List.range 16).find? (fun r => (s.freePage r).isSome)).getD 0
      ((MapRun.start s).single part (2 ^ 30 + pos * 2 ^ 18 + i) r prtGuest (some pos)).finish s
  | .returned part i => match s.mapped part (2 ^ 30 + pos * 2 ^ 18 + i) with
    | some p => if (s.mem.record p).state.toNat = prtGuest then s.releasePage p else s
    | none => s
  | .recall part i => s.onCrown (fun c => { c with loans := c.loans.map (fun l => if l.part = part ∧ l.lender = pos ∧ l.index = i then { l with asked := true } else l) })

/-- A lent page's contents have reached the lender (R365); a page that is no longer MIGRATING goes back. -/
def loanDone (s : State) (k : Nat) : State :=
  match s.lendCopies[k]? with
  | some c => (match c.kind with
    | .lend part vpage pos i =>
      if s.net.eng.contains (s.groupChip pos, 60) then s
      else
        let s := s.onCrown (fun x => { x with copies := x.copies.erase c })
        if (s.mem.record c.src).state.toNat = prtMigrating then
          ((s.onCrown (fun x => { x with loans := x.loans ++ [⟨part, vpage, pos, i, false, false, 0⟩] })).tcDrop part vpage).releasePage c.src
        else s.lendSend pos (.returned part i)
    | _ => s)
  | none => s

/-- The loan to be recalled next (R367): one that its lender asks back, else the hottest by the table's own sampling. (DEDUCED, log entry 63) -/
def nextRecall (s : State) : Option Loan :=
  let ls := s.crown.loans.filter (fun l => !l.recalling && (s.chooseLink (s.guestPage l.lender l.index).1 0).isSome)
  let free := s.freePages
  if free = 0 then none
  else match ls.find? (fun l => l.asked) with
    | some l => some l
    | none =>
      if decide (s.regField (ctl 8 0x18) 20 0 + 1024 < free) then
        ls.find? (fun l => ls.all (fun x => decide (x.heat ≤ l.heat)))
      else none

/-- A loan is recalled (R367): a destination is taken, and the page's lines are asked of the lender. -/
def recallLoan (s : State) : State :=
  if s.ckpt.atRest ≠ 0 then s
  else match s.nextRecall, (List.range 16).findSome? s.freePage with
    | some l, some d =>
      let s := s.onMem (fun m => m.onRecord d (fun x => { x with valid := false, state := BitVec.ofNat 3 prtMigrating, part := BitVec.ofNat 5 l.part, vpage := BitVec.ofNat 31 l.vpage }))
      let s := s.onCrown (fun c => { c with loans := c.loans.map (fun x => if x = l then { x with recalling := true } else x),
                                            copies := c.copies ++ [⟨d, d, .recall l.part l.vpage l.lender l.index⟩] })
      s.fetchAsk (s.groupChip l.lender) l.part l.vpage 0 256 (s.guestOff l.index 0)
    | _, _ => s

/-- A recall is given up, or goes on in another page (R321, R327). -/
def recallMove (s : State) (c : PageCopy) (dst : Option Nat) : State :=
  match c.kind, dst with
  | .recall part vpage _ _, some d =>
    ((s.onMem (fun m => m.onRecord d (fun x => { x with valid := false, state := BitVec.ofNat 3 prtMigrating, part := BitVec.ofNat 5 part,
                                                         vpage := BitVec.ofNat 31 vpage }))).onCrown
      (fun x => { x with copies := x.copies.map (fun y => if y = c then { y with src := d, dst := d } else y) })).eraseFree c.dst
  | .recall part vpage _ _, none =>
    (s.onCrown (fun x => { x with copies := x.copies.erase c, loans := x.loans.map (fun l =>
      if l.part = part ∧ l.vpage = vpage then { l with recalling := false } else l) })).eraseFree c.dst
  | _, _ => s

/-- A recalled page has arrived (R367): it is linked, the loan goes, the lender is told. Where the chain is full it goes to the other die (R321). (DESIGN CHOICE, log entry 64) -/
def recallDone (s : State) (k : Nat) : State :=
  match s.recallCopies[k]? with
  | some c => (match c.kind with
    | .recall part vpage pos i =>
      let drop (s : State) : State := s.onMem (fun m => { m with fetched := m.fetched.filter (fun f => !(f.part = part && f.vpage = vpage && f.lines = 256)) })
      if (s.loanOf part vpage).isNone then (drop s).recallMove c none
      else match s.mem.fetched.find? (fun f => f.part = part && f.vpage = vpage && f.lines = 256) with
        | none => s.fetchAsk (s.groupChip pos) part vpage 0 256 (s.guestOff i 0)
        | some f =>
          if f.left ≠ 0 then s
          else if f.code ≠ 0 then (drop s).recallMove c none
          else if s.chainFull part vpage (pageHalf c.dst) then
            let s := s.raise 9 0x2004 c.dst 0 (pageRegion c.dst)
            match (s.otherRegion (pageRegion c.dst) 1).bind s.freePage with
            | some d => if s.chainFull part vpage (pageHalf d) then ((drop s).raise 9 0x2004 d 0 (pageRegion d)).recallMove c none else s.recallMove c (some d)
            | none => (drop s).recallMove c none
          else
            let t := s.enginePage c.dst (s.newestKgen part) ((f.got ++ List.replicate pageSize 0).take pageSize)
            if !t.2 then t.1
            else match t.1.mem.link c.dst (fun x => { x with part := BitVec.ofNat 5 part, vpage := BitVec.ofNat 31 vpage, state := BitVec.ofNat 3 prtLocal,
                                                             dirty := true, heat := 0, affinity := BitVec.ofNat 4 (pageRegion c.dst), becomes := 0 }) with
              | none => t.1
              | some m =>
                let s := (drop { t.1 with mem := m }).tcDrop part vpage
                let s := s.onCrown (fun x => { x with copies := x.copies.erase c, loans := x.loans.filter (fun l => !(l.part = part && l.vpage = vpage)) })
                (s.lendSend pos (.returned part i)).place 9 0 0 pos 1 0 0
    | _ => s)
  | none => s

/-- Loans of pages are given up with their contents (R343): the lender releases its records. -/
def loansDrop (s : State) (q : Loan → Bool) : State :=
  let gone := s.crown.loans.filter q
  gone.foldl (fun s l => (s.tcDrop l.part l.vpage).lendSend l.lender (.returned l.part l.index)) (s.onCrown (fun c => { c with loans := c.loans.filter (fun l => !q l) }))

end State
end Sys2Proof.Machine
end

