-- ==== Sys2Proof/Machine/Wake.lean ====
section
/-!
DEFINITION. Clock domains, and Crown's orders to wake a region or a core (R357, R358, R707, R709, R720).
-/
namespace Sys2Proof.Machine

/-! Domains (R707). -/

def dbit (d : Nat) : BitVec 25 := if 1 ≤ d ∧ d ≤ 25 then 1#25 <<< (d - 1) else 0
def regDomain (r : Nat) : Nat := 4 + r

/-- The region of a REG domain. -/
def domainRegion (d : Nat) : Option Nat := if 4 ≤ d ∧ d ≤ 19 then some (d - 4) else none

/-- The fixed domains that run once boot has ended: all but the REG domains. -/
def fixedDomains : BitVec 25 := 0x1F80007

def hasBit (w : BitVec 25) (d : Nat) : Bool := w &&& dbit d != 0

namespace State

def regPwr (s : State) (r : Nat) : RegPwr := Sparse.get RegPwr.reset s.pwr.regions r
def onPwr (s : State) (f : Pwr → Pwr) : State := { s with pwr := f s.pwr }
def onRegPwr (s : State) (r : Nat) (f : RegPwr → RegPwr) : State := s.onPwr (fun p => { p with regions := Sparse.update RegPwr.reset p.regions r f })

/-- A PLL starts; while it stops or is held, the start is latched or refused (R709, R720). -/
def pllStart (s : State) (d : Nat) : State :=
  if hasBit s.pwr.failed d || hasBit s.pwr.running d then s
  else if hasBit s.pwr.stopping d then s.onPwr (fun p => { p with pllPend := p.pllPend ||| dbit d })
  else s.onPwr (fun p => { p with starting := p.starting ||| dbit d })

/-- A wake begins. -/
def wakeFrom (s : State) (r : Nat) : State :=
  let deep := (s.regPwr r).st == .stop
  let s := s.onRegPwr r (fun g => { g with st := .waking, pend := false, deep := deep })
  let s := s.onCrown (fun c => { c with wakePend := c.wakePend &&& ~~~(1#16 <<< r) })
  if deep then s.pllStart (regDomain r) else s

/-- Crown orders a region, or a core of it, awake (R357, R358); one held down refuses with the code of the hold (R720). (DEDUCED, log entry 130) -/
def wake (s : State) (r : Nat) (core : Option Nat) : State :=
  match (s.regPwr r).st with
  | .slow | .stop => s.wakeFrom r
  | .entering =>
    let s := (s.onRegPwr r (fun g => { g with pend := true })).onCrown (fun c => { c with wakePend := c.wakePend ||| 1#16 <<< r })
    if (s.regPwr r).deep then s.pllStart (regDomain r) else s
  | .active => match core with
    | some k => s.mapCore (32 * r + k) (fun c => if c.ctl.run = .asleep then c.withCtl (fun x => { x with run := if x.enable then .running else .idle }) else c)
    | none => s
  | .held => s.emit (.refused .crown (ctl 5 (0x100 + 4 * r)) (s.regPwr r).cause)
  | .waking => s

/-- Regions that must be awake before something runs in them are woken (R357); whether they are. -/
def awake (s : State) (rs : List Nat) : State × Bool :=
  let down := rs.eraseDups.filter (fun r => decide ((s.regPwr r).st ≠ .active))
  (down.foldl (fun s r => s.wake r none) s, down.isEmpty)

end State
end Sys2Proof.Machine
end

