-- ==== Sys2Proof/Machine/Crown.lean ====
section
/-!
DEFINITION. Crown: variants and placement, loading, SUBMIT and WITHDRAW, step boundaries (R340 to R352, R574 to R579).
-/
namespace Sys2Proof.Machine
namespace State

/-! Variants and placement (R348 to R352). -/

def coreUsable (s : State) (n : Nat) : Bool := s.regionUsable (n / 32) && !(s.core n).ctl.quar && !s.quarMap.toNat.testBit n

/-- Cores of a region that are usable and carry no stream of another partition. -/
def openCores (s : State) (part r : Nat) : List Nat :=
  ((List.range 32).map (32 * r + ·)).filter (fun n => s.coreUsable n && !s.crown.parts.any (fun e => decide (e.1 ≠ part) && e.2.placed.any (fun p => p.core = n)))

def usableCores (s : State) : Nat := ((List.range 512).filter s.coreUsable).length

/-- Regions for the groups of a variant (R349): pairs (group, region). (DESIGN CHOICE, log entry 61) -/
def fitGroups (s : State) (part : Nat) (nGroups : Nat) (ss : List StreamDecl) : Option (List (Nat × Nat)) :=
  let need (g : Nat) : Nat := (ss.filter (fun x => x.group = g)).length
  let room (r : Nat) : Nat := (s.openCores part r).length
  let own := ((List.range nGroups).filter (fun g => decide (need g ≤ room g))).map (fun g => (g, g))
  let rest := (List.range nGroups).filter (fun g => !own.any (fun x => x.1 = g))
  rest.foldl (fun acc g => match acc with
    | none => none
    | some xs =>
      let same := (List.range 8).map (fun i => g / 8 * 8 + i)
      let far := (List.range 8).map (fun i => (1 - g / 8) * 8 + i)
      match (same ++ far).find? (fun r => !xs.any (fun x => x.2 = r) && decide (need g ≤ room r)) with
      | some r => some (xs ++ [(g, r)])
      | none => none) (some own)

/-- Usable cores on which streams of other partitions are placed. -/
def placedElsewhere (s : State) (part : Nat) : Nat :=
  ((List.range 512).filter (fun n => s.coreUsable n && s.crown.parts.any (fun e => decide (e.1 ≠ part) && e.2.placed.any (fun p => p.core = n)))).length

/-- The variant to run (R350): its index, its groups' regions, whether the reserve is met. -/
def chooseVariant (s : State) (part : Nat) (g : WorkGraph) : Option (Nat × List (Nat × Nat) × Bool) :=
  let fits := (g.variants.zipIdx.filterMap (fun v => (s.fitGroups part g.nGroups v.1).map (fun f => (v.2, f, v.1.length))))
  let reserve := s.regField (ctl 8 8) 9 0
  match fits.find? (fun f => decide (f.2.2 + s.placedElsewhere part + reserve ≤ s.usableCores)) with
  | some f => some (f.1, f.2.1, true)
  | none => fits.head?.map (fun f => (f.1, f.2.1, false))

/-- Streams to cores (R351). (DESIGN CHOICE, log entry 61) -/
def placeStreams (s : State) (part : Nat) (ss : List StreamDecl) (groups : List (Nat × Nat)) : List Placed :=
  groups.flatMap (fun gr =>
    let mine := (ss.zipIdx.filter (fun x => x.1.group = gr.1)).map Prod.snd
    (mine.zip (s.openCores part gr.2)).map (fun x => ⟨x.1, x.2, false⟩))

/-- Cores that carry no stream any more are asleep (R351). -/
def restCores (s : State) (ns : List Nat) : State :=
  ns.foldl (fun s n => if s.placedOn n then s else s.mapCore n (fun c => if c.ctl.run = .idle then c.withCtl (fun k => { k with run := .asleep }) else c)) s

/-! Brim plans into nodes and slots (R574 to R579). -/

/-- The checks of R578 on the plans of a variant: (group, plan, tensors of the stream). -/
def plansBad (s : State) (part : Nat) (g : WorkGraph) (xs : List (StreamDecl × List PlanWord)) : Bool :=
  xs.any (fun x => x.1.imageLines < 7) ||
  xs.any (fun x => x.2.any planBad) ||
  xs.any (fun x => let ids := (x.2.filter (fun w => planKind w ≠ 0)).map (fun w => (planScope w, planName w)); decide (ids.eraseDups.length ≠ ids.length)) ||
  (let all := xs.flatMap (fun x => (x.2.filter (fun w => planKind w ≠ 0)).map (fun w => (x.1, w)))
   all.any (fun a => all.any (fun b => planScope a.2 = planScope b.2 && planName a.2 = planName b.2 &&
     (decide (a.2 ≠ b.2) && (planKind a.2 ≠ planKind b.2 || bitsNat a.2.toNat 24 17 ≠ bitsNat b.2.toNat 24 17 || bitsNat a.2.toNat 41 25 ≠ bitsNat b.2.toNat 41 25) ||
      (planScope a.2 = 0 && a.1.group ≠ b.1.group)))) ||
   all.any (fun a =>
     let sc := planScope a.2
     decide (2 ≤ sc) &&
     ((sc = 2 && !(bitsNat a.2.toNat 24 17).testBit (s.chip % 8)) ||
      (sc = 3 && (s.ringPos part (bitsNat a.2.toNat 24 17)).isNone) ||
      (match a.1.tlist[bitsNat a.2.toNat 29 25]? with
       | none => true
       | some t => match g.tensors[t]? with
         | none => true
         | some d => d.kind ≠ 3 || decide (d.pages * pageSize < 32 * bitsNat a.2.toNat 41 30 + 32)))))

/-- A node entry takes a participant; a new identity takes the lowest free entry. -/
def joinNode (s : State) (id : BrimId) (w : PlanWord) (quadVp core slot : Nat) : State :=
  match s.nodeOf id with
  | some _ => s.onNode id (fun b => { b with members := b.members ++ [(core, slot)] })
  | none =>
    let used := (s.brim.nodes.filter (fun b => if id.scope = 0 then b.id.scope = 0 && b.id.region = id.region else b.id.scope ≠ 0)).map BrimNode.entry
    let e := ((List.range 512).find? (fun i => !used.contains i)).getD 0
    s.onBrim (fun b => { b with nodes := b.nodes ++ [⟨id, e, decide (planKind w = 1), [(core, slot)], 0, 0, 0, 0, 0, false, w, quadVp⟩] })

/-- Whether a variant's identities fit the nodes and the agent (R579). -/
def plansFit (s : State) (part : Nat) (ids : List BrimId) : Bool :=
  let others := (s.brim.nodes.filter (fun b => b.id.part ≠ part)).map BrimNode.id
  let all := (others ++ ids).eraseDups
  (List.range 16).all (fun r => decide ((all.filter (fun i => i.scope = 0 && i.region = r)).length ≤ 256)) &&
  decide ((all.filter (fun i => 1 ≤ i.scope)).length ≤ 512 ∧ (all.filter (fun i => 2 ≤ i.scope)).length ≤ 256)

/-- The slot registers of a stream's plan (R574, R597). -/
def slotRegs (s : State) (part core : Nat) (plan : List PlanWord) : State :=
  plan.zipIdx.foldl (fun s x =>
    let w := x.1
    let e := ((s.nodeOf (planId part (core / 32) w)).map BrimNode.entry).getD 0
    let lo := if planKind w = 0 then 0 else planKind w + planScope w * 4 + e * 32
    s.mapCore core (fun c => c.setBrimSlot x.2 ⟨BitVec.ofNat 32 lo, 0⟩)) s

/-! Loading (R347). -/

/-- Bytes read of runs, cut into the runs. -/
def cutRuns (runs : List (Nat × Nat)) (b : Bytes) : List Bytes :=
  (runs.foldl (fun (a : List Bytes × Nat) x => (a.1 ++ [(b.drop a.2).take x.2], a.2 + x.2)) ([], 0)).1

/-- Crown reads runs of a partition's bytes and goes on with them; where it must wait it goes on later, and `gone` says what follows where a page is missing. -/
def withRuns (s : State) (part : Nat) (runs : List (Nat × Nat)) (gone : State → State) (f : State → List Bytes → State) : State :=
  match s.engineReads none part (runs.flatMap (fun x => pageParts x.1 x.2)) with
  | .wait g => g s
  | .missing s _ => gone s
  | .got s b => f s (cutRuns runs b)

/-- Where a stream's image lies. -/
def imageRun (d : StreamDecl) : Nat × Nat := (d.imageVp * pageSize, 64 * d.imageLines)

/-- Where the flag of a stream lies that Crown raises with STEP: nothing states it, and it lies in the stream's own partition. (DESIGN CHOICE, log entry 60) -/
def stepFlag (s : State) (part stream : Nat) : Nat := (fabricAddr s.chip part (8 * ((Config.stepFlag part stream).toNat % 2 ^ 42))).toNat

/-- The parameter block (R347). (DESIGN CHOICE, log entry 60) -/
def paramBlock (s : State) (part stream variant resume step : Nat) (g : WorkGraph) (d : StreamDecl) : Bytes :=
  leBytes 2 stream ++ leBytes 1 variant ++ [0] ++ leBytes 4 resume ++ leBytes 8 step ++ leBytes 2 d.rng ++ List.replicate 14 0 ++
  leBytes 8 (s.stepFlag part stream) ++ List.replicate 24 0 ++
  d.tlist.flatMap (fun t => leBytes 8 (match g.tensors[t]? with
    | some x => (fabricAddr s.chip part (x.first * pageSize)).toNat
    | none => 0))

/-- The image pages pass the region buffer of the core's mover (R331, R347). -/
def imageThrough (s : State) (part r : Nat) (d : StreamDecl) : State :=
  (pageParts (imageRun d).1 (imageRun d).2).foldl (fun s x =>
    let a := s.access (.region r) part (x.1 / pageSize) false
    match a.2 with
    | .served p => (a.1.regionRead r p ((List.range (ceilDiv x.2 64)).map (x.1 % pageSize / 64 + ·))).1
    | _ => a.1) s

/-- A stream is loaded into a core (R347), its Brim slots set (R574), and it is enabled. (DEDUCED, log entry 36) -/
def loadCore (s : State) (part stream variant resume step core : Nat) (g : WorkGraph) (d : StreamDecl) (image : Bytes) (slots : Bool) : State :=
  let v : BitVec 32 := BitVec.ofNat 32 (d.winBase + (d.imageLines - 1) * 2 ^ 14)
  let s := s.imageThrough part (core / 32) d
  let s := s.mapCore core (fun c =>
    let c := c.setWindow v
    let c := c.fillSqb (64 * d.winBase) image (fabricAddr s.chip part (d.imageVp * pageSize))
    (c.writeSqb 0 (s.paramBlock part stream variant resume step g d)).withSpec (fun k => { k with chip := BitVec.ofNat 13 s.chip, part := BitVec.ofNat 5 part }))
  let s := if slots then s.slotRegs part core (planOf image d.imageLines) else s
  (s.mapCore core Core.enable).engineSignal none part (s.stepFlag part stream)

/-- A stream of a variant. -/
def streamAt (ss : List StreamDecl) (i : Nat) : StreamDecl := ss.getD i ⟨0, 0, 0, 0, 0, [], [], []⟩

/-- A partition's streams begin a step under a variant and a placement: nodes, slots, cores, records (R347 to R351, R369). `images` are those of the placed
streams. -/
def startStep (s : State) (part : Nat) (g : WorkGraph) (v : Nat × List (Nat × Nat) × Bool) (step : Nat) (placed : List (Placed × Bytes)) : State :=
  let ss := g.variants.getD v.1 []
  let was := (s.crownPart part).placed.map Placed.core
  let s := s.onBrim (fun b => { b with nodes := b.nodes.filter (fun n => n.id.part ≠ part) })
  let s := placed.foldl (fun s x =>
    let d := streamAt ss x.1.stream
    (planOf x.2 d.imageLines).zipIdx.foldl (fun s w =>
      if planKind w.1 = 0 then s
      else
        let quad := ((d.tlist[bitsNat w.1.toNat 29 25]?).bind (fun t => g.tensors[t]?)).elim 0 TensorDecl.first
        s.joinNode (planId part (x.1.core / 32) w.1) w.1 quad x.1.core w.2) s) s
  let s := s.place 1 part step v.1 ss.length s.usableCores (b2n v.2.2)
  let s := placed.foldl (fun s x =>
    let d := streamAt ss x.1.stream
    (s.loadCore part x.1.stream v.1 0 step x.1.core g d x.2 true).place 2 part step x.1.stream x.1.core d.group 0) s
  (s.setCrownPart part { s.crownPart part with wg := some g, held := false, begun := true, step := step, variant := v.1, groups := v.2.1,
                                               placed := placed.map Prod.fst, restarts := [] }).restCores was

/-- The step after a choice of variant (R350), once its regions are awake (R357) and the images of its streams have been read. -/
def runStep (s : State) (part : Nat) (g : WorkGraph) (v : Nat × List (Nat × Nat) × Bool) (step : Nat) (before after : State → State) : State :=
  let ss := g.variants.getD v.1 []
  let ps := s.placeStreams part ss v.2.1
  let go (s : State) (images : List Bytes) : State := after ((before s).startStep part g v step (ps.zip images))
  let up := s.awake (ps.map (fun p => p.core / 32))
  if !up.2 then up.1
  else
  s.withRuns part (ps.map (fun p => imageRun (streamAt ss p.stream))) (fun s => go s (ps.map (fun _ => []))) go

/-- No variant fits (R350, R362): the work graph is held. -/
def noVariant (s : State) (part step : Nat) : State :=
  ((((s.setCrownPart part { s.crownPart part with held := true, step := step, placed := [] }).crownRaise 0x0803 0 0 0).crownAsk part 0x0803 0 0).unitAsk).restCores
    ((s.crownPart part).placed.map Placed.core)

/-! SUBMIT and WITHDRAW (R342, R343, R422, R443). -/

/-- The next slot of a partition's Crown ring, where it has landed (R276, R342): its offset and its bytes. -/
def crownSlot (s : State) (part : Nat) : State × Option (Nat × Bytes) :=
  let k := (s.crownPart part).ringSeq
  let off := 0x3FFFFFFE * pageSize + 64 * (k % 256)
  match s.engineRead none part off 64 with
  | .got t bs => (t, if field_ bs 4 4 = k % 2 ^ 32 then some (off, bs) else none)
  | .wait f => (f s, none)
  | .missing t _ => (t, none)

/-- DEDUCED, log entry 66. -/
def crownConsume (s : State) (part : Nat) : State := s.setCrownPart part { s.crownPart part with ringSeq := (s.crownPart part).ringSeq + 1 }

/-- A slot ends (R342): it is consumed, STATUS is written, SIGNAL raised. -/
def crownDone (s : State) (part off code : Nat) (bs : Bytes) : State := (s.crownConsume part).slotDone none part off code (field_ bs 48 8)

/-- A slot is refused. -/
def crownRefuse (s : State) (part off code : Nat) (bs : Bytes) : State :=
  let s := match code / 256 with
    | 0x08 => s.crownRaise code 0 0 0
    | 0x22 => s.raise 0x000C code (s.part part).session 0 (s.part part).gen
    | 0x50 => s.raise 0x000A code (s.part part).session 0 0
    | _ => s.raise 8 code 0 0 0
  s.crownDone part off code bs

/-- Rings that Crown sets when it starts a work graph (R275, R537, R606): (region, or 16 for reduction and 17 for checkpoint; first page; slots). (DESIGN CHOICE, log entry 60) -/
def setRings (s : State) (part : Nat) (rings : List (Nat × Nat × Nat)) : State :=
  rings.foldl (fun s r =>
    if r.1 = 17 then { s with ckpt := { s.ckpt with rings := s.ckpt.rings.filter (fun x => x.part ≠ part) ++ [⟨part, r.2.1, r.2.2, 0⟩] } }
    else if r.1 = 16 then s.onRed (fun q => { q with rings := q.rings.filter (fun x => x.part ≠ part) ++ [⟨part, r.2.1, r.2.2, 0⟩] })
    else s.onRegion r.1 (fun g => { g with ue := { g.ue with rings := g.ue.rings.filter (fun x => x.part ≠ part) ++ [⟨part, r.2.1, r.2.2, 0⟩] } })) s

/-- Pages of a withdrawn work graph that the new one does not name are released (R343), those on loan among them. -/
def releasePrev (s : State) (part : Nat) (g : WorkGraph) : State :=
  let prev := (s.crownPart part).prev
  let named (v : Nat) : Bool := g.tensors.any (fun t => decide (t.first ≤ v ∧ v < t.first + t.pages))
  let s := prev.foldl (fun s run =>
    (List.range run.2).foldl (fun s i =>
      if named (run.1 + i) then s else match s.mapped part (run.1 + i) with
        | some p => s.releasePage p
        | none => s) s) s
  s.loansDrop (fun l => l.part = part && prev.any (fun run => decide (run.1 ≤ l.vpage ∧ l.vpage < run.1 + run.2)) && !named l.vpage)

/-- Set pages of a session with a new work graph of one partition (R602), in wide mode where the session settles. -/
def setSize (s : State) (i part : Nat) (g : WorkGraph) : Nat :=
  let wide := decide (0 < ((s.ckptSess i).cfg.map CkptCfg.settle).getD 0)
  let size (g : WorkGraph) : Nat := setPagesOf g + (if wide then wideExtra g else 0)
  size g + (((List.range 32).filter (fun p => decide (p ≠ part ∧ (s.part p).session = i ∧ (s.part p).state ≠ .free))).map
    (fun p => (s.crownPart p).wg.elim 0 size)).foldl (· + ·) 0

/-- An accepted SUBMIT (R343, R353): pages, rings, and the first step where some variant fits. It waits for a lender where a page is lacking. (DESIGN CHOICE, log entry 47; DEDUCED, log entry 59) -/
def submitGo (s : State) (part off quota : Nat) (bs : Bytes) (rings : List (Nat × Nat × Nat)) (g : WorkGraph) (digest : Bytes) : State :=
  let v := s.chooseVariant part g
  let regionOf (k : Nat) : Nat := (v.bind (fun v => assocGet v.2.1 k)).getD k
  let s1 := s.releasePrev part g
  let m := s1.mapGraph part quota regionOf g
  if !m.good then
    if m.lack && s.lenderHope then s.borrowAsk
    else (m.finish s).crownRefuse part off 0x0806 bs
  else
    let step := field_ bs 16 8
    let ready (s : State) : State := (s.setCrownPart part { s.crownPart part with wg := some g, prev := [], digest := digest }).setRings part rings
    match v with
    | some v => s.runStep part g v step (fun s => ready (((s.releasePrev part g).mapGraph part quota regionOf g).finish s)) (fun s => s.crownDone part off 0 bs)
    | none => (((ready (m.finish s1)).noVariant part step).setCrownPart part
        { ((ready (m.finish s1)).noVariant part step).crownPart part with begun := false }).crownDone part off 0 bs

/-- The plans of the streams of each variant, from the images of all. -/
def variantPlans (g : WorkGraph) (images : List Bytes) : List (List (StreamDecl × List PlanWord)) :=
  let plans := ((g.variants.flatMap id).zip images).map (fun x => (x.1, planOf x.2 x.1.imageLines))
  (g.variants.foldl (fun (a : List (List (StreamDecl × List PlanWord)) × Nat) ss => (a.1 ++ [(plans.drop a.2).take ss.length], a.2 + ss.length)) ([], 0)).1

/-- The Brim identities that the plans of a variant name (R579). -/
def planIds (part : Nat) (xs : List (StreamDecl × List PlanWord)) : List BrimId :=
  (xs.flatMap (fun x => (x.2.filter (fun w => planKind w ≠ 0)).map (fun w => planId part x.1.group w))).eraseDups

/-- SUBMIT (R342 to R353, R422, R443, R578, R579, R602): the work graph and its streams' images are read and checked whole. (DEDUCED, log entry 59) -/
def submit (s : State) (part off : Nat) (bs : Bytes) (rings : List (Nat × Nat × Nat)) : State :=
  let y := s.session (s.part part).session
  let pages := field_ bs 12 4
  let zero := decide (field_ bs 1 3 = 0 ∧ field_ bs 24 24 = 0 ∧ field_ bs 16 8 < 2 ^ 48 ∧ 1 ≤ pages ∧ pages ≤ 4096)
  let quota := ((s.partDecl part).map PartDecl.quotaPages).getD 0
  if part = 0 ∨ y.state ≠ .active ∨ (s.part part).state = .free then s.crownRefuse part off 0x2209 bs
  else if (s.crownPart part).wg.isSome || !zero then s.crownRefuse part off 0x0802 bs
  else s.withRuns part [(field_ bs 8 4 * pageSize, pages * pageSize)] (fun s => s.crownRefuse part off 0x0802 bs) (fun s wg =>
    let b := wg.headD []
    if !graphOk b part quota then s.crownRefuse part off 0x0802 bs
    else if 917504 < s.setSize (s.part part).session part (parseGraph b) then s.crownRefuse part off 0x5001 bs
    else if !(y.charter.elim false (fun c => c.workgraphs.contains (sha384 (b.take (field_ b 24 4))))) then s.crownRefuse part off 0x2207 bs
    else
      let g := parseGraph b
      s.withRuns part ((g.variants.flatMap id).map imageRun) (fun s => s.crownRefuse part off 0x0802 bs) (fun s images =>
        if (variantPlans g images).any (fun xs => s.plansBad part g xs) then s.crownRefuse part off 0x4002 bs
        else if (variantPlans g images).any (fun xs => !s.plansFit part (planIds part xs)) then s.crownRefuse part off 0x4001 bs
        else s.submitGo part off quota bs rings g (sha384 (b.take (field_ b 24 4)))))

/-- Cores that run a partition's streams. -/
def partCores (s : State) (part : Nat) : List Nat := (s.crownPart part).placed.map Placed.core

/-- A withdrawn partition's reduction jobs close (R343, R541): one that is opening ends its OPEN, one with nothing in flight is freed. -/
def closeJobs (s : State) (part : Nat) : State :=
  s.red.jobs.foldl (fun s j =>
    if j.part ≠ part then s
    else
      let s := if j.run = .opening then s.slotDone none j.part j.slotOff 0x320A j.signal else s
      if j.flight = [] ∧ j.closeOff = none then s.onRed (fun q => { q with jobs := q.jobs.filter (fun x => x.entry ≠ j.entry) })
      else s.onJob j.entry (fun j => { j with run := .closing })) s

/-- A pending WITHDRAW takes effect (R343): cores drain and are idle, then jobs close; once they have, Brim entries are freed and STATUS is written. -/
def withdrawNow (s : State) (part : Nat) : State :=
  let cp := s.crownPart part
  match cp.withdraw with
  | none => s
  | some (off, signal) =>
    if !(cp.held || !cp.begun || cp.placed.all (fun p => p.ended)) then s
    else
      let cores := s.partCores part
      let s := cores.foldl (fun s n => s.mapCore n Core.drain) s
      if cores.any (fun n => (s.core n).ctl.run == .running || (s.core n).ctl.run == .draining) then s
      else
        let s := s.closeJobs part
        if s.red.jobs.any (fun j => j.part = part) then s
        else
          let s := s.onBrim (fun b => { b with nodes := b.nodes.filter (fun n => n.id.part ≠ part) })
          let runs := cp.wg.elim [] (fun g => g.tensors.map (fun t => (t.first, t.pages)))
          let s := s.setCrownPart part { CrownPart.none with ringSeq := cp.ringSeq, prev := runs }
          (s.restCores cores).slotDone none part off 0 signal

/-! Step boundaries (R352, R356, R594). -/

/-- Dirty flags of a partition go back to 0 before the next step (R594). -/
def clearDirty (s : State) (part : Nat) : State :=
  let mine := s.brim.dirtyFlags.filter (fun k => match s.node k with | some b => b.id.part = part | none => false)
  let s := mine.foldl (fun s k => s.flagTake k (fun _ => 0)) s
  s.onBrim (fun b => { b with dirtyFlags := b.dirtyFlags.filter (fun k => !mine.contains k) })

/-- Lateness since the last boundary (R356). -/
def checkLate (s : State) : State :=
  let trig := s.regField (ctl 8 0x14) 15 0
  let low := (List.range 16).filter (fun r => decide (Sparse.get 0 s.crown.lastLate r + trig < (s.region r).lateCnt))
  s.onCrown (fun c => { c with lowHeat := low ++ c.lowHeat.filter (fun r => !low.contains r),
                               lastLate := (List.range 16).foldl (fun m r => Sparse.set 0 m r (s.region r).lateCnt) c.lastLate })

/-- Whether the checkpoint keeps the next step from loading (R610, R614, R623): one is due or runs, or in every-step mode the last one is not
committed. -/
def ckptKeeps (s : State) (part step : Nat) : Bool :=
  let k := s.ckptSess (s.part part).session
  match k.run with
  | .off => false
  | .idle | .draining =>
    (decide (k.run = .idle ∧ k.plan.next = step ∧ k.taken ≠ some step)) ||
    (match k.cfg with | some c => c.everyStep && decide (k.plan.n ≠ k.begun) && (match k.taken with | some t => decide (step = t + 1) | none => false) | none => false)
  | _ => true

/-- A boundary that every-step mode holds for the commit is held from now on (R623). -/
def holdBegins (s : State) (part step : Nat) : State :=
  let i := (s.part part).session
  let k := s.ckptSess i
  if k.stepEnd = none ∧ (k.run = .idle ∨ k.run = .draining) ∧ k.taken.elim false (fun t => decide (step = t + 1)) = true then
    s.setCkpt i { k with stepEnd := some s.clock.now } else s

/-- At a step boundary the mean step time moves (R622), and a checkpoint whose predecessor still drains is passed over (R619). -/
def ckptBoundary (s : State) (part step : Nat) : State :=
  let i := (s.part part).session
  let k := s.ckptSess i
  match k.cfg with
  | none => s
  | some c =>
    let s := if k.run = .draining ∧ c.everyStep = false ∧ k.plan.next = step ∧ k.taken ≠ some step then
        (s.ckptRaise i 0x5005 k.begun).setCkpt i { k with deferred := satAdd 32 k.deferred 1 } else s
    if part ≠ c.lead then s
    else
      let k := s.ckptSess i
      let dt := s.clock.now - k.lastStep.getD 0
      let tau : CkptMean := match k.lastStep with
        | none => k.tau
        | some _ => if k.tau.num = 0 then ⟨dt, 0⟩ else ⟨(2 ^ c.alpha - 1) * k.tau.num + dt * 2 ^ k.tau.exp, k.tau.exp + c.alpha⟩
      s.setCkpt i { k with lastStep := some s.clock.now, tau := tau, settleLeft := k.settleLeft - 1 }

/-- Every stream of a partition has reached END, and Crown places the next step (R350 to R352). Nothing while a withdrawal or a quiesce is due. -/
def stepBoundary (s : State) (part : Nat) : State :=
  let cp := s.crownPart part
  match cp.wg with
  | none => s
  | some g =>
    if cp.held || !cp.begun || cp.withdraw.isSome || !cp.placed.all (fun p => p.ended) || s.ckpt.atRest.toNat.testBit part ||
        (s.part part).state == .ending then s
    else if s.ckptKeeps part cp.step then s.holdBegins part cp.step
    else
      let turn (s : State) : State := ((s.clearDirty part).checkLate).ckptBoundary part cp.step
      let step := (cp.step + 1) % 2 ^ 48
      match s.chooseVariant part g with
      | some v => s.runStep part g v step turn id
      | none => (turn s).noVariant part step

end State
end Sys2Proof.Machine
end

