-- ==== Sys2Proof/Machine/D2d.lean ====
section
/-!
DEFINITION. Die-to-die edges: their ends and flits (R21, R401 to R406), and loads and zeroisations of key slots (R377).
-/
namespace Sys2Proof.Machine
namespace State

def d2dEnd (s : State) (n : Nat) : D2d := Sparse.get D2d.reset s.d2d n
def onD2d (s : State) (n : Nat) (f : D2d → D2d) : State := { s with d2d := Sparse.update D2d.reset s.d2d n f }

/-- The other end of an edge (R21): 0 and 1, 2 and 3, 4 and 5 face each other. -/
def otherEnd (n : Nat) : Nat := if n % 2 = 0 then n + 1 else n - 1

/-- The die that an end stands on (R21): 0 or 1 a compute die, 2 LD. -/
def endDie (n : Nat) : Nat := if n = 0 ∨ n = 4 then 0 else if n = 2 ∨ n = 5 then 1 else 2

/-! Flits (R401, R402). -/

/-- A flit's header: `units` is LEN_M1. -/
def flitHeader (part : BitVec 5) (kgen : Bool) (cls : BitVec 2) (units : BitVec 3) (route : BitVec 48) : BitVec 64 :=
  BitVec.ofNat 64 (part.toNat + b2n kgen * 2 ^ 5 + cls.toNat * 2 ^ 6 + units.toNat * 2 ^ 8 + route.toNat * 2 ^ 16)

/-- The key slot that a flit's header names (R374). -/
def flitSlot (h : BitVec 64) : Nat := 2 * bitsNat h.toNat 4 0 + b2n (h.toNat.testBit 5)

/-- The IV of a flit (R402): the direction's salt and the counter. -/
def flitIv (salt ctr : Nat) : Bytes := keyPart salt 0 4 ++ leBytes 8 ctr

/-- The flit that carries a payload under a key, a salt and a counter (R401 to R403). -/
def sealFlit (key salt ctr : Nat) (h : BitVec 64) (payload : Bytes) : Flit :=
  let k := keyPart key 0 32
  let ct := gcmText k (flitIv salt ctr) payload
  let tag := (gcmTag k (flitIv salt ctr) (leBytes 8 h.toNat) ct).take 8
  ⟨h, ct, tag, BitVec.ofNat 32 (crc32 (leBytes 8 h.toNat ++ ct ++ tag))⟩

/-- Whether a flit's CRC stands (R403). -/
def flitCrcOk (f : Flit) : Bool := decide (f.crc.toNat = crc32 (leBytes 8 f.header.toNat ++ f.payload ++ f.tag))

/-- Whether a flit's tag stands under a key, a salt and the counter expected (R402). -/
def flitTagOk (key salt ctr : Nat) (f : Flit) : Bool :=
  decide ((gcmTag (keyPart key 0 32) (flitIv salt ctr) (leBytes 8 f.header.toNat) f.payload).take 8 = f.tag)

/-- An end no longer sends under a slot (R377), or does again. -/
def closeEnd (s : State) (n slot : Nat) (on : Bool) : State :=
  s.onD2d n (fun e => { e with txClosed := if on then e.txClosed ||| 1#64 <<< slot else e.txClosed &&& ~~~(1#64 <<< slot) })

/-- Whether an end may send under a slot (R377, R378). -/
def maySend (s : State) (n slot : Nat) : Bool := decide (s.heldKeys (16 + n) slot ≠ 0) && !(s.d2dEnd n).txClosed.toNat.testBit slot

/-- A flit is sent (R402, R406, R378): `payload` is filled up to its length. One of a torn partition that finds its slot empty is counted and nothing else
(R452). (DEDUCED, log entry 52) -/
def flitSend (s : State) (n : Nat) (h : BitVec 64) (payload : Bytes) : State :=
  let e := s.d2dEnd n
  if !s.maySend n (flitSlot h) then
    if s.torn (flitSlot h / 2) then s.count (ctl (0x60 + n) 0x14) 1 else s.raise (0x60 + n) 0x2101 n (e.txCtr % 2 ^ 32) 0
  else if 2 ^ 64 ≤ e.txCtr then s.beginHalt (0x60 + n) 0x210B n (e.txCtr % 2 ^ 32) 0
  else if !(s.takeSlot (16 + n) (flitSlot h) n (e.txCtr % 2 ^ 32)).2 then (s.takeSlot (16 + n) (flitSlot h) n (e.txCtr % 2 ^ 32)).1
  else
    let size := 32 * (bitsNat h.toNat 10 8 + 1)
    let f := sealFlit (s.heldKeys (16 + n) (flitSlot h)) e.salt e.txCtr h ((payload ++ List.replicate size 0).take size)
    let buf := e.replay ++ [(e.txCtr, f)]
    (s.onD2d n (fun e => { e with txCtr := e.txCtr + 1, replay := newest 64 buf })).emit (.flit n e.txCtr f)

/-- A flit is received (R402 to R405): the CRC, the slot, then the tag under the counter expected. One that finds no slot is discarded, and `owner`, the
operation of a core that it belonged to, is completed as a teardown completes it. (DEDUCED, log entry 52) -/
def flitReceive (s : State) (n : Nat) (f : Flit) (owner : Option (BitVec 9 × BitVec 6)) : State :=
  let e := s.d2dEnd n
  let lo := e.rxCtr % 2 ^ 32
  let key := s.heldKeys (16 + n) (flitSlot f.header)
  let next (s : State) : State := s.onD2d n (fun e => { e with rxCtr := e.rxCtr + 1, fails := 0 })
  if !flitCrcOk f then
    if e.fails = 3 then s.beginHalt (0x60 + n) 0x2105 n lo 0
    else (((s.onD2d n (fun e => { e with fails := e.fails + 1 })).count (ctl (0x60 + n) 0x10) 1).raise (0x60 + n) 0x2104 n lo 0).emit (.flitAgain n e.rxCtr)
  else if key = 0 then
    let s := ((next s).count (ctl (0x60 + n) 0x14) 1).raise (0x60 + n) 0x210A n lo 0
    match owner with
    | some (core, slot) => s.onOp core.toNat slot.toNat (fun m => m.refuse 4 0x2205)
    | none => s
  else if !(s.takeSlot (16 + n) (flitSlot f.header) n lo).2 then (s.takeSlot (16 + n) (flitSlot f.header) n lo).1
  else if !flitTagOk key (s.d2dEnd (otherEnd n)).salt e.rxCtr f then s.beginHalt (0x60 + n) 0x2106 n lo 0
  else (next s).emit (.flitOpened n f.header (gcmText (keyPart key 0 32) (flitIv (s.d2dEnd (otherEnd n)).salt e.rxCtr) f.payload))

/-- A flit leaves again from the replay buffer, as it stands there and under its own counter (R403). -/
def flitReplay (s : State) (n ctr : Nat) : State :=
  match (s.d2dEnd n).replay.find? (fun e => e.1 = ctr) with
  | some e => s.emit (.flit n e.1 e.2)
  | none => s

/-! Loads and zeroisations of slots (R377). -/

/-- Whether flits that an end sent under a slot have not reached the other end. -/
def flitsOut (s : State) (n slot : Nat) : Bool :=
  (s.d2dEnd n).replay.any (fun e => decide ((s.d2dEnd (otherEnd n)).rxCtr ≤ e.1 ∧ flitSlot e.2.header = slot))

/-- Whether an operation that began with a Cuff's slot still runs, or at a die-to-die Cuff may yet begin (R377). -/
def slotBusy (s : State) (cuff slot : Nat) : Bool :=
  if cuff < 16 then
    let c := (s.region cuff).cuff
    c.trackers.any (fun t => 2 * (s.mem.record t.page).part.toNat + b2n t.kgen = slot) ||
     c.merge.any (fun e => e.pinned && decide (2 * (s.mem.record e.page).part.toNat + b2n (s.mem.record e.page).kgen = slot))
  else if cuff < 22 then s.maySend (otherEnd (cuff - 16)) slot || s.flitsOut (otherEnd (cuff - 16)) slot
  else false

/-- A slot is loaded: an end of an edge sends under it only once the other end holds it too. -/
def loadSlot (s : State) (cuff slot : Nat) : State :=
  let s := s.setSlot cuff slot true
  if 16 ≤ cuff ∧ cuff < 22 then
    let n := cuff - 16
    if s.heldKeys (16 + otherEnd n) slot = 0 then s.closeEnd n slot true else (s.closeEnd n slot false).closeEnd (otherEnd n) slot false
  else s

/-- A slot is zeroised once nothing that began with it runs; an end of an edge first stops sending under it. -/
def zeroSlot (s : State) (cuff slot : Nat) : State :=
  let s := if 16 ≤ cuff ∧ cuff < 22 then s.closeEnd (cuff - 16) slot true else s
  if s.slotBusy cuff slot then s else s.setSlot cuff slot false

/-- All ends stop sending under a slot; whether every memory and die-to-die Cuff may then lose it. -/
def slotsIdle (s : State) (slot : Nat) : State × Bool :=
  let s := (List.range 6).foldl (fun s n => s.closeEnd n slot true) s
  (s, !(List.range 22).any (fun c => s.slotBusy c slot))

end State
end Sys2Proof.Machine
end

