-- ==== Sys2Proof/Machine/Update.lean ====
section
/-!
DEFINITION. The update engine: command slots, the tensor table, gradient accumulation and the optimizers (R268 to R300).
-/
namespace Sys2Proof.Machine

/-! Exact division and square root, rounded once (R291). -/

/-- A value with one bit more for what was cut off. -/
def sticky (neg : Bool) (q : Nat) (exact : Bool) (e : Int) : FVal := .fin neg (2 * q + b2n (!exact)) (e - 1)

def fdiv (a b : F32) : F32 :=
  rne32 (match val32 a, val32 b with
    | .nan, _ => .nan
    | _, .nan => .nan
    | .inf _, .inf _ => .nan
    | .inf s, .fin t _ _ => .inf (s != t)
    | .fin s _ e, .inf t => .fin (s != t) 0 e
    | .fin s m e, .fin t n f =>
      if n = 0 then (if m = 0 then .nan else .inf (s != t))
      else sticky (s != t) (m * 2 ^ 80 / n) (m * 2 ^ 80 % n = 0) (e - f - 80))

def fsqrt (a : F32) : F32 :=
  rne32 (match val32 a with
    | .nan => .nan
    | .inf s => if s then .nan else .inf false
    | .fin s m e =>
      if m = 0 then .fin s 0 e
      else if s then .nan
      else
        let odd := decide (e % 2 ≠ 0)
        let x := (if odd then 2 * m else m) * 2 ^ 80
        let r := isqrt x 64 0
        sticky false r (r * r = x) ((if odd then e - 1 else e) / 2 - 40))

/-! Pages as elements (R270). -/

/-- `n` little-endian fields of `k` bytes. -/
def chunks (k : Nat) : Nat → Bytes → List Nat
  | 0, _ => []
  | n + 1, bs => leNat (bs.take k) :: chunks k n (bs.drop k)

def unchunk (k : Nat) (xs : List Nat) : Bytes := xs.flatMap (leBytes k)

def groupSizeUe : Nat := 8192

/-- Format and bytes of a moment or factor (R270, R291). -/
def momFmt (wide : Bool) : Fmt := if wide then fp32 else bf16
def momBytes (wide : Bool) : Nat := if wide then 4 else 2

def momVals (wide : Bool) (n : Nat) (bs : Bytes) : List FVal := (chunks (momBytes wide) n bs).map (momFmt wide).decode

/-- A value as binary32 bits, exactly. -/
def bits32 (v : FVal) : F32 := rne32 v

/-! The optimizers (R289 to R292). -/

structure Hyp where
  lr : F32
  decay : F32
  beta1 : F32
  b1c : F32
  beta2 : F32
  b2c : F32
  eps : F32
  c1 : F32
  c2 : F32
  gscale : F32

def hypOf (ws : List F32) : Hyp :=
  let f (i : Nat) : F32 := ws.getD i 0
  ⟨f 0, f 1, f 2, f 3, f 4, f 5, f 6, f 7, f 8, f 9⟩

/-- The checks of R290 on a record of 64 bytes; a field of −0 is not negative. (DEDUCED, log entry 53) -/
def hypOk (sgd : Bool) (b : Bytes) : Bool :=
  let ws := (chunks 4 10 b).map (BitVec.ofNat 32)
  let h := hypOf ws
  let negative (w : F32) : Bool := (val32 w).lt (.fin false 0 0)
  let positive (w : F32) : Bool := FVal.lt (.fin false 0 0) (val32 w)
  ws.all (fun w => (val32 w).isFinite) && !([h.lr, h.decay, h.beta1, h.b1c, h.beta2, h.b2c].any negative) && !(val32 h.gscale).isZero &&
  (sgd || [h.c1, h.c2, h.eps].all positive) && (b.drop 40).all (fun x => x = 0)

/-- A sum of products, exact, rounded once stochastically. -/
def blend (F : Fmt) (a x b y : FVal) (rnd : Nat) : Nat := encode F (.sr rnd) ((a.mul x).add (b.mul y))

/-- The new master (R291). -/
def newMaster (h : Hyp) (w : F32) (u : FVal) (rnd : Nat) : F32 :=
  BitVec.ofNat 32 (encode fp32 (.sr rnd) (((val32 w).add ((val32 h.lr).mul u).neg).add ((val32 h.decay).mul (val32 w)).neg))

/-- `grad` of R291. -/
def gradOf (h : Hyp) (g : FVal) : F32 := rne32 (g.mul (val32 h.gscale))

/-- `update_dir` of R291. -/
def updateDir (h : Hyp) (m : FVal) (vh : F32) : F32 :=
  fdiv (rne32 (m.mul (val32 h.c1))) (fadd (fsqrt vh) h.eps)

/-- One element's results: master, first moment and second moment as codes. -/
structure ElemOut where
  w : F32
  m : Nat
  v : Nat

/-- Draws of one element (R294): by `k`. -/
abbrev ElemRnd := Nat → Nat

def stepSgd (F : Fmt) (h : Hyp) (w : F32) (m : FVal) (g : FVal) (rnd : ElemRnd) : ElemOut :=
  let m' := blend F (val32 h.beta1) m (val32 h.b1c) (val32 (gradOf h g)) (rnd 1)
  ⟨newMaster h w (F.decode m') (rnd 0), m', 0⟩

def stepAdaptive (F : Fmt) (h : Hyp) (w : F32) (m v : FVal) (g : FVal) (rnd : ElemRnd) : ElemOut :=
  let gp := gradOf h g
  let m' := blend F (val32 h.beta1) m (val32 h.b1c) (val32 gp) (rnd 1)
  let v' := blend F (val32 h.beta2) v (val32 h.b2c) (val32 (fmul gp gp)) (rnd 2)
  let vh := rne32 ((F.decode v').mul (val32 h.c2))
  ⟨newMaster h w (val32 (updateDir h (F.decode m') vh)) (rnd 0), m', v'⟩

/-- New row and column factors of a group (R292), `row` and `col` the old ones as codes, `gs` the group's 8 192 gradients. -/
def newFactors (F : Fmt) (h : Hyp) (rows cols : List FVal) (gs : List F32) (rndRow rndCol : Nat → Nat) : List Nat × List Nat :=
  let q := (gs.map (fun g => fmul g g)).toArray
  let rs (r : Nat) : F32 := rne32 ((val32 (treeSum 6 ((List.range 64).map (fun k => q.getD (64 * r + k) 0)))).scale (-6))
  let cs (k : Nat) : F32 := rne32 ((val32 (treeSum 7 ((List.range 128).map (fun r => q.getD (64 * r + k) 0)))).scale (-7))
  (rows.zipIdx.map (fun x => blend F (val32 h.beta2) x.1 (val32 h.b2c) (val32 (rs x.2)) (rndRow x.2)),
   cols.zipIdx.map (fun x => blend F (val32 h.beta2) x.1 (val32 h.b2c) (val32 (cs x.2)) (rndCol x.2)))

/-- Step 5 of R292. -/
def factoredVh (h : Hyp) (r c : FVal) (rbar : F32) : F32 :=
  if (val32 rbar).isZero then 0 else fmul (fdiv (rne32 (r.mul c)) rbar) h.c2

def stepFactored (F : Fmt) (h : Hyp) (vh : F32) (w : F32) (m : FVal) (g : FVal) (rnd : ElemRnd) : ElemOut :=
  let m' := blend F (val32 h.beta1) m (val32 h.b1c) (val32 (gradOf h g)) (rnd 1)
  ⟨newMaster h w (val32 (updateDir h (F.decode m') vh)) (rnd 0), m', 0⟩

/-- Elements whose new master or a new moment is not finite (R293). -/
def notFinite (F : Fmt) (o : ElemOut) : Bool := !(val32 o.w).isFinite || !(F.decode o.m).isFinite || !(F.decode o.v).isFinite

/-! Registrations. -/
namespace Registration

def sgd (t : Registration) : Bool := decide (t.opt = 0)
def adaptive (t : Registration) : Bool := decide (t.opt = 1)
def factored (t : Registration) : Bool := decide (t.opt = 2)

def holds (t : Registration) (part tensor q : Nat) : Bool := decide (t.part = part ∧ t.tensor = tensor ∧ t.first ≤ q ∧ q < t.first + t.count)

/-- Pages of a moment for `n` groups from a base. -/
def momRun (wide : Bool) (base n : Nat) : Nat × Nat := (base, if wide then 2 * n else n)

/-- The page runs of every page set (R270). -/
def runs (t : Registration) : List (Nat × Nat) :=
  [(t.comp, t.count), (t.lin, t.count), momRun t.wide t.m t.count] ++
  (if t.adaptive then [momRun t.wide t.v t.count] else []) ++
  (if t.factored then [(t.v + t.foff / 16, (t.foff + t.count + 15) / 16 - t.foff / 16)] else []) ++
  (if 1 < t.accN then [(t.gacc, 2 * t.count)] else [])

/-- Pages of the moment of group `i`. -/
def momPages (wide : Bool) (base i : Nat) : List Nat := if wide then [base + 2 * i, base + 2 * i + 1] else [base + i]

/-- The part of a registration from group `lo` to before group `hi`. -/
def slice (t : Registration) (lo hi : Nat) : Registration :=
  let k := lo - t.first
  let w := if t.wide then 2 * k else k
  { t with first := lo, count := hi - lo, comp := t.comp + k, lin := t.lin + k, m := t.m + w,
           v := if t.adaptive then t.v + w else t.v, gacc := if 1 < t.accN then t.gacc + 2 * k else t.gacc, foff := t.foff + k }

/-- What is left of a registration outside [lo, hi). -/
def without (t : Registration) (lo hi : Nat) : List Registration :=
  (if t.first < lo then [t.slice t.first (min lo (t.first + t.count))] else []) ++
  (if hi < t.first + t.count then [t.slice (max hi t.first) (t.first + t.count)] else [])

/-- Whether a registration and a run of groups of its tensor meet. -/
def meets (t : Registration) (part tensor lo hi : Nat) : Bool := decide (t.part = part ∧ t.tensor = tensor ∧ t.first < hi ∧ lo < t.first + t.count)

/-- A registration without the place that only factor pages have. -/
def plain (t : Registration) : Registration := if t.factored then t else { t with foff := 0 }

/-- A table with a run of groups of a tensor cut out (R284). -/
def cutFrom (ts : List Registration) (part tensor lo hi : Nat) : List Registration :=
  ts.flatMap (fun t => if t.meets part tensor lo hi then t.without lo hi else [t])

end Registration

/-! Command slots (R279, R280). -/
namespace UeCmd

def fld (c : UeCmd) (off n : Nat) : Nat := leNat ((c.slot.drop off).take n)
def op (c : UeCmd) : Nat := c.fld 0 1
def src (c : UeCmd) : Nat := c.fld 1 1
def tensor (c : UeCmd) : Nat := c.fld 2 2
def first (c : UeCmd) : Nat := c.fld 8 4
def count (c : UeCmd) : Nat := c.fld 12 4
def step (c : UeCmd) : Nat := c.fld 16 6
def micro (c : UeCmd) : Nat := c.fld 24 1
def srcVp (c : UeCmd) : Nat := c.fld 32 4
def src2Vp (c : UeCmd) : Nat := c.fld 36 4
def hypAddr (c : UeCmd) : Nat := c.fld 40 8
def signal (c : UeCmd) : Nat := c.fld 48 8

/-- The registration that a REGISTER slot asks for. -/
def registration (c : UeCmd) : Registration :=
  ⟨c.part, c.tensor, c.fld 1 1, c.first, c.count, c.fld 16 4, c.fld 20 4, c.fld 24 4, c.fld 28 4, c.fld 32 4, c.fld 36 2, c.fld 38 1, decide (c.fld 39 1 = 1), 0⟩

/-- Field checks of a REGISTER slot. (DEDUCED, log entry 53) -/
def registerOk (c : UeCmd) : Bool :=
  let t := c.registration
  decide (t.opt ≤ 2 ∧ 1 ≤ t.count ∧ t.first + t.count ≤ 2 ^ 32 ∧ t.stream ≤ 4095 ∧ 1 ≤ t.accN ∧ t.accN ≤ 64 ∧ c.fld 39 1 ≤ 1 ∧ c.fld 40 8 = 0 ∧ c.signal < 2 ^ 63) &&
  (!t.sgd || decide (t.v = 0)) && (decide (1 < t.accN) || decide (t.gacc = 0)) &&
  [t.comp, t.lin, t.m, t.v, t.gacc].all (fun v => decide (v < 2 ^ 31)) && t.runs.all (fun r => decide (r.1 + r.2 ≤ 2 ^ 31))

/-- Field checks of the other slots. (DEDUCED, log entry 53) -/
def fieldsOk (c : UeCmd) : Bool :=
  (match c.op with
   | 2 => decide (c.src = 0)
   | 3 => decide (1 ≤ c.src ∧ c.src ≤ 2 ∧ 1 ≤ c.micro)
   | 4 => decide (c.src ≤ 2)
   | _ => decide (c.src ≤ 1)) &&
  decide (1 ≤ c.count ∧ c.first + c.count ≤ 2 ^ 32 ∧ c.fld 22 2 = 0 ∧ c.fld 25 7 = 0) &&
  (decide (c.op = 3) || decide (c.micro = 0)) && (decide (c.op = 5) || decide (c.src2Vp = 0)) && (decide (c.op = 4) || decide (c.hypAddr = 0)) &&
  decide (c.srcVp < 2 ^ 31 ∧ c.src2Vp < 2 ^ 31 ∧ c.hypAddr < 2 ^ 63 ∧ c.signal < 2 ^ 63)

/-- Whether two commands name a page group in common (R277). -/
def meets (a b : UeCmd) : Bool := decide (a.part = b.part ∧ a.tensor = b.tensor ∧ a.first < b.first + b.count ∧ b.first < a.first + a.count)

end UeCmd

namespace State

def onUe (s : State) (r : Nat) (f : UpdateEngine → UpdateEngine) : State := s.onRegion r (fun g => { g with ue := f g.ue })

/-- An engine code (R301, R822). -/
def ueRaise (s : State) (r code tensor q : Nat) : State :=
  (s.raise (regionBlock r) code r tensor q).onUe r (fun u => { u with lastCode := code })

/-- A command that the checkpoint controller issued lies in no ring (R629): its place is beyond the window of its partition. (DESIGN CHOICE, log entry 57) -/
def ueInternal (c : UeCmd) : Bool := decide (2 ^ 45 ≤ c.slotOff)

/-- A command ends (R278): it leaves the window, writes STATUS and signals. (DEDUCED, log entry 56) -/
def ueEnd (s : State) (r : Nat) (c : UeCmd) (code : Nat) : State :=
  let s := s.onUe r (fun u => { u with window := u.window.filter (fun x => !(x.part = c.part && x.slotOff = c.slotOff)) })
  if ueInternal c then s else s.slotDone (some r) c.part c.slotOff (code + (if code = 0 then min c.nonFinite (2 ^ 32 - 1) * 2 ^ 16 else 0)) c.signal

/-- A command is refused (R278). -/
def ueRefuse (s : State) (r : Nat) (c : UeCmd) (code : Nat) : State :=
  ((s.ueRaise r code c.tensor c.first).onUe r (fun u => { u with refusedCnt := satAdd 16 u.refusedCnt 1 })).ueEnd r c code

/-- The engine works: not stopped, and the partition not at rest for a checkpoint. -/
def ueLive (s : State) (r part : Nat) : Bool := decide ((s.region r).ue.state ≠ 4) && !s.ckpt.atRest.toNat.testBit part && !s.torn part

/-- The next landed slot of a ring enters the window (R276): the slot is read through the region's translation cache (R324), and is told by its SEQ, which zeros
give as slot 0; one of partition 0 is refused while a session is held (R781). (DEDUCED, log entries 55 and 73) -/
def ueConsume (s : State) (r part : Nat) : State :=
  let u := (s.region r).ue
  match u.rings.find? (fun x => x.part = part) with
  | none => s
  | some ring =>
    let off := ring.vpage * pageSize + 64 * (ring.seq % max 1 ring.slots)
    if !(u.enable && decide (u.state = 0 ∧ u.window.length < 64) && s.ueLive r part) then s
    else match s.engineRead (some r) part off 64 with
      | .wait f => f s
      | .missing t _ => t
      | .got t bs =>
        if leNat ((bs.drop 4).take 4) ≠ ring.seq % 2 ^ 32 then t
        else
          let c : UeCmd := ⟨part, off, bs, false, 0, [], 0, false⟩
          let t := t.onUe r (fun u => { u with rings := u.rings.map (fun x => if x.part = part then { x with seq := x.seq + 1 } else x), window := u.window ++ [c] })
          if part = 0 ∧ t.sessionsHeld then t.ueRefuse r c 0x1107 else t

/-- Entry `k` of a window when its OP is right and nothing earlier on its groups is left (R277). An ACCUM of lower MICRO that stands later does not pass one
that is held for it (R286): both wait. (DEDUCED, log entry 55) -/
def ueReady (s : State) (r k : Nat) (ok : UeCmd → Bool) : Option UeCmd :=
  let w := (s.region r).ue.window
  match w[k]? with
  | some c => if ok c && !c.started && s.ueLive r c.part && (w.take k).all (fun e => !e.meets c) then some c else none
  | none => none

/-- Registrations of all engines of the chip. -/
def allRegs (s : State) : List Registration := (List.range 16).flatMap (fun r => (s.region r).ue.table)

/-- Registrations that a table gains when a command's groups are cut out of it, or change mode (R295). -/
def tableAfter (u : UpdateEngine) (c : UeCmd) : Nat :=
  (Registration.cutFrom u.table c.part c.tensor c.first (c.first + c.count)).length +
    (if c.op = 5 then (u.table.filter (fun t => t.meets c.part c.tensor c.first (c.first + c.count))).length else 0)

/-- Places of a table that MODE commands which have begun will take (R283). (DESIGN CHOICE, log entry 153) -/
def tableHeld (u : UpdateEngine) : Nat :=
  ((u.window.filter (fun c => c.started && decide (c.op = 5))).map (fun c => tableAfter u c - u.table.length)).foldl (· + ·) 0

/-- Whether a command that cuts registrations leaves the table within its 1 024 (R283). (DESIGN CHOICE, log entry 153) -/
def tableFits (u : UpdateEngine) (c : UeCmd) : Bool := decide (tableAfter u c + tableHeld u ≤ 1024)

/-- REGISTER (R279 to R283). A registration counts as equal where the parts that are left of an earlier one cover its groups and are equal in every field. (DEDUCED, log entry 53) -/
def ueRegister (s : State) (r : Nat) (c : UeCmd) : State :=
  let t := c.registration
  let u := (s.region r).ue
  let hi := t.first + t.count
  let own := s.allRegs.filter (fun x => x.part = t.part && x.tensor = t.tensor &&
    (x.meets t.part t.tensor t.first hi || x.runs.any (fun a => t.runs.any (fun b => runsMeet a b))))
  let same := own.all (fun x => decide (t.first ≤ x.first ∧ x.first + x.count ≤ hi) && decide (x.plain = (t.slice x.first (x.first + x.count)).plain)) &&
    decide ((own.map Registration.count).foldl (· + ·) 0 = t.count)
  if !c.registerOk then s.ueRefuse r c 0x1107
  else if s.allRegs.any (fun x => x.part = t.part && x.tensor != t.tensor && x.runs.any (fun a => t.runs.any (fun b => runsMeet a b))) then s.ueRefuse r c 0x1104
  else if same then s.ueEnd r c 0
  else if !own.isEmpty then s.ueRefuse r c 0x1107
  else if 1024 ≤ u.table.length + tableHeld u then s.ueRefuse r c 0x1108
  else (s.onUe r (fun u => { u with table := u.table ++ [t] })).ueEnd r c 0

/-- The registration of a group of a command. -/
def regOf (s : State) (r : Nat) (c : UeCmd) (q : Nat) : Option Registration := (s.region r).ue.table.find? (fun t => t.holds c.part c.tensor q)

def groupsOf (c : UeCmd) : List Nat := (List.range c.count).map (c.first + ·)

/-- Registrations of a command's groups. -/
def regsOf (s : State) (r : Nat) (c : UeCmd) : List Registration := (s.region r).ue.table.filter (fun t => t.meets c.part c.tensor c.first (c.first + c.count))

/-- Whether registrations cover the groups from `lo` to before `hi`, one after another. -/
def covered (ts : List Registration) (hi : Nat) : Nat → Nat → Bool
  | 0, lo => decide (hi ≤ lo)
  | n + 1, lo => decide (hi ≤ lo) || (match ts.find? (fun t => decide (t.first ≤ lo ∧ lo < t.first + t.count)) with
    | some t => covered ts hi n (t.first + t.count)
    | none => false)

/-- Whether every group of a command is registered (R284). -/
def ueNamed (s : State) (r : Nat) (c : UeCmd) : Bool := covered (s.regsOf r c) (c.first + c.count) (s.regsOf r c).length c.first

/-- The refusals that ACCUM, STEP, MODE and RELEASE share, in the order in which the model looks for them: fields, registration, buffer (R280, R284, R286); the
spec gives no order but that of the buffer before MICRO. (DEDUCED, log entry 53) -/
def ueCheck (s : State) (r : Nat) (c : UeCmd) : Option Nat :=
  if !c.fieldsOk then some 0x1107
  else if !s.ueNamed r c then some 0x1106
  else if (c.op = 3 ∨ c.op = 4 ∧ c.src = 0) ∧ (s.regsOf r c).any (fun t => t.accN = 1) = true then some 0x1107
  else none

/-- RELEASE (R283, R284): the groups leave the table, and with them their Lining protection. A table that would grow beyond its size refuses it. (DEDUCED, log entry 54) -/
def ueRelease (s : State) (r : Nat) (c : UeCmd) : State :=
  match s.ueCheck r c with
  | some code => s.ueRefuse r c code
  | none =>
    if !tableFits (s.region r).ue c then s.ueRefuse r c 0x1108
    else
      (s.onUe r (fun u => { u with
        table := Registration.cutFrom u.table c.part c.tensor c.first (c.first + c.count),
        done := u.done.filter (fun d => !(d.part = c.part && d.tensor = c.tensor && decide (c.first ≤ d.group ∧ d.group < c.first + c.count))) })).ueEnd r c 0

/-- Micro-steps done for a group at a step. -/
def microDone (s : State) (r part tensor q step : Nat) : Nat :=
  (((s.region r).ue.done.find? (fun d => d.part = part && d.tensor = tensor && d.group = q && d.step = step)).map AccDone.micro).getD 0

/-! Page groups (R270, R299). -/

/-- Values of a block as a gradient source: a NaN block whatever else it holds (R175); none where R176 calls it not legal. -/
def vwbGrad (b : Bytes) : Option (List FVal) :=
  if ((b[32]?).getD 0).toNat = 0xFF then some (List.replicate 32 .nan) else (vwbFrom b).map Vwb.values

/-- A gradient source (R280): values, and the free values drawn for blocks that R176 calls not legal. -/
def gradients (s : State) (src : Nat) (bs : Bytes) : List FVal × State :=
  match src with
  | 1 => ((chunks 2 groupSizeUe bs).map (fun w => bf16.decode w), s)
  | 2 =>
    let blocks := (List.range 256).map (fun i => vwbGrad ((bs.drop (34 * i)).take 34))
    let d := if blocks.any (fun b => b.isNone) then s.drawWords groupSizeUe else ([], s)
    (blocks.zipIdx.flatMap (fun b => match b.1 with
      | some v => v
      | none => ((d.1.drop (32 * b.2)).take 32).map val32), d.2)
  | _ => ((chunks 4 groupSizeUe bs).map (fun w => fp32.decode w), s)


/-- Draws of the registration's stream (R294); an element index beyond 48 bits is taken modulo 2^48. (DEDUCED, log entry 155) -/
def ueDraw (s : State) (t : Registration) (step e : Nat) : Nat := draw (streamKey (s.seedOf t.part) t.stream) step (e % 2 ^ 48)

/-- Places of a group's factors on their page. -/
def factorOff (t : Registration) (q : Nat) : Nat := 1024 * ((t.foff + (q - t.first)) % 16)

/-- Whole pages as window offsets and bytes. -/
def wholePages (vs : List Nat) : List (Nat × Nat) := vs.map (fun v => (v * pageSize, pageSize))

/-- What a command reads of a group, as window offsets and bytes (R270, R285, R287, R295): compute, Lining, first moment, second moment or factors, and the
gradient source or buffer. -/
def groupReads (t : Registration) (c : UeCmd) (q : Nat) : List (List (Nat × Nat)) :=
  let i := q - t.first
  let m := wholePages (Registration.momPages t.wide t.m i)
  let v := if t.adaptive then wholePages (Registration.momPages t.wide t.v i)
    else if t.factored then [((t.v + (t.foff + i) / 16) * pageSize + factorOff t q, 192 * momBytes t.wide)] else []
  let src := wholePages [c.srcVp + (q - c.first)]
  let gacc := wholePages [t.gacc + 2 * i, t.gacc + 2 * i + 1]
  match c.op with
  | 3 => [if c.micro = 1 then [] else gacc, src]
  | 4 => [wholePages [t.comp + i], wholePages [t.lin + i], m, v, if c.src = 0 then gacc else src]
  | _ => if t.wide = decide (c.src = 1) then [] else [m, v]

/-- What a command writes of a group. -/
def groupTargets (t : Registration) (c : UeCmd) (q : Nat) : List (Nat × Nat) :=
  let i := q - t.first
  let wide := decide (c.src = 1)
  match c.op with
  | 3 => wholePages [t.gacc + 2 * i, t.gacc + 2 * i + 1]
  | 4 => ((groupReads t c q).take 4).flatten
  | _ => if t.wide = wide then []
    else wholePages (Registration.momPages wide c.srcVp (q - c.first)) ++
      (if t.adaptive then wholePages (Registration.momPages wide c.src2Vp (q - c.first))
       else if t.factored then [((c.src2Vp + (q - c.first) / 16) * pageSize + 1024 * ((q - c.first) % 16), 192 * momBytes wide)] else [])

/-- Bytes cut into runs. -/
def cutAt : List Nat → Bytes → List Bytes
  | [], _ => []
  | n :: ns, b => b.take n :: cutAt ns (b.drop n)

/-- One group of an ACCUM (R285). -/
def accumGroup (s : State) (t : Registration) (c : UeCmd) (q : Nat) (bs : List Bytes) : Bytes × State :=
  let g := s.gradients c.src (bs.getD 1 [])
  let old := (chunks 4 groupSizeUe (bs.getD 0 [])).map (fun w => fp32.decode w)
  let new : List Nat :=
    if c.micro = 1 then g.1.map (fun v => (bits32 v).toNat)
    else (List.zip old g.1).zipIdx.map (fun x => encode fp32 (.sr (s.ueDraw t c.step (256 * (8192 * q + x.2) + 15 + c.micro))) (x.1.1.add x.1.2))
  (unchunk 4 new, g.2)

/-- One group of a STEP (R291 to R293): what is written, and the elements not finite. -/
def stepGroup (s : State) (t : Registration) (c : UeCmd) (q : Nat) (bs : List Bytes) : Bytes × Nat × State :=
  let h := hypOf c.hyp
  let F := momFmt t.wide
  let g := s.gradients c.src (bs.getD 4 [])
  let ws := List.zipWith (fun a b => masterOf (BitVec.ofNat 16 a) (BitVec.ofNat 16 b)) (chunks 2 groupSizeUe (bs.getD 0 [])) (chunks 2 groupSizeUe (bs.getD 1 []))
  let ms := momVals t.wide groupSizeUe (bs.getD 2 [])
  let p (j : Nat) : Nat := 8192 * q + j
  let rnd (j : Nat) : ElemRnd := fun k => s.ueDraw t c.step (256 * p j + k)
  let vb := bs.getD 3 []
  let w := momBytes t.wide
  let fac := if t.factored then
      newFactors F h (momVals t.wide 128 vb) (momVals t.wide 64 (vb.drop (128 * w))) (g.1.map (gradOf h))
        (fun r => s.ueDraw t c.step (256 * p (64 * r) + 5)) (fun k => s.ueDraw t c.step (256 * p k + 6))
    else ([], [])
  let rows := (fac.1.map F.decode).toArray
  let cols := (fac.2.map F.decode).toArray
  let rbar := rne32 ((val32 (treeSum 7 (rows.toList.map bits32))).scale (-7))
  let vs := if t.adaptive then momVals t.wide groupSizeUe vb else List.replicate groupSizeUe (.fin false 0 0)
  let outs : List ElemOut := (List.zip (List.zip ws ms) (List.zip vs g.1)).zipIdx.map (fun x =>
    let j := x.2
    let e := x.1
    match t.opt with
    | 0 => stepSgd F h e.1.1 e.1.2 e.2.2 (rnd j)
    | 1 => stepAdaptive F h e.1.1 e.1.2 e.2.1 e.2.2 (rnd j)
    | _ => stepFactored F h (factoredVh h (rows.getD (j / 64) .nan) (cols.getD (j % 64) .nan) rbar) e.1.1 e.1.2 e.2.2 (rnd j))
  (unchunk 2 (outs.map (fun o => o.w.toNat / 65536)) ++ unchunk 2 (outs.map (fun o => (liningOf o.w).toNat)) ++ unchunk w (outs.map ElemOut.m) ++
     (if t.adaptive then unchunk w (outs.map ElemOut.v) else if t.factored then unchunk w (fac.1 ++ fac.2) else []),
   (outs.filter (fun o => notFinite F o)).length, g.2)

/-- A moment or factor code in the other mode (R295). -/
def recode (toWide : Bool) (rnd : Nat) (v : FVal) : Nat := if toWide then (bits32 v).toNat else encode bf16 (.sr rnd) v

/-- One group of a MODE (R295): new moment and factor pages. -/
def modeGroup (s : State) (t : Registration) (c : UeCmd) (q : Nat) (bs : List Bytes) : Bytes :=
  let wide := decide (c.src = 1)
  let w := momBytes wide
  let p (j : Nat) : Nat := 8192 * q + j
  let conv (k : Nat) (b : Bytes) : Bytes :=
    unchunk w ((momVals t.wide groupSizeUe b).zipIdx.map (fun x => recode wide (s.ueDraw t c.step (256 * p x.2 + k)) x.1))
  let vb := bs.getD 1 []
  let rows := (momVals t.wide 128 vb).zipIdx.map (fun x => recode wide (s.ueDraw t c.step (256 * p (64 * x.2) + 7)) x.1)
  let cols := (momVals t.wide 64 (vb.drop (128 * momBytes t.wide))).zipIdx.map (fun x => recode wide (s.ueDraw t c.step (256 * p x.2 + 8)) x.1)
  conv 3 (bs.getD 0 []) ++
    (if t.adaptive then conv 4 vb else if t.factored then unchunk w (rows ++ cols) else [])

/-- What a command makes of a group (R285, R291, R295): the bytes for its targets in order, the elements not finite, and the state after its draws. -/
def groupOut (s : State) (t : Registration) (c : UeCmd) (q : Nat) (bs : List Bytes) : Bytes × Nat × State :=
  match c.op with
  | 3 => let x := s.accumGroup t c q bs; (x.1, 0, x.2)
  | 4 => s.stepGroup t c q bs
  | _ => (if bs = [] then [] else s.modeGroup t c q bs, 0, s)

/-! The engine at the memory port (R272, R273, R298, R385). -/

/-- Whether a page is in a registered Lining set of this region's own port (R273). -/
def ownLining (s : State) (r part v : Nat) : Bool := s.isLining part v && decide ((s.mapped part v).map pageRegion = some r)

/-- Whether a page is being moved (R298). -/
def moving (s : State) (part v : Nat) : Bool := (s.mapped part v).elim false (fun p => decide ((s.mem.record p).state.toNat = prtMigrating))

/-- Why a write of the engine cannot be made now: what is noted meanwhile, and the code where it is refused. -/
def ueBlock (s : State) (r part : Nat) (w : Nat × Nat) : Option (State × Option Nat) :=
  let v := w.1 / pageSize
  let a := s.access (.region r) part v (!s.ownLining r part v)
  match a.2 with
  | .refused _ code => some (a.1, some code)
  | .wait => some (a.1, none)
  | .loan l _ => if (s.chooseLink (s.chip / 8 * 8 + l) 511).isNone then some (s, none) else none
  | .served p =>
    if s.moving part v then some (s, none)
    else if w.2 = pageSize then
      let t := s.openTracker p (s.mem.record p).kgen .engine
      if t.2 then none else some (t.1, none)
    else if s.tracked p || (List.range (w.2 / 64)).any (fun i => s.pinnedLine p (w.1 % pageSize / 64 + i)) then some (s, none)
    else none

/-- A write of the engine that nothing blocks: a page whole under its current generation, or the lines of a place for factors (R385, R387). -/
def uePut (s : State) (r part off : Nat) (b : Bytes) : State :=
  let v := off / pageSize
  let a := s.access (.region r) part v (!s.ownLining r part v)
  match a.2 with
  | .served p =>
    if b.length = pageSize then ((a.1.enginePage p (a.1.mem.record p).kgen b).1).heat (.region r) p 256
    else (a.1.portWrite p (off % pageSize) b).heat (.region r) p (b.length / 64)
  | .loan l i => (a.1.lendWrite l i ⟨some r, part, off, .bytes b⟩).1
  | _ => a.1

/-- The first refusal that a command's pages meet when it begins: all its groups' are looked up, so that a refused command changes none (R278). (DEDUCED, log entry 56) -/
def ueRefusal (s : State) (r : Nat) (c : UeCmd) : Option (State × Nat) :=
  (groupsOf c).findSome? (fun q => (s.regOf r c q).bind (fun t =>
    ((groupReads t c q).flatten.findSome? (fun x => match s.access (.region r) c.part (x.1 / pageSize) false with
      | (t, .refused _ code) => some (t, code)
      | _ => none)).or
    ((groupTargets t c q).findSome? (fun x => (s.ueBlock r c.part x).bind (fun b => b.2.map (fun code => (b.1, code)))))))

/-! Commands that begin (R285 to R290, R295). -/

/-- The command begins: its groups follow one by one. (DEDUCED, log entry 55) -/
def ueBegin (s : State) (r : Nat) (c : UeCmd) (hyp : List F32) : State :=
  s.onUe r (fun u => { u with window := u.window.map (fun x => if x.part = c.part ∧ x.slotOff = c.slotOff then { x with started := true, next := c.first, hyp := hyp } else x) })

/-- A command begins, or is refused for a page. -/
def ueStart (s : State) (r : Nat) (c : UeCmd) (hyp : List F32) : State :=
  match s.ueRefusal r c with
  | some x => x.1.ueRefuse r c x.2
  | none => s.ueBegin r c hyp

/-- ACCUM begins, or waits for its predecessors (R285, R286). -/
def ueAccum (s : State) (r : Nat) (c : UeCmd) : State :=
  match s.ueCheck r c with
  | some code => s.ueRefuse r c code
  | none =>
    if (s.regsOf r c).any (fun t => decide (t.accN < c.micro)) || (groupsOf c).any (fun q => decide (c.micro ≤ s.microDone r c.part c.tensor q c.step)) then
      s.ueRefuse r c 0x1109
    else if (groupsOf c).all (fun q => decide (s.microDone r c.part c.tensor q c.step + 1 = c.micro)) then s.ueStart r c []
    else s

/-- STEP begins (R287, R290), or waits for its ACCUMs or its record. The record is read as a GET of the ring's partition would be. -/
def ueStep (s : State) (r : Nat) (c : UeCmd) : State :=
  match s.ueCheck r c with
  | some code => s.ueRefuse r c code
  | none =>
    if c.src = 0 ∧ !(groupsOf c).all (fun q => match s.regOf r c q with
        | some t => decide (t.accN ≤ s.microDone r c.part c.tensor q c.step)
        | none => false) then s
    else match s.engineGet (some r) c.part c.hypAddr 64 with
      | .wait f => f s
      | .missing t code => t.ueRefuse r c code
      | .got t b => if hypOk ((s.regsOf r c).all Registration.sgd) b then t.ueStart r c ((chunks 4 10 b).map (BitVec.ofNat 32)) else t.ueRefuse r c 0x1107

/-- MODE begins (R283, R295); into the mode already held it is complete (R296). -/
def ueMode (s : State) (r : Nat) (c : UeCmd) : State :=
  match s.ueCheck r c with
  | some code => s.ueRefuse r c code
  | none =>
    if (s.regsOf r c).all (fun t => t.wide == decide (c.src = 1)) then s.ueEnd r c 0
    else if !tableFits (s.region r).ue c then s.ueRefuse r c 0x1108
    else s.ueStart r c []

/-! The end of a page group (R295, R299, R300). -/

/-- Registrations switch to their new moment sets (R295, R296); after a change back that ends a settling, Crown frees the wide pages (R629). (DEDUCED, log entry 54) -/
def modeSwitch (s : State) (r : Nat) (c : UeCmd) : State :=
  let wide := decide (c.src = 1)
  let hi := c.first + c.count
  let old := (s.regsOf r c).filter (fun t => t.wide != wide)
  let runs := if ueInternal c && !wide then old.flatMap (fun t => Registration.momRun t.wide t.m t.count ::
    (if t.adaptive then [Registration.momRun t.wide t.v t.count] else if t.factored then [(t.v + t.foff / 16, (t.foff + t.count + 15) / 16 - t.foff / 16)] else [])) else []
  let s := runs.foldl (fun s run => (List.range run.2).foldl (fun s i => match s.mapped c.part (run.1 + i) with
    | some p => s.releasePage p
    | none => s) s) s
  s.onUe r (fun u => { u with table := u.table.flatMap (fun t =>
    if t.meets c.part c.tensor c.first hi && t.wide != wide then
      let lo := max t.first c.first
      let k := lo - c.first
      let n := t.slice lo (min (t.first + t.count) hi)
      t.without c.first hi ++ [{ n with wide := wide, m := c.srcVp + (if wide then 2 * k else k), v := if t.adaptive then c.src2Vp + (if wide then 2 * k else k) else if t.factored then c.src2Vp else n.v, foff := k }]
    else [t]) })

/-- A mismatch in a group (R299, R300): it is computed again; the second one stops the engine and asks for restore (R746). -/
def groupMismatch (s : State) (r : Nat) (c : UeCmd) : State :=
  let s := s.onUe r (fun u => { u with residueCnt := satAdd 16 u.residueCnt 1 })
  if c.retried then ((s.ueRaise r 0x110B c.tensor c.next).onUe r (fun u => { u with state := 4 })).crownAsk c.part 0x110B 0 0
  else (s.ueRaise r 0x110A c.tensor c.next).onUe r (fun u => { u with window := u.window.map (fun x => if x = c then { x with retried := true } else x) })

/-- What an engine keeps of a group that it has written: ACCUMs done (R286), parameters stepped (R301), the place in its stream (R198). -/
def groupKept (u : UpdateEngine) (t : Registration) (c : UeCmd) (q : Nat) : UpdateEngine :=
  let u := if (c.op = 3 ∧ c.micro = 1) ∨ (c.op = 5 ∧ c.src = 1) then u
    else { u with elems := Sparse.set 0 u.elems (4096 * t.part + t.stream) (256 * (8192 * (q + 1)) % 2 ^ 48) }
  match c.op with
  | 3 => { u with done := u.done.filter (fun d => !(d.part = c.part && d.tensor = c.tensor && d.group = q && d.step = c.step)) ++ [⟨c.part, c.tensor, q, c.step, c.micro⟩] }
  | 4 => { u with params := (u.params + groupSizeUe) % 2 ^ 64 }
  | _ => u

/-- The next group of a command is written back whole; at the last one the command ends (R278, R298, R299). (DEDUCED, log entry 56) -/
def groupWriteBack (s : State) (r k : Nat) (bad : Bool) : State :=
  match (s.region r).ue.window[k]? with
  | none => s
  | some c =>
    let q := c.next
    if !c.started || !s.ueLive r c.part then s
    else if bad then s.groupMismatch r c
    else match s.regOf r c q with
      | none => s.ueRefuse r c 0x1106
      | some t =>
        let reads := groupReads t c q
        let targets := groupTargets t c q
        if reads.flatten.any (fun x => s.moving c.part (x.1 / pageSize)) then s
        else match targets.findSome? (s.ueBlock r c.part) with
          | some (s', none) => s'
          | some (s', some code) => s'.ueRefuse r c code
          | none => match s.engineReads (some r) c.part reads.flatten with
            | .wait f => f s
            | .missing s' code => s'.ueRefuse r c code
            | .got s1 b =>
              let bs := cutAt (reads.map (fun xs => (xs.map Prod.snd).foldl (· + ·) 0)) b
              let out := s1.groupOut t c q bs
              let s2 := (List.zip targets (cutAt (targets.map Prod.snd) out.1)).foldl (fun s x => s.uePut r c.part x.1.1 x.2) out.2.2
              let s2 := s2.onUe r (fun u => groupKept u t c q)
              let c' : UeCmd := { c with next := q + 1, retried := false, nonFinite := c.nonFinite + out.2.1 }
              if q + 1 < c.first + c.count then
                s2.onUe r (fun u => { u with window := u.window.map (fun y => if y.part = c.part ∧ y.slotOff = c.slotOff then c' else y) })
              else (if c.op = 5 then s2.modeSwitch r c else s2).ueEnd r c' 0

end State
end Sys2Proof.Machine
end

