-- ==== Sys2Proof/Machine/Keys.lean ====
section
/-!
DEFINITION. Partitions, sessions, the Charter and keys: acceptance, the seed, owners' requests, teardown (R416 to R462).
-/
namespace Sys2Proof.Machine

/-- Strictly rising numbers. -/
def rising : List Nat → Bool
  | a :: b :: r => decide (a < b) && rising (b :: r)
  | _ => true

/-- Limits of a partition map (R424, R521). (DESIGN CHOICE, log entry 76) -/
def PartDecl.legal (owners : List Nat) (numbers : List Nat) (d : PartDecl) : Bool :=
  let bits := (List.range 16).filter (fun i => d.owners.toNat.testBit i)
  decide (1 ≤ d.number ∧ d.number ≤ 31) && bits.all (fun i => owners.contains i) && !bits.isEmpty &&
  (d.joint || (decide (bits.length = 1) && decide (d.reads = 0))) &&
  (List.range 32).all (fun p => !d.reads.toNat.testBit p || numbers.contains p) &&
  decide (1 ≤ d.quotaPages ∧ d.quotaPages ≤ 2097152 ∧ 1 ≤ d.inflight ∧ d.inflight ≤ 32768) &&
  decide (1 ≤ d.rate ∧ d.rate ≤ 7200 ∧ 1 ≤ d.burst ∧ d.burst ≤ 1024 ∧ d.fid ≠ 0)

/-- Limits of a ring table (R534). -/
def RingTable.legal (chips numbers : List Nat) (t : RingTable) : Bool :=
  decide (t.job ≤ 255 ∧ t.stream ≤ 4095 ∧ 1 ≤ t.width ∧ t.width ≤ 8 ∧ 1 ≤ t.rows ∧ t.rows ≤ 1024 ∧ 2 ≤ t.width * t.rows) &&
  numbers.contains t.part && decide (t.chips.length = t.width * t.rows) && t.chips.all (fun c => chips.contains c) &&
  decide (t.chips.eraseDups.length = t.chips.length)

/-- Limits of an export rule (R440). -/
def ExportRule.legal (owners numbers : List Nat) (r : ExportRule) : Bool :=
  numbers.contains r.src && (match r.form with
    | 0 => owners.contains r.dest
    | 1 => decide (r.dest = 16)
    | 2 => decide (r.dest = 17)
    | _ => false)

/-- Field limits of a Charter (R423, R424). (DESIGN CHOICE, log entry 76) -/
def Charter.legal (c : Charter) : Bool :=
  let numbers := c.parts.map PartDecl.number
  decide (c.bytes ≤ 65536 ∧ c.sessionId.length = 16 ∧ 1 ≤ c.owners.length ∧ c.owners.length ≤ 16 ∧ c.ownerKeys.length = c.owners.length) && rising c.owners && c.owners.all (fun i => decide (i < 16)) &&
  decide (1 ≤ c.parts.length ∧ c.parts.length ≤ 31 ∧ numbers.eraseDups.length = numbers.length) && c.parts.all (PartDecl.legal c.owners numbers) &&
  decide (1 ≤ c.chips.length ∧ c.chips.length ≤ 8192 ∧ c.digests.length = c.chips.length) && rising c.chips && c.chips.all (fun x => decide (x ≤ 8191)) &&
  c.digests.all (fun d => decide (d.length = 48)) && decide (c.rings.length ≤ 256) && c.rings.all (RingTable.legal c.chips numbers) &&
  decide ((c.rings.map RingTable.job).eraseDups.length = c.rings.length) && decide (c.exports.length ≤ 64) && c.exports.all (ExportRule.legal c.owners numbers) &&
  decide (1 ≤ c.escrow.length ∧ c.escrow.length ≤ 16 ∧ c.seedCommit.length = c.owners.length ∧ 1 ≤ c.workgraphs.length ∧ c.workgraphs.length ≤ 64) &&
  c.seedCommit.all (fun d => decide (d.length = 48)) && c.workgraphs.all (fun d => decide (d.length = 48)) &&
  (match c.restore with | some r => decide (r.length = 16) | none => true)

namespace State

def sessionsIn (s : State) : List (Nat × Session) := (List.range 8).map (fun i => (i, s.session i))

/-- Pages that Charters in force have been given, and the pages of partition 0 (R426). -/
def quotaSum (s : State) : Nat :=
  ((s.sessionsIn.map (fun x => match x.2.charter with
    | some c => (c.parts.map PartDecl.quotaPages).foldl (· + ·) 0
    | none => 0)).foldl (· + ·) 0)

/-- Checks of a Charter in the order of R426, after those of an open chip and of board test (R774, R778): the code of the first that fails. `encOk` tells of its encoding, `sigsOk` of the owners' signatures,
`operOk` that the operator's is present and valid. (DEDUCED, log entry 74) -/
def charterCheck (s : State) (c : Charter) (encOk sigsOk operOk : Bool) : Option Nat :=
  let pol := s.reg (ctl 1 0x10)
  if s.test.opened || s.test.bscan then some 0x2202
  else if !encOk || !c.legal then some 0x2201
  else if !sigsOk then some 0x2201
  else if c.owners.length < bitsNat pol.toNat 4 0 ∨ (pol.toNat.testBit 5 ∧ !operOk) ∨ (!pol.toNat.testBit 6 ∧ c.exports.any (fun r => r.form = 1)) then some 0x2201
  else if !(List.zip c.chips c.digests).contains (s.chip, s.boot.deviceId) then some 0x2202
  else if c.notAfter ≤ s.clock.now then some 0x2202
  else if c.parts.any (fun d => (s.part d.number).state ≠ .free) ∨ s.sessionsIn.all (fun x => x.2.state ≠ .none) then some 0x2202
  else if s.sessionsIn.any (fun x => match x.2.charter with | some d => d.sessionId = c.sessionId | none => false) then some 0x2202
  else if 2097152 < s.quotaSum + (c.parts.map PartDecl.quotaPages).foldl (· + ·) 0 + s.regField (ctl 1 4) 20 0 then some 0x2202
  else none

/-- A Stolulter connection ends, and with it a staging that has not committed (R699). (DEDUCED, log entry 75) -/
def connClose (s : State) (conn : Nat) : State :=
  let gone := decide (s.mgmt.stage.conn = some conn) && decide (s.mgmt.stage.state ≠ 3)
  { s with mgmt := { s.mgmt with conns := s.mgmt.conns.filter (fun c => c.id ≠ conn), stage := if gone then Stage.idle else s.mgmt.stage } }

/-- A Charter is accepted (R427, R671): connections whose key is an owner's end (R686), then slot, keys, partitions, and Crown's pinned rings. -/
def charterAccept (s : State) (c : Charter) : State × Nat :=
  match (s.sessionsIn.find? (fun x => x.2.state = .none)) with
  | none => (s, 8)
  | some (i, _) =>
    let s := s.setSession i { Session.none with state := .keying, charter := some c }
    let s := { s with clock := { s.clock with slewOnly := true } }
    let s := (s.mgmt.conns.filter (fun x => c.ownerKeys.contains x.key)).foldl (fun s x => s.connClose x.id) s
    let s := c.parts.foldl (fun s d =>
      let p := d.number
      let s := s.setPart p { Partition.free with state := .open_, gen := 1, session := i, tokens := d.burst * 2 ^ 20 }
      let s := (s.setChipSlots (2 * p + 1) true).setSlot 58 (2 * p) true
      let s := { s with host := { s.host with hostCtr := Sparse.set 0 s.host.hostCtr p 0 } }
      (s.mapPinned p 0x3FFFFFFE).mapPinned p 0x3FFFFFFF) s
    (s.pushEvent 1 ([i] ++ c.sessionId.map BitVec.toNat ++ c.digest.map BitVec.toNat), i)

/-- A Charter delivered by either way (R426, R654, R659): its code, and the slot. (DEDUCED, log entry 75; DESIGN CHOICE, log entry 76) -/
def charterTake (s : State) (way : Nat) (c : Charter) (encOk sigsOk operOk : Bool) : State × Nat × Nat :=
  if !s.boot.ready then (s.raise 2 0x020A 0 0 0, 0x020A, 0)
  else if !(s.reg (ctl 1 0x10)).toNat.testBit way then (s.raise 0x000C 0x2201 0 0 0, 0x2201, 0)
  else match s.charterCheck c encOk sigsOk operOk with
    | some code => (s.raise 0x000C code 0 0 0, code, 0)
    | none => let t := s.charterAccept c; (t.1, 0, t.2)

/-! Owners' requests (R430, R435, R436). -/

/-- The session that a request names. -/
def sessionOf (s : State) (id : List Byte) : Option (Nat × Session) :=
  s.sessionsIn.find? (fun x => decide (x.2.state ≠ .none) && (match x.2.charter with | some c => c.sessionId = id | none => false))

/-- A code of KEYS with session slot and owner (R822). -/
def keysRaise (s : State) (code slot owner : Nat) : State := s.raise 0x000C code slot owner 0

/-- The checks of any owner's request (R435): the session's slot, or the state with the refusal. (DESIGN CHOICE, log entry 71) -/
def ownerReq (s : State) (sec owner : Nat) (id : List Byte) (sigOk : Bool) (request : Nat) (f : State → Nat → Session → State) : State :=
  match s.keys.secure.find? (fun x => x.id = sec && x.finished) with
  | none => s
  | some x =>
    match s.sessionOf id with
    | none => (s.keysRaise 0x2209 0 owner).emit (.spdm x.transport request true [0x2209])
    | some (i, y) =>
      let known := match y.charter with | some c => c.owners.contains owner | none => false
      if !sigOk || !known then (s.keysRaise 0x2201 i owner).emit (.spdm x.transport request true [0x2201])
      else f s i y

def ownerRefuse (s : State) (sec request code slot owner : Nat) : State :=
  let t := ((s.keys.secure.find? (fun x => x.id = sec)).map SecureSession.transport).getD 0
  (s.keysRaise code slot owner).emit (.spdm t request true [code])

def ownerOk (s : State) (sec request : Nat) : State :=
  let t := ((s.keys.secure.find? (fun x => x.id = sec)).map SecureSession.transport).getD 0
  s.emit (.spdm t request false [])

/-- A seed share (R430, R431). -/
def takeSeed (s : State) (sec owner : Nat) (share : List Byte) (i : Nat) (y : Session) : State :=
  match y.charter with
  | none => s
  | some c =>
    if y.state ≠ .keying ∨ y.shares.any (fun x => x.1 = owner) then s.ownerRefuse sec 1 0x2209 i owner
    else
      let commit := (c.owners.zip c.seedCommit).find? (fun x => x.1 = owner)
      if commit.map Prod.snd ≠ some (sha384 (c.sessionId ++ [BitVec.ofNat 8 owner] ++ share)) ∨ share.length ≠ 32 then s.ownerRefuse sec 1 0x2208 i owner
      else
        let shares := y.shares ++ [(owner, share)]
        if shares.length = c.owners.length then
          let all := c.owners.flatMap (fun o => ((shares.find? (fun x => x.1 = o)).map Prod.snd).getD [])
          let s := s.setSession i { y with shares := shares, seed := some ((sha384 (c.sessionId ++ all)).take 32), state := .active }
          (s.pushEvent 2 [i]).ownerOk sec 1
        else (s.setSession i { y with shares := shares }).ownerOk sec 1

/-- AGREE (R436): SMD draws a key pair, answers with its public key, and derives the owner's new pair from the secret it shares with the owner's key `pub`; the
counters begin at 0. (DEDUCED, log entry 72) -/
def takeAgree (s : State) (sec owner : Nat) (pub : Bytes) (i : Nat) (y : Session) : State :=
  let d := s.entropyBytes 48
  let z := Config.ecShared d.1 pub
  let id := y.charter.elim [] Charter.sessionId
  let n := s.keys.agreements
  let s := { d.2 with keys := { s.keys with agreements := n + 1 } }
  let s := s.setSession i { y with pairs := y.pairs.filter (fun p => p.owner ≠ owner) ++ [⟨owner, n, 0, 0, pairKey id z owner 0, pairKey id z owner 1⟩] }
  let t := ((s.keys.secure.find? (fun x => x.id = sec)).map SecureSession.transport).getD 0
  s.emit (.spdm t 2 false ((Config.ecPublic d.1).map BitVec.toNat))

/-- Partitions of a session slot. -/
def partsOf (s : State) (i : Nat) : List Nat :=
  (List.range 32).filter (fun p => decide ((s.part p).state ≠ .free ∧ (s.part p).session = i ∧ p ≠ 0))

/-! Teardown (R451 to R454). -/

/-- Whether a mover operation belongs to a partition of a list: by its issuer or by its destination. -/
def opOf (ps : List Nat) (c : Core) (m : MoverOp) : Bool := ps.contains m.part || ps.contains c.spec.part.toNat

/-- A command of a window whose partition is torn down stops (R298): one that runs completes with REFUSED_TEARDOWN, STATUS and signal at once, since its pages go. (DEDUCED, log entry 56) -/
def ueTorn (s : State) (r : Nat) (c : UeCmd) : State :=
  let s := s.onUe r (fun u => { u with window := u.window.filter (fun x => !(x.part = c.part && x.slotOff = c.slotOff)) })
  if !c.started || ueInternal c then s else (s.slotDone (some r) c.part c.slotOff 0x2205 c.signal).drainEngine

/-- The update engines stop the commands of the partitions (R298). -/
def enginesStop (s : State) (ps : List Nat) : State :=
  (List.range 16).foldl (fun s r => (s.region r).ue.window.foldl (fun s c => if ps.contains c.part then s.ueTorn r c else s) s) s

/-- Copies of pages of the partitions are abandoned (R371): pages taken for them are erased. -/
def copiesCut (s : State) (ps : List Nat) : State :=
  let mine (c : PageCopy) : Bool := ps.contains (match c.kind with
    | .migrate => (s.mem.record c.src).part.toNat
    | .lend part _ _ _ => part
    | .recall part _ _ _ => part)
  let gone := s.crown.copies.filter mine
  let s := s.onCrown (fun x => { x with copies := x.copies.filter (fun c => !mine c), selected := x.selected.filter (fun p => !ps.contains (s.mem.record p).part.toNat) })
  gone.foldl (fun s c => match c.kind with
    | .lend part _ pos i => s.lendSend pos (.returned part i)
    | _ => s.eraseFree c.dst) s

/-- The local cut (R451): translation caches, region buffers, merge entries, scrubber jobs, engines, records, and what Crown and Brim hold. -/
def localCut (s : State) (ps : List Nat) : State :=
  let mine (p : Nat) : Bool := (s.mem.record p).valid && ps.contains (s.mem.record p).part.toNat
  let cut (g : Region) : Region :=
    { g with
      tc := g.tc.filter (fun e => !ps.contains e.part)
      rb := g.rb.filter (fun f => !ps.contains f.part)
      fills := g.fills.filter (fun f => !mine f.1)
      cuff := { g.cuff with
        trackers := g.cuff.trackers.filter (fun t => !mine t.page)
        merge := g.cuff.merge.filter (fun e => !mine e.page || e.pinned)
        scrubQ := g.cuff.scrubQ.filter (fun j => !mine j.page || j.kind == .erase)
        crownList := g.cuff.crownList.filter (fun j => !mine j.page || j.kind == .erase)
        running := g.cuff.running.filter (fun j => !mine j.page || j.kind == .erase) }
      ue := { g.ue with
        rings := g.ue.rings.filter (fun r => !ps.contains r.part)
        elems := g.ue.elems.filter (fun e => !ps.contains (e.1 / 4096))
        table := g.ue.table.filter (fun t => !ps.contains t.part)
        done := g.ue.done.filter (fun d => !ps.contains d.part) } }
  let s := (List.range 16).foldl (fun s r => s.onRegion r cut) s
  let s := s.onMem (fun m => { m with engine := m.engine.filter (fun w => !ps.contains w.part), fetched := m.fetched.filter (fun f => !ps.contains f.part) })
  let s := s.copiesCut ps
  let s := s.onMem (fun m => { m with prt := m.prt.map (fun (e : Nat × PrtRec) =>
    if e.2.valid && ps.contains e.2.part.toNat && decide (e.2.state.toNat ≠ prtScrubbing) then (e.1, { e.2 with state := BitVec.ofNat 3 prtPoisoned }) else e) })
  let s := s.onRed (fun q => { q with rings := q.rings.filter (fun r => !ps.contains r.part), jobs := q.jobs.filter (fun j => !ps.contains j.part),
                                      early := q.early.filter (fun e => !ps.contains e.part) })
  let s := s.onBrim (fun b => { b with nodes := b.nodes.filter (fun n => !ps.contains n.id.part) })
  { s with crown := { s.crown with parts := s.crown.parts.filter (fun e => !ps.contains e.1), loans := s.crown.loans.filter (fun l => !ps.contains l.part) } }

/-- What the checkpoint controller holds of a session goes (R634). -/
def ckptCut (s : State) (i : Nat) (ps : List Nat) : State :=
  let s := s.setCkpt i CkptSess.off
  { s with ckpt := { s.ckpt with rings := s.ckpt.rings.filter (fun r => !ps.contains r.part)
                                 atRest := ps.foldl (fun w p => w &&& ~~~(1#32 <<< p)) s.ckpt.atRest
                                 last := s.ckpt.last.filter (fun p => !ps.contains (s.mem.record p).part.toNat) } }

/-- Peers are told (R451): a TEARDOWN frame for each FID on every link that is up, on a rail for each chip of the path store that holds the FID, and frames
of the partitions leave the queues. A chip that shares no key of the partition gets none. -/
def tellPeers (s : State) (ps : List Nat) : State :=
  (List.range 36).foldl (fun s j =>
    if (s.link j).run = .up then
      let s := s.onLink j (fun l => { l with queue := l.queue.filter (fun f => !ps.contains f.part) })
      let told (p : Nat) : List Nat := (s.net.paths.filter (fun x => x.part = p && x.ready && (if j < 28 then decide (x.peer = (s.link j).peer) else
        decide (x.peer / 8 ≠ s.chip / 8)))).map Path.peer
      ps.foldl (fun s p => (told p).foldl (fun s c => s.queueOn j 3 p 0 c 0 []) s) s
    else s.onLink j (fun l => { l with queue := l.queue.filter (fun f => !ps.contains f.part) })) s

/-- Every operation of the partitions that has issued and not completed completes with REFUSED_TEARDOWN (R451); exports that wait are closed. -/
def closeOps (s : State) (ps : List Nat) : State :=
  let s := { s with cores := s.cores.map (fun (e : Nat × Core) => (e.1, { e.2 with mover := e.2.mover.map (fun m => if opOf ps e.2 m then m.refuse 4 0x2205 else m) })) }
  { s with host := { s.host with exports := s.host.exports.filter (fun x => !ps.contains x.part) } }

/-- Crown sets DRAIN on the cores of the partitions (R451). -/
def drainCores (s : State) (ps : List Nat) : State :=
  { s with cores := s.cores.map (fun (e : Nat × Core) => if ps.contains e.2.spec.part.toNat && e.2.ctl.enable && e.2.ctl.run == .running then
      (e.1, e.2.withCtl (fun k => { k with draining := true, run := .draining })) else e) }

/-- A teardown begins (R451): fence, local cut, peers told, operations closed. Nothing in NONE and ENDING. -/
def beginTeardown (s : State) (i cause : Nat) : State :=
  let y := s.session i
  if y.state = .none ∨ y.state = .ending then s
  else
    let ps := s.partsOf i
    let s := (s.enginesStop ps).setSession i { y with state := .ending, teardown := .fenced, cause := cause }
    let s := ps.foldl (fun s p => s.setPart p { s.part p with state := .ending }) s
    let s := (s.keysRaise 0x2205 i 0).pushEvent 4 [i, cause]
    ((((s.drainCores ps).tellPeers ps).closeOps ps).localCut ps).ckptCut i ps

/-- Whether any engine still holds an operation of the partitions (R451). -/
def fenceHeld (s : State) (ps : List Nat) : Bool :=
  s.cores.any (fun e => e.2.mover.any (fun m => opOf ps e.2 m)) || s.host.exports.any (fun x => ps.contains x.part) ||
  s.net.links.any (fun e => (e.2.queue ++ e.2.unacked).any (fun f => ps.contains f.part)) ||
  (List.range 16).any (fun r => (s.region r).cuff.merge.any (fun e => e.pinned && ps.contains (s.mem.record e.page).part.toNat))

/-- The fence has drained (R451): once no flit under them is on its way (R377) keys are zeroised, and pages go to erase. -/
def teardownDrained (s : State) (i : Nat) : State :=
  let y := s.session i
  let ps := s.partsOf i
  if y.teardown ≠ .fenced ∨ s.fenceHeld ps then s
  else
    let idle := ps.foldl (fun (a : State × Bool) p => let x := a.1.slotsIdle (2 * p); let y := x.1.slotsIdle (2 * p + 1); (y.1, a.2 && x.2 && y.2)) (s, true)
    if !idle.2 then idle.1
    else
    let s := ps.foldl (fun s p => (s.zeroAllSlots (2 * p)).zeroAllSlots (2 * p + 1)) idle.1
    let s := s.onNet (fun n => { n with paths := n.paths.filter (fun x => !ps.contains x.part) })
    let s := s.setSession i { y with teardown := .drained, seed := none, pairs := [], shares := [], escrow := [], ckKnown := false }
    let s := ps.foldl (fun s p => s.setPart p { s.part p with state := .erasing }) s
    (s.mem.pagesOf (fun q => ps.contains q)).foldl (fun s p =>
      (s.onMem (fun m => m.unlink p)).eraseFree p) s

/-- The last page is FREE (R451): the partitions and the slot are free. -/
def sessionClosed (s : State) (i : Nat) : State :=
  let y := s.session i
  let ps := s.partsOf i
  if y.teardown ≠ .drained ∨ s.mem.prt.any (fun e => decide (e.2.state.toNat = prtScrubbing) && ps.contains e.2.part.toNat) then s
  else
    let s := ps.foldl (fun s p => s.setPart p Partition.free) s
    (s.setSession i Session.none).pushEvent 4 [i, 0]

/-! Rotation (R447 to R449). -/

/-- Whether a page of a partition, or a job on one, is still of the older generation (R447). (DEDUCED, log entry 78) -/
def olderLeft (s : State) (p : Nat) : Bool :=
  let old := decide (((s.part p).gen + 1) % 2 = 1)
  (s.mem.pagesOf (fun q => q = p)).any (fun x => (s.mem.record x).kgen = old) ||
  (List.range 16).any (fun r => (s.region r).cuff.trackers.any (fun t => (s.mem.record t.page).part.toNat = p && (s.mem.record t.page).kgen = old))

/-- The last sweep job has completed (R447), and no flit under the old generation is on its way (R377). A scheduled request that was turned away is made now (R448). (DEDUCED, log entry 78) -/
def rotationComplete (s : State) (p : Nat) : State :=
  let x := s.part p
  if x.state ≠ .rotating ∨ s.olderLeft p then s
  else
    let idle := s.slotsIdle (2 * p + (x.gen + 1) % 2)
    if !idle.2 then idle.1
    else
    let s := idle.1.setChipSlots (2 * p + (x.gen + 1) % 2) false
    let s := (s.setPart p { x with state := .open_, schedulePending := false }).pushEvent 3 [p, x.gen, 0]
    if x.schedulePending then (s.rotate p).1 else s

end State
end Sys2Proof.Machine
end

