-- ==== Sys2Proof/Machine/Ckpt.lean ====
section
/-!
DEFINITION. The checkpoint controller: configuration, snapshots, images, drains, commits and the interval (R600 to R623).
-/
namespace Sys2Proof.Machine

/-- First pages of a local area and of a buddy slot (R609). -/
def areaVp (parity : Nat) : Nat := 0x38000000 + parity * 0x01000000
def buddyVp (parity : Nat) : Nat := 0x3C000000 + parity * 0x01000000

/-- Pages of an image for a set (R615). -/
def imagePages (set : Nat) : Nat :=
  let d := ceilDiv (8 * set) pageSize
  1 + d + 4 + set + ceilDiv (16 * (d + 4 + set)) pageSize

/-- The size of the set that an image of so many pages holds. -/
def imageSet (total : Nat) : Option Nat := (List.range total).find? (fun set => imagePages set = total)

/-- The image page at which the state record begins, from the header. -/
def recordPage (header : Bytes) : Nat := 1 + (imageSet (field_ header 44 4)).elim 0 (fun set => ceilDiv (8 * set) pageSize)

/-- The IV of an image page (R616). -/
def imageIv (n j place : Nat) : Bytes := leBytes 4 n ++ leBytes 4 j ++ leBytes 4 place

/-- The bytes of a state record after its pause, in a layout that the manual does not give. (DESIGN CHOICE, log entry 94) -/
opaque Config.recordByte : CkptRecord → Nat → BitVec 8

/-- The four pages of a state record (R603). -/
def recordBytes (r : CkptRecord) : Bytes := leBytes 4 r.pause ++ (List.range (4 * pageSize - 4)).map (Config.recordByte r)

/-- A sealed image page (R616): its text and its tag. The pause that opens the state record stays in the clear, since the buddy reads it (R617). (DESIGN CHOICE, log entry 94) -/
def sealPage (ck iv aad : Bytes) (clear : Nat) (page : Bytes) : Bytes × Bytes :=
  let ct := gcmText ck iv (page.drop clear)
  (page.take clear ++ ct, gcmTag ck iv aad ct)

/-- Pages of 16 KiB of a string. -/
def pagesOf (b : Bytes) : List Bytes := (List.range (ceilDiv b.length pageSize)).map (fun k => (b.drop (k * pageSize)).take pageSize)

/-- A string filled up with zeros to whole pages. -/
def padPages (b : Bytes) : Bytes := b ++ List.replicate (ceilDiv b.length pageSize * pageSize - b.length) 0

def CkptPlan.bytes (p : CkptPlan) : Bytes :=
  leBytes 4 p.n ++ leBytes 4 (p.n + 1) ++ leBytes 8 p.sN ++ leBytes 8 p.next ++ leBytes 4 p.t ++ leBytes 4 p.p ++ leBytes 4 p.restores ++ leBytes 4 p.m ++ List.replicate 24 0

/-- DEDUCED, log entry 93. -/
def planFrom (b : Bytes) : CkptPlan := ⟨field_ b 0 4, field_ b 8 8, field_ b 16 8, field_ b 24 4, field_ b 28 4, field_ b 32 4, field_ b 36 4⟩

/-- T of R622: the least T within its bounds with (T × τ)² at least 2 × P × M. (DEDUCED, log entry 95) -/
def interval (c : CkptCfg) (k : CkptSess) (p : Nat) : Nat :=
  ((List.range (c.tMax - c.tMin)).map (c.tMin + ·)).find? (fun t =>
    decide (2000 * p * k.mean.num * 2 ^ (2 * k.tau.exp) ≤ t * t * (k.tau.num * k.tau.num) * 2 ^ k.mean.exp ∧ 0 < k.tau.num)) |>.getD c.tMax

/-- The bytes of a restore record: header and replacement list (R604, R625). -/
def restoreBytes (n sN rseq : Nat) (repl : List (Nat × Nat)) : Bytes × Bytes :=
  (leBytes 4 n ++ leBytes 8 sN ++ leBytes 2 repl.length ++ leBytes 4 rseq ++ List.replicate 46 0,
   let l := repl.flatMap (fun x => leBytes 2 x.1 ++ leBytes 2 x.2 ++ leBytes 4 0)
   l ++ List.replicate (256 - l.length) 0)

namespace State

def onCkpt (s : State) (i : Nat) (f : CkptSess → CkptSess) : State := s.setCkpt i (f (s.ckptSess i))

/-- The lead partition of a session (R606): its lowest-numbered joint partition. -/
def leadPart (s : State) (i : Nat) : Option Nat :=
  (s.session i).charter.bind (fun c => (List.range 32).find? (fun p => c.parts.any (fun d => d.number = p && d.joint)))

/-! The set (R601). -/

/-- Pages of a partition's command rings whose positions a state record holds (R603): first page and slots. -/
def ringPages (s : State) (p : Nat) : List Nat :=
  let ue := (List.range 16).flatMap (fun r => ((s.region r).ue.rings.filter (fun t => t.part = p)).map (fun t => (t.vpage, t.slots)))
  let red := (s.red.rings.filter (fun t => t.part = p)).map (fun t => (t.vpage, t.slots))
  (ue ++ red).flatMap (fun t => (List.range (ceilDiv (64 * t.2) pageSize)).map (t.1 + ·))

/-- Virtual pages of a partition's set (R601): its tensors of KIND 2 and 3, then page sets and rings that lie outside them. (DEDUCED, log entry 93) -/
def setVpages (s : State) (p : Nat) : List Nat :=
  let own := match (s.crownPart p).wg with
    | some g => (g.tensors.filter (fun t => 2 ≤ t.kind)).flatMap (fun t => (List.range t.pages).map (t.first + ·))
    | none => []
  let extra := ((s.allRegs.filter (fun t => t.part = p)).flatMap (fun t => t.runs.flatMap (fun r => (List.range r.2).map (r.1 + ·))) ++ s.ringPages p).filter (fun v => !own.contains v)
  (own ++ extra.eraseDups).filter (fun v => (s.mapped p v).isSome)

/-- Set pages of a session as (partition, virtual page), in copy order. -/
def setPages (s : State) (i : Nat) : List (Nat × Nat) := (s.partsOf i).flatMap (fun p => (s.setVpages p).map (fun v => (p, v)))

/-- Area pages of a session, each with its source (R609): (partition, area page, source page). -/
def areaPages (s : State) (i parity : Nat) : List (Nat × Nat × Nat) :=
  (s.partsOf i).flatMap (fun p => (s.setVpages p).zipIdx.map (fun v => (p, areaVp parity + v.2, v.1)))

/-- Pages of each buddy slot: the image of the partner, whose set is taken to be as large as this chip's. (DEDUCED, log entry 93) -/
def buddyPages (s : State) (i : Nat) : Nat := if 1 < (s.ckptMembers i).length then imagePages (s.setPages i).length else 0

/-- The reservations of R609, pages already there kept: an area page in the region of its source, buddy pages dealt over the regions. -/
def reserve (s : State) (i lead buddies : Nat) : MapRun :=
  let m := (s.areaPages i 0 ++ s.areaPages i 1).foldl (fun (m : MapRun) x =>
    if m.good then keepOrMap m x.1 x.2.1 ((s.mapped x.1 x.2.2).elim 0 pageRegion) true else m) (MapRun.start s)
  ((List.range buddies).map (buddyVp 0 + ·) ++ (List.range buddies).map (buddyVp 1 + ·)).zipIdx.foldl (fun m v =>
    if m.good then keepOrMap m lead v.1 (v.2 % 16) true else m) m

/-! Configuration (R606, R607). -/

/-- The next slot of a partition's checkpoint ring, where it has landed (R276): its offset and its bytes. -/
def ckptSlot (s : State) (part : Nat) : State × Option (Nat × Bytes) :=
  match s.ckpt.rings.find? (fun (r : RedRing) => r.part = part) with
  | none => (s, none)
  | some r =>
    let off := r.vpage * pageSize + 64 * (r.seq % max 1 r.slots)
    match s.engineRead none part off 64 with
    | .got t bs => (t, if field_ bs 4 4 = r.seq % 2 ^ 32 then some (off, bs) else none)
    | .wait f => (f s, none)
    | .missing t _ => (t, none)

/-- Field checks of a CONFIG slot. -/
def configOk (b : Bytes) : Bool :=
  decide (field_ b 0 1 = 1 ∧ field_ b 1 1 ≤ 1 ∧ 1 ≤ field_ b 3 1 ∧ field_ b 3 1 ≤ 8 ∧ 1 ≤ field_ b 14 2 ∧ field_ b 14 2 ≤ field_ b 16 2) &&
  decide (field_ b 18 2 = 0 ∧ 1 ≤ field_ b 20 4 ∧ field_ b 24 24 = 0)

/-- Whether a page begins a KIND 3 tensor of at least 2 pages of a partition (R604). Before its first work graph there is none to hold it against. (DESIGN CHOICE, log entry 96) -/
def controlTensor (s : State) (part vp : Nat) : Bool :=
  match (s.crownPart part).wg with
  | some g => g.tensors.any (fun t => t.kind = 3 && decide (t.first = vp ∧ 2 ≤ t.pages))
  | none => true

/-- Crown places a partition's checkpoint ring where it has none (R606): first page and slots; its pages are pinned. -/
def placeCkptRing (s : State) (part : Nat) (place : Option (Nat × Nat)) : State :=
  match place with
  | none => s
  | some (vp, slots) =>
    if s.ckpt.rings.any (fun r => r.part = part) || decide ((s.part part).state = .free) then s
    else
      let s := { s with ckpt := { s.ckpt with rings := s.ckpt.rings ++ [⟨part, vp, slots, 0⟩] } }
      (List.range (ceilDiv (64 * slots) pageSize)).foldl (fun s k => if (s.mapped part (vp + k)).isSome then s else s.mapPinned part (vp + k)) s

/-- CONFIG (R606, R607, R609). (DESIGN CHOICE, log entry 96) -/
def config (s : State) (part : Nat) (place : Option (Nat × Nat)) : State :=
  let t := (s.placeCkptRing part place).ckptSlot part
  match t.2 with
  | none => t.1
  | some (off, b) =>
    let s := t.1
    let s := { s with ckpt := { s.ckpt with rings := s.ckpt.rings.map (fun (r : RedRing) => if r.part = part then { r with seq := r.seq + 1 } else r) } }
    let i := (s.part part).session
    let signal := field_ b 48 8
    let refuse (code : Nat) : State := (s.ckptRaise i code 0).slotDone none part off code signal
    let chips := ((s.session i).charter.map Charter.chips).getD []
    let ring := (s.session i).charter.bind (fun (c : Charter) => c.rings.find? (fun (t : RingTable) => t.job = field_ b 2 1 && t.part = part))
    let many := decide (1 < chips.length)
    if !configOk b || (s.ckptSess i).cfg.isSome || s.leadPart i != some part || !s.controlTensor part (field_ b 8 4) then refuse 0x5003
    else if many && !(ring.elim false (fun t => t.chips.contains s.chip)) then refuse 0x5003
    else
      let c : CkptCfg := ⟨part, decide (field_ b 1 1 = 1), field_ b 2 1, field_ b 3 1, field_ b 8 4, field_ b 12 2, field_ b 14 2, field_ b 16 2, field_ b 20 4⟩
      let buddies := if many then imagePages (s.setPages i).length else 0
      let m := s.reserve i part buddies
      let room := (s.partsOf i).all (fun p => decide (m.st.pagesHeld p ≤ ((s.partDecl p).map PartDecl.quotaPages).getD 0))
      if !m.good || !room then refuse 0x5002
      else ((m.finish s).setCkpt i { CkptSess.off with cfg := some c, run := .idle, mean := ⟨c.m0 * 1000000000, 0⟩, lastRestore := s.clock.now }).slotDone none part off 0 signal

/-! A checkpoint (R610 to R618). -/

/-- Owners' ingest cursors (R603). -/
def cursors (s : State) (i : Nat) : List (Nat × Nat × Nat) := (s.session i).pairs.map (fun p => (p.owner, p.agreement, p.nextIn))

/-- Every stream of the session has reached END for step NEXT and every job is IDLE (R610). -/
def ckptDue (s : State) (i : Nat) : Bool :=
  let k := s.ckptSess i
  let ps := (s.partsOf i).filter (fun p => (s.crownPart p).begun && !(s.crownPart p).held)
  decide (k.run = .idle ∧ k.taken ≠ some k.plan.next) && !ps.isEmpty &&
  ps.all (fun p => decide ((s.crownPart p).step = k.plan.next) && (s.crownPart p).placed.all (fun x => x.ended)) &&
  s.red.jobs.all (fun j => decide ((s.part j.part).session ≠ i) || j.run == .idle)

def setRest (s : State) (i : Nat) (on : Bool) : State :=
  (s.partsOf i).foldl (fun s p => { s with ckpt := { s.ckpt with atRest := if on then s.ckpt.atRest ||| 1#32 <<< p else s.ckpt.atRest &&& ~~~(1#32 <<< p) } }) s

/-- The quiesce begins (R610, R611). -/
def quiesce (s : State) (i : Nat) : State :=
  if s.ckptDue i then
    (s.onCkpt i (fun k => { k with run := .quiescing, begun := (k.begun + 1) % 2 ^ 32, taken := some k.plan.next, cursors := s.cursors i, since := s.clock.now,
                                   copied := [] })).setRest i true
  else s

/-- The session's work is at rest (R611): no operation, migration, Brim message or engine's write of its partitions is left. -/
def atRestNow (s : State) (i : Nat) : Bool :=
  let ps := s.partsOf i
  let mine (p : Nat) : Bool := ps.contains (s.mem.record p).part.toNat
  s.cores.all (fun e => !ps.contains e.2.spec.part.toNat || e.2.mover.isEmpty) && s.crown.copies.all (fun c => !mine c.src) &&
  s.brim.atomics.all (fun a => !ps.contains a.2.part) && s.brim.wire.isEmpty && s.mem.engine.all (fun w => !ps.contains w.part) &&
  (List.range 16).all (fun r => (s.region r).cuff.merge.all (fun e => !e.pinned || !mine e.page))

/-- The quiesce has not completed in 1 ms (R611). -/
def quiesceTimeout (s : State) (i : Nat) : State :=
  let k := s.ckptSess i
  if k.run = .quiescing ∧ k.since + 1000000 ≤ s.clock.now then
    (((s.ckptRaise i 0x5004 k.begun).onCkpt i (fun k => { k with run := .idle })).setRest i false).askRestore ((k.cfg.map CkptCfg.lead).getD 0)
  else s

/-- A page copied whole into another that stands in a given state (R612, R626): false where it must wait. -/
def copyPage (s : State) (src part vp : Nat) (states : List Nat) : State × Bool :=
  match s.mapped part vp with
  | none => (s, false)
  | some p =>
    if !states.contains (s.mem.record p).state.toNat then (s, false)
    else
      let a := s.readWhole .ld src
      if !a.2 then a else (a.1.enginePage p (a.1.newestKgen part) (a.1.mem.read src 0 pageSize))

/-- Pages copied one after another as far as none must wait, each noted as done: (source, partition, virtual page). -/
def copyPages (s : State) (i : Nat) (states : List Nat) (xs : List (Nat × Nat × Nat)) : State × Bool :=
  (xs.filter (fun x => !(s.ckptSess i).copied.contains x.1)).foldl (fun acc x =>
    if !acc.2 then acc
    else
      let t := acc.1.copyPage x.1 x.2.1 x.2.2 states
      if t.2 then (t.1.onCkpt i (fun k => { k with copied := k.copied ++ [x.1] }), true) else t) (s, true)

/-- The snapshot copy (R612): pages DIRTY or in LAST go to the area of the generation's parity. -/
def ckptCopy (s : State) (i : Nat) : State :=
  let k := s.ckptSess i
  if k.run ≠ .quiescing ∨ !s.atRestNow i then s
  else
    let m := s.reserve i ((k.cfg.map CkptCfg.lead).getD 0) (s.buddyPages i)
    if !m.good then m.finish s
    else
      let s0 := m.finish s
      let pages := s0.areaPages i (k.begun % 2)
      let phys (x : Nat × Nat × Nat) : Nat := (s0.mapped x.1 x.2.2).getD 0
      let all := pages.map phys
      let dirty := all.filter (fun p => (s0.mem.record p).dirty)
      let due := pages.filter (fun x => (s0.mem.record (phys x)).dirty || s0.ckpt.last.contains (phys x))
      let t := s0.copyPages i [prtPinned] (due.map (fun x => (phys x, x.1, x.2.1)))
      if !t.2 then t.1
      else
        let t := { t.1 with ckpt := { t.1.ckpt with last := t.1.ckpt.last.filter (fun p => !all.contains p) ++ dirty } }
        let t := dirty.foldl (fun t p => t.onMem (fun m => m.onRecord p (fun x => { x with dirty := false }))) t
        t.onCkpt i (fun k => { k with run := .copying, copied := [] })

/-- Slot registers of a partition's placed streams (R596, R603). -/
def slotRecords (s : State) (p : Nat) : List (Nat × Nat × Nat × BitVec 32 × BitVec 32) :=
  (s.crownPart p).placed.flatMap (fun x => (List.range 48).map (fun k => let b := (s.core x.core).brimSlot k; (p, x.stream, k, b.lo, b.hi)))

/-- The state record of the session as it stands (R603). (DEDUCED, log entry 93) -/
def stateRecord (s : State) (i us : Nat) : CkptRecord :=
  let k := s.ckptSess i
  let ps := s.partsOf i
  let per {α : Type} (f : UpdateEngine → List α) (part : α → Nat) : List (Nat × α) :=
    (List.range 16).flatMap (fun r => ((f (s.region r).ue).filter (fun t => ps.contains (part t))).map (fun t => (r, t)))
  { gen := k.begun, step := k.taken.getD 0, pause := us, cursors := k.cursors,
    tables := per UpdateEngine.table Registration.part, ueRings := per UpdateEngine.rings UeRing.part, windows := per UpdateEngine.window UeCmd.part,
    dones := per UpdateEngine.done AccDone.part,
    redRings := s.red.rings.filter (fun r => ps.contains r.part), jobs := s.red.jobs.filter (fun j => ps.contains j.part),
    nodes := s.brim.nodes.filter (fun n => ps.contains n.id.part), slots := ps.flatMap s.slotRecords,
    rng := (per UpdateEngine.elems (fun e => e.1 / 4096)).map (fun e => (e.1, e.2.1, e.2.2)),
    digests := (ps.filter (fun p => (s.crownPart p).wg.isSome)).map (fun p => (p, (s.crownPart p).digest)), pages := s.setPages i }

/-- Position of a chip in the lead ring table (R608): row, column, and the buddy's chip and the chip whose buddy it is. -/
structure CkptPos where
  g : Nat
  c : Nat
  buddy : Nat
  partner : Nat

def ckptPos (s : State) (i chip : Nat) : Option CkptPos :=
  match (s.session i).charter, (s.ckptSess i).cfg with
  | some x, some k => match x.rings.find? (fun t => t.job = k.job && t.part = k.lead) with
    | some t => match t.chips.findIdx? (· = chip) with
      | some n =>
        let g := n / t.width
        let c := n % t.width
        let at_ (g c : Nat) : Nat := t.chips.getD (g * t.width + c) 0
        some (if 1 < t.rows then ⟨g, c, at_ ((g + 1) % t.rows) c, at_ ((g + t.rows - 1) % t.rows) c⟩
              else ⟨g, c, at_ 0 ((c + 1) % t.width), at_ 0 ((c + t.width - 1) % t.width)⟩)
      | none => none
    | none => none
  | _, _ => none

/-- SMD makes the key of a generation and its shares (R456): all but the last are drawn, and the last makes up the key. -/
def makeCk (s : State) (i : Nat) (n : Nat) : State × Bytes × List Bytes :=
  let count := ((s.session i).charter.elim [] Charter.escrow).length
  let d := s.entropyBytes (32 * count)
  let ck := d.1.take 32
  let drawn := (List.range (count - 1)).map (fun j => (d.1.drop (32 * (j + 1))).take 32)
  (d.2.onCkpt i (fun k => { k with cks := (k.cks.filter (fun e => e.1 + 1 = n)) ++ [(n, ck)] }), ck, drawn ++ [drawn.foldl xorBytes ck])

/-- The key check value of a checkpoint key (R615). -/
def kcv (ck : Bytes) : Bytes := (aes256 ck (List.replicate 16 0)).take 8

/-- Image page 0 (R615), with a share wrapped for each escrow key under an ephemeral key of its own. (DESIGN CHOICE, log entry 94) -/
def imageHeader (s : State) (i : Nat) (pos : CkptPos) (k : CkptSess) (pages : Nat) (ck : Bytes) (shares : List Bytes) : Bytes × State :=
  let keys := (s.session i).charter.elim [] Charter.escrow
  let id := ((s.session i).charter.map Charter.sessionId).getD []
  let d := s.entropyBytes (48 * shares.length)
  let share (x : (Bytes × Bytes) × Nat) : Bytes := wrapShare id ((d.1.drop (48 * x.2)).take 48) x.1.2 x.1.1 x.2 ++ List.replicate 23 0
  let b := [0x43, 0x4B, 0x49, 0x4D] ++ leBytes 2 0x0100 ++ leBytes 2 pos.g ++ leBytes 1 pos.c ++ List.replicate 7 0 ++ id ++ leBytes 4 k.begun ++
    leBytes 8 (k.taken.getD 0) ++ leBytes 4 pages ++ kcv ck ++ leBytes 1 shares.length ++ List.replicate 71 0 ++ ((shares.zip keys).zipIdx).flatMap share
  (b ++ List.replicate (pageSize - b.length) 0, d.2)

/-- The whole image of the generation just taken (R615, R616): `body` are the pages of its local area, in directory order. (DESIGN CHOICE, log entry 94) -/
def image (s : State) (i : Nat) (r : CkptRecord) (pos : CkptPos) (body : List Bytes) : Bytes × State :=
  let k := s.ckptSess i
  let ck := s.makeCk i k.begun
  let h := ck.1.imageHeader i pos k (imagePages r.pages.length) ck.2.1 ck.2.2
  let dir := padPages (r.pages.flatMap (fun x => leBytes 8 (x.1 + x.2 * 32)))
  let aad := sha384 h.1
  let sealed := (pagesOf dir ++ pagesOf (recordBytes r) ++ body).zipIdx.map (fun x =>
    let j := x.2 + 1
    sealPage ck.2.1 (imageIv k.begun j (pos.g * 8 + pos.c)) aad (if j = recordPage h.1 then 4 else 0) x.1)
  (h.1 ++ sealed.flatMap Prod.fst ++ padPages (sealed.flatMap Prod.snd), h.2)

/-- A frame of the controller to another chip, answered by an ACK (R525). -/
def ckptPut (s : State) (dst lead off slot cls : Nat) (bs : Bytes) : Option State :=
  s.sendTo dst lead 0x10 lead cls (linesOpw (off / 64) 511 slot (bs.length / 64) true) bs

/-- The drain (R616): the image leaves for the buddy in quarter pages of class 3. (DESIGN CHOICE, log entry 96) -/
def drainTo (s : State) (i : Nat) (r : CkptRecord) (body : List Bytes) : State :=
  let k := s.ckptSess i
  match s.ckptPos i s.chip, k.cfg with
  | some pos, some c =>
    let img := s.image i r pos body
    let quarters := img.1.length / 4096
    (List.range quarters).foldl (fun s q =>
      match s.ckptPut pos.buddy c.lead (buddyVp (k.begun % 2) * pageSize + 4096 * q) 62 3 ((img.1.drop (4096 * q)).take 4096) with
      | some s => s.onNet (fun n => { n with eng := n.eng ++ [(pos.buddy, 62)] })
      | none => s) (img.2.onCkpt i (fun k => { k with owed := quarters }))
  | _, _ => s

/-- The pages of a local area are read whole by the controller (R316, R382, R616): their bytes, and whether all could be read. -/
def readPages (s : State) (ps : List Nat) : State × Option (List Bytes) :=
  ps.foldl (fun acc p => match acc.2 with
    | none => acc
    | some bs => let a := acc.1.readWhole .ld p; (a.1, if a.2 then some (bs ++ [a.1.mem.read p 0 pageSize]) else none)) (s, some [])

/-- Work resumes (R614): the state record is in the area, and the drain begins. The pause is counted in whole microseconds of fabric time. (DESIGN CHOICE, log entry 96) -/
def ckptResume (s : State) (i : Nat) : State :=
  let k := s.ckptSess i
  if k.run ≠ .copying then s
  else
    let us := (s.clock.now - k.since) / 1000
    let r := s.stateRecord i us
    let many := decide (1 < (s.ckptMembers i).length)
    let b := s.readPages (if many then (s.areaPages i (k.begun % 2)).filterMap (fun x => s.mapped x.1 x.2.1) else [])
    match b.2 with
    | none => b.1
    | some body =>
      let s := b.1.onCkpt i (fun k => if k.begun % 2 = 0 then { k with even := some r } else { k with odd := some r })
      let s := (s.onCkpt i (fun k => { k with run := .draining, pause := min us 65535, owed := 0 })).setRest i false
      if many then s.drainTo i r body else (s.makeCk i k.begun).1

/-- The last image page has landed in the buddy slot. -/
def drainDone (s : State) (i : Nat) : State :=
  s.onCkpt i (fun k => if k.run = .draining ∧ k.owed = 0 then { k with run := .idle } else k)

/-- The buddy checks an image in a slot of its own and reports (R617). -/
def imageCheck (s : State) (i parity : Nat) : State :=
  let k := s.ckptSess i
  match k.cfg, s.ckptPos i s.chip with
  | some c, some pos =>
    let base := buddyVp parity * pageSize
    s.withRuns c.lead [(base, pageSize)] (fun s => s.ckptRaise i 0x5007 0) (fun s h =>
      let b := h.headD []
      s.withRuns c.lead [(base + recordPage b * pageSize, 4)] (fun s => s.ckptRaise i 0x5007 (field_ b 32 4)) (fun s u =>
        let n := field_ b 32 4
        let total := field_ b 44 4
        let id := ((s.session i).charter.map Charter.sessionId).getD []
        let sender := s.ckptPos i pos.partner
        let whole := (List.range (4 * total)).all (fun q => k.landed.contains (parity, q))
        let good := b.take 4 = [0x43, 0x4B, 0x49, 0x4D] ∧ field_ b 4 2 = 0x0100 ∧ sender.map CkptPos.g = some (field_ b 6 2) ∧ sender.map CkptPos.c = some (field_ b 8 1) ∧
          (b.drop 16).take 16 = id ∧ n % 2 = parity ∧ 1 ≤ total ∧ whole = true
        let s := s.onCkpt i (fun k => { k with landed := k.landed.filter (fun x => x.1 ≠ parity) })
        if good then
          match s.coordinator i with
          | some chip => s.engineAdd chip c.lead (c.ctlVp * pageSize + 512 + 8 * (n % 64)) (1 + leNat (u.headD []) * 2 ^ 20)
          | none => s
        else s.ckptRaise i 0x5007 n))
  | _, _ => s

/-! Commit and the interval (R618 to R623). -/

/-- The controller reads runs of its own control tensor and goes on with them. -/
def withCtl (s : State) (c : CkptCfg) (runs : List (Nat × Nat)) (f : State → List Bytes → State) : State :=
  s.withRuns c.lead (runs.map (fun x => (c.ctlVp * pageSize + x.1, x.2))) id f

/-- Bytes written by the controller in its own control tensor (R604). (DESIGN CHOICE, log entry 94) -/
def writeCtl (s : State) (c : CkptCfg) (off : Nat) (bs : Bytes) : State := (s.enginePut none c.lead (c.ctlVp * pageSize + off) bs).1

/-- The controller writes lines in the control tensor of a chip and raises its signal word (R618, R625). (DESIGN CHOICE, log entry 96) -/
def tellChip (s : State) (c : CkptCfg) (chip : Nat) (off : Nat) (bs : Bytes) (signal : Bool) : State :=
  let base := c.ctlVp * pageSize
  if chip = s.chip then
    let s := s.writeCtl c off bs
    if signal then s.post ⟨none, c.lead, base + 1032, .add64 1⟩ else s
  else
    match s.ckptPut chip c.lead (base + off) 61 0 bs with
    | none => s
    | some s =>
      let s := s.onNet (fun n => { n with eng := n.eng ++ [(chip, 61)] })
      if signal then match s.sendTo chip c.lead 0x12 c.lead 2 (offOpw (base + 1032) 511 61 true 0) [] with
        | some s => s.onNet (fun n => { n with eng := n.eng ++ [(chip, 61)] })
        | none => s
      else s

/-- Chips that a record goes to: the members and every spare (R618). -/
def ckptChips (s : State) (i : Nat) : List Nat :=
  (s.ckptMembers i ++ ((s.session i).charter.map Charter.chips).getD []).eraseDups.filter (fun c => !s.chipAbsent c)

/-- A plan for a committed generation (R618, R620, R623). -/
def planOfGen (s : State) (c : CkptCfg) (k : CkptSess) (n sN p : Nat) (after : Bool) : CkptPlan :=
  let t := if c.everyStep then 1 else interval c k p
  let next := if c.everyStep then sN + 1 else if after then sN + t else max (sN + t) ((s.crownPart c.lead).step + 2)
  ⟨n, sN, next, t, p, k.restores, k.mean.num / 2 ^ k.mean.exp / 1000000000⟩

/-- The coordinator commits a generation when every position has reported (R618); one that a restore has abandoned never commits (R634). -/
def ckptCommit (s : State) (i : Nat) : State :=
  let k := s.ckptSess i
  match k.cfg with
  | none => s
  | some c =>
    let n := k.begun
    if s.coordinator i ≠ some s.chip ∨ k.plan.n = n ∨ n = 0 ∨ k.run = .restoring ∨ k.rseq < k.wrote ∨ (if n % 2 = 0 then k.even else k.odd).map CkptRecord.gen ≠ some n then s
    else s.withCtl c [(512 + 8 * (n % 64), 8)] (fun s b =>
      let w := leNat (b.headD [])
      let count := w % 2 ^ 20
      let alone := decide ((s.ckptMembers i).length = 1)
      let ready := if alone then decide (k.run = .draining ∨ k.run = .idle) else decide (count = (s.ckptMembers i).length)
      if !ready then s
      else
        let s := s.writeCtl c (512 + 8 * ((n + 2) % 64)) (leBytes 8 0)
        let p := if alone then k.pause else w / 2 ^ 20 / count
        let plan := s.planOfGen c k n (k.taken.getD 0) p false
        let s := s.onCkpt i (fun k => { k with plan := plan })
        (s.ckptChips i).foldl (fun s chip => s.tellChip c chip 0 plan.bytes true) s)

end State
end Sys2Proof.Machine
end

