-- ==== Sys2Proof/Machine/Restore.lean ====
section
/-!
DEFINITION. Restore: the coordinator's record, the end of a session's work, pages and state record written back, images and escrow, settling (R624 to R632, R457).
-/
namespace Sys2Proof.Machine

/-- The image pages that are sealed, opened under a key (R616): none where some tag fails. -/
def openPages (ck aad : Bytes) (n place dirPages : Nat) (pages tags : List Bytes) : Option (List Bytes) :=
  (pages.zip tags).zipIdx.foldl (fun acc x => acc.bind (fun ps =>
    let j := x.2 + 1
    let clear := if j = dirPages + 1 then 4 else 0
    let ct := x.1.1.drop clear
    if gcmTag ck (imageIv n j place) aad ct = x.1.2 then some (ps ++ [x.1.1.take clear ++ gcmText ck (imageIv n j place) ct]) else none)) (some [])

namespace State

/-! Resuming (R626, R629, R596). -/

/-- MODE for every registration of a session (R629): `vps` gives the new first- and second-moment pages, in the order of the tables. -/
def modeAll (s : State) (i : Nat) (wide : Bool) (vps : List (Nat × Nat)) : State :=
  let regs := (List.range 16).flatMap (fun r => ((s.region r).ue.table.filter (fun t => (s.partsOf i).contains t.part && t.wide != wide)).map (fun t => (r, t)))
  ((regs.zip vps).zipIdx).foldl (fun s x =>
    let r := x.1.1.1
    let t := x.1.1.2
    let vp := x.1.2
    let runs := Registration.momRun wide vp.1 t.count ::
      (if t.adaptive then [Registration.momRun wide vp.2 t.count] else if t.factored then [(vp.2, ceilDiv t.count 16)] else [])
    let m := runs.foldl (fun m run => (List.range run.2).foldl (fun m j => if m.good then keepOrMap m t.part (run.1 + j) r false else m) m) (MapRun.start s)
    let slot := leBytes 1 5 ++ leBytes 1 (b2n wide) ++ leBytes 2 t.tensor ++ leBytes 4 0 ++ leBytes 4 t.first ++ leBytes 4 t.count ++
      leBytes 8 ((s.crownPart t.part).step) ++ List.replicate 8 0 ++ leBytes 4 vp.1 ++ leBytes 4 (if t.sgd then 0 else vp.2) ++ List.replicate 24 0
    (m.finish s).onUe r (fun u => { u with window := u.window ++ [⟨t.part, 2 ^ 45 + x.2, slot, false, 0, [], 0, false⟩] })) s

/-- The recorded slot registers and node counters of a partition go back (R596). -/
def countersBack (s : State) (p : Nat) (r : CkptRecord) : State :=
  let s := (s.crownPart p).placed.foldl (fun s x =>
    (r.slots.filter (fun e => e.1 = p && e.2.1 = x.stream)).foldl (fun s e =>
      s.mapCore x.core (fun c =>
        let b := c.brimSlot e.2.2.1
        if b.lo.toNat % 4 = e.2.2.2.1.toNat % 4 then
          c.setBrimSlot e.2.2.1 ⟨BitVec.ofNat 32 (b.lo.toNat % 65536 + e.2.2.2.1.toNat / 65536 * 65536), e.2.2.2.2⟩
        else c)) s) s
  s.onBrim (fun b => { b with nodes := b.nodes.map (fun n => match r.nodes.find? (fun x => x.id = n.id) with
    | some x => { n with even := x.even, odd := x.odd, gen := x.gen, rel := x.rel, value := x.value, broken := x.broken }
    | none => n) })

/-- A partition loads the step after the restored one (R626). -/
def resumePart (s : State) (p sN : Nat) (r : Option CkptRecord) : State :=
  match (s.crownPart p).wg with
  | none => s
  | some g => match s.chooseVariant p g with
    | some v => s.runStep p g v ((sN + 1) % 2 ^ 48) id (fun s => r.elim s (s.countersBack p))
    | none => s.noVariant p ((sN + 1) % 2 ^ 48)

/-- The session's partitions load step S_n + 1; once all have, the restore is over. -/
def resumeSteps (s : State) (i sN : Nat) : State :=
  let waits (s : State) (p : Nat) : Bool := let c := s.crownPart p; c.wg.isSome && !c.held && decide (c.step = sN)
  let s := ((s.partsOf i).filter (waits s)).foldl (fun s p => s.resumePart p sN (s.ckptSess i).applied) s
  if (s.partsOf i).any (waits s) then s
  else s.onCkpt i (fun k => { k with run := .idle, target := none, phase := .none, applied := none })

/-- Every partition begins step S_n + 1 (R626); with SETTLE the registrations go to wide mode first (R629). -/
def resumeBegin (s : State) (i sN : Nat) (vps : List (Nat × Nat)) : State :=
  let settle := ((s.ckptSess i).cfg.map CkptCfg.settle).getD 0
  let s := s.onCkpt i (fun k => { k with phase := .resuming, settleLeft := settle, taken := some sN })
  (if 0 < settle then s.modeAll i true vps else s).resumeSteps i sN

/-- A member takes the plan record in its control tensor (R618, R620); one that restores resumes (R626). In every-step mode the wait for it is counted (R623). -/
def planReceive (s : State) (i : Nat) (vps : List (Nat × Nat)) : State :=
  match (s.ckptSess i).cfg with
  | none => s
  | some c => s.withCtl c [(0, 64)] (fun s b =>
    let k := s.ckptSess i
    let plan := planFrom (b.headD [])
    if k.run = .restoring then
      match k.target with
      | some t =>
        if k.phase = .resuming then s.resumeSteps i t.2
        else if k.phase = .reported ∧ plan.n = t.1 then (s.onCkpt i (fun k => { k with plan := plan })).resumeBegin i t.2 vps else s
      | none => s
    else
      let held := match k.stepEnd with
        | some t => min ((s.clock.now - t) / 1000) 65535
        | none => if c.everyStep then 0 else k.hold
      let s := s.onCkpt i (fun k => { k with plan := plan, hold := held, stepEnd := none })
      if plan.next < (s.crownPart c.lead).step ∧ plan.n ≠ 0 then (s.ckptRaise i 0x5006 plan.n).askRestore c.lead else s)

/-! The coordinator (R625, R631, R632). -/

/-- The state record that a chip holds of a generation (R609, R614). -/
def ckptRecordOf (k : CkptSess) (n : Nat) : Option CkptRecord :=
  (if n % 2 = 0 then k.even else k.odd).bind (fun r => if r.gen = n then some r else none)

/-- The coordinator begins a restore, or begins it again (R625, R631, R632): `back` says that generation n could not be had somewhere. -/
def restoreBegin (s : State) (i : Nat) (back : Bool) : State :=
  match (s.ckptSess i).cfg, (s.session i).charter with
  | some c, some x => s.withCtl c [(1024, 8)] (fun s b =>
    let k := s.ckptSess i
    let asked := leNat (b.headD [])
    let n := if back then k.plan.n - 1 else k.plan.n
    let sN := (ckptRecordOf k n).elim k.plan.sN CkptRecord.step
    let members := s.ckptMembers i
    let gone := members.filter (fun m => s.chipAbsent m)
    let spares := x.chips.filter (fun m => !members.contains m && !s.chipAbsent m)
    let new := decide (k.target = none ∧ asked ≠ k.absorbed) || decide (gone ≠ [])
    if s.coordinator i ≠ some s.chip ∨ (!back && (!new || decide (k.rseq < k.wrote))) then s
    else if k.plan.n = 0 ∨ n = 0 ∨ (back ∧ (ckptRecordOf k n).isNone) then s.ckptHold i 0x5009
    else if spares.length < gone.length then s.ckptHold i 0x5008
    else
      let repl := gone.zip spares
      let rseq := max k.wrote k.rseq + 1
      let dt := s.clock.now - k.lastRestore
      let mean : CkptMean := ⟨(2 ^ c.alpha - 1) * k.mean.num + dt * 2 ^ k.mean.exp, k.mean.exp + c.alpha⟩
      let s := s.onCkpt i (fun k => { k with absorbed := asked, wrote := rseq, mean := mean, lastRestore := s.clock.now })
      let s := s.writeCtl c (1040 + 8 * (rseq % 16)) (leBytes 8 0)
      let b := restoreBytes n sN rseq repl
      (s.ckptChips i).foldl (fun s chip => (s.tellChip c chip 128 b.2 false).tellChip c chip 64 b.1 true) s)
  | _, _ => s

/-- Every position has reported (R626): the coordinator sends the plan that resumes the run, and requests made meanwhile are absorbed (R625). -/
def restoreComplete (s : State) (i : Nat) : State :=
  let k := s.ckptSess i
  match k.cfg, k.target with
  | some c, some t =>
    if k.run ≠ .restoring ∨ k.phase ≠ .reported ∨ s.coordinator i ≠ some s.chip then s
    else s.withCtl c [(1040 + 8 * (k.rseq % 16), 8), (1024, 8)] (fun s b =>
      if leNat (b.headD []) < (s.ckptMembers i).length then s
      else
        let plan := s.planOfGen c (s.ckptSess i) t.1 t.2 k.plan.p true
        let s := s.onCkpt i (fun k => { k with plan := plan, absorbed := leNat (b.getD 1 []) })
        (s.ckptChips i).foldl (fun s chip => s.tellChip c chip 0 plan.bytes true) s)
  | _, _ => s

/-! A member (R626, R627). -/

/-- A spare takes the place of a chip in every ring table of its session (R627). -/
def replaceChips (s : State) (i : Nat) (repl : List (Nat × Nat)) : State :=
  let y := s.session i
  s.setSession i { y with charter := y.charter.map (fun c => { c with rings := c.rings.map (fun t => { t with chips := t.chips.map (fun m => (assocGet repl m).getD m) }) }) }

/-- The session's running work ends (R626): cores drain, jobs close, Brim entries are freed. -/
def endWork (s : State) (i : Nat) : State :=
  let ps := s.partsOf i
  let s := ps.foldl State.closeJobs (s.drainCores ps)
  let s := s.onRed (fun q => { q with jobs := q.jobs.filter (fun j => !ps.contains j.part), early := q.early.filter (fun e => !ps.contains e.part) })
  s.onBrim (fun b => { b with nodes := b.nodes.filter (fun n => !ps.contains n.id.part) })

/-- A state record is written back (R626): engines, jobs, nodes, ingest cursors of pairs that have not changed, and Crown's step; an event tells the owners. -/
def applyRecord (s : State) (i : Nat) (r : CkptRecord) : State :=
  let ps := s.partsOf i
  let back {α : Type} (part : α → Nat) (g : Nat) (now : List α) (was : List (Nat × α)) : List α :=
    now.filter (fun t => !ps.contains (part t)) ++ (was.filter (fun x => x.1 = g)).map Prod.snd
  let s := (List.range 16).foldl (fun s g => s.onUe g (fun u => { u with
    table := back Registration.part g u.table r.tables, rings := back UeRing.part g u.rings r.ueRings, window := back UeCmd.part g u.window r.windows,
    done := back AccDone.part g u.done r.dones, elems := back (fun e => e.1 / 4096) g u.elems (r.rng.map (fun e => (e.1, e.2.1, e.2.2))) })) s
  let s := s.onRed (fun q => { q with rings := q.rings.filter (fun t => !ps.contains t.part) ++ r.redRings, jobs := q.jobs.filter (fun t => !ps.contains t.part) ++ r.jobs })
  let s := s.onBrim (fun b => { b with nodes := b.nodes.filter (fun n => !ps.contains n.id.part) ++ r.nodes })
  let y := s.session i
  let s := s.setSession i { y with pairs := y.pairs.map (fun p => match r.cursors.find? (fun c => c.1 = p.owner) with
    | some c => if c.2.1 = p.agreement then { p with nextIn := c.2.2 } else p
    | none => p) }
  let body := [i, r.gen, r.step] ++ r.cursors.map (fun c => c.2.2)
  let s := ((s.pushEvent 5 [i, r.gen, r.step]).ownerEvent 5 body).onCkpt i (fun k => { k with applied := some r, copied := [] })
  ps.foldl (fun s p =>
    let cp := s.crownPart p
    if cp.wg.isSome then (s.setCrownPart p { cp with step := r.step, placed := [], held := false, begun := true }).restCores (cp.placed.map Placed.core) else s) s

/-- A chip reports that it has restored (R626). -/
def restoreReport (s : State) (i : Nat) : State :=
  let s := s.onCkpt i (fun k => { k with phase := .reported })
  let k := s.ckptSess i
  match k.cfg, s.coordinator i with
  | some c, some chip => s.engineAdd chip c.lead (c.ctlVp * pageSize + 1040 + 8 * (k.rseq % 16)) 1
  | _, _ => s

/-- What is written back from a local area (R626): area page, partition, virtual page. -/
def areaBack (s : State) (parity : Nat) (pages : List (Nat × Nat)) : List (Nat × Nat × Nat) :=
  pages.zipIdx.filterMap (fun x =>
    let ordinal := ((pages.take x.2).filter (fun y => y.1 = x.1.1)).length
    match s.mapped x.1.1 (areaVp parity + ordinal), s.mapped x.1.1 x.1.2 with
    | some a, some _ => some (a, x.1.1, x.1.2)
    | _, _ => none)

/-- Whether work of the session still runs (R626). -/
def workLeft (s : State) (i : Nat) : Bool :=
  let ps := s.partsOf i
  s.cores.any (fun e => ps.contains e.2.spec.part.toNat && (!e.2.mover.isEmpty || e.2.ctl.run == .running || e.2.ctl.run == .draining)) ||
  s.mem.engine.any (fun w => ps.contains w.part)

/-- The set is written back once the work has ended (R626), from the local area where it holds the generation; else the chip waits for its image. -/
def restoreWork (s : State) (i : Nat) : State :=
  let k := s.ckptSess i
  match k.target with
  | none => s
  | some t =>
    if k.phase ≠ .ending ∨ s.workLeft i then s
    else match ckptRecordOf k t.1 with
      | none => s.onCkpt i (fun k => { k with phase := .image })
      | some r =>
        let w := s.copyPages i [prtLocal, prtPinned] (s.areaBack (t.1 % 2) r.pages)
        if w.2 then (w.1.applyRecord i r).restoreReport i else w.1

/-- A chip acts on the restore record in its control tensor (R626, R627); a record with another RSEQ begins its restore again (R625). A generation begun after
the target never commits (R634). -/
def restoreReceive (s : State) (i : Nat) : State :=
  match (s.ckptSess i).cfg with
  | none => s
  | some c => s.withCtl c [(64, 320)] (fun s bs =>
    let b := bs.headD []
    let k := s.ckptSess i
    let n := field_ b 0 4
    let rseq := field_ b 14 4
    let repl := (List.range (field_ b 12 2)).map (fun j => (field_ b (64 + 8 * j) 2, field_ b (66 + 8 * j) 2))
    if rseq = 0 then s
    else if rseq = k.rseq then s.restoreWork i
    else
      let s := (((s.replaceChips i repl).endWork i).setRest i false).onCkpt i (fun k => { k with
        run := .restoring, rseq := rseq, target := some (n, field_ b 4 8), phase := .ending, applied := none, copied := [], owed := 0, asked := false,
        even := (k.even.bind (fun r => if r.gen ≤ n then some r else none)), odd := (k.odd.bind (fun r => if r.gen ≤ n then some r else none)),
        restores := satAdd 32 k.restores 1 })
      ((s.onCrown (fun x => { x with unitAsks := x.unitAsks.map (fun e => (e.1, true)) })).pushEvent 5 [i, n, field_ b 4 8]).restoreWork i)

/-! Images and escrow (R626, R628, R457, R674). -/

/-- The image that a chip needs: whose buddy slot holds it, its parity, and the lead partition. A session with RESTORE finds it in its own slot 0 before its
first step. -/
def imageSource (s : State) (i : Nat) : Option (Nat × Nat × Nat) :=
  let k := s.ckptSess i
  match k.cfg with
  | none => none
  | some c =>
    if k.run = .restoring ∧ k.phase = .image then
      match k.target, s.ckptPos i s.chip with
      | some t, some pos => some (pos.buddy, t.1 % 2, c.lead)
      | _, _ => none
    else if ((s.session i).charter.elim false (fun c => c.restore.isSome)) ∧ k.run = .idle ∧ k.applied = none ∧ k.begun = 0 then some (s.chip, 0, c.lead)
    else none

/-- Bytes from the head of the image. -/
def imageRead (s : State) (src : Nat × Nat × Nat) (n : Nat) : EngRead :=
  let base := buddyVp src.2.1 * pageSize
  if src.1 = s.chip then s.engineReads none src.2.2 (pageParts base n) else s.fetchReads src.1 src.2.2 (pageParts base n)

/-- Whether page 0 names the image that is wanted (R617, R674). -/
def imageNamed (s : State) (i : Nat) (h : Bytes) : Bool :=
  let k := s.ckptSess i
  let c := (s.session i).charter
  let id := if k.run = .restoring then c.map Charter.sessionId else c.bind Charter.restore
  decide (h.take 4 = [0x43, 0x4B, 0x49, 0x4D] ∧ field_ h 4 2 = 0x0100 ∧ some ((h.drop 16).take 16) = id) &&
  (s.ckptPos i s.chip).elim true (fun pos => decide (field_ h 6 2 = pos.g ∧ field_ h 8 1 = pos.c)) &&
  k.target.elim true (fun t => decide (field_ h 32 4 = t.1))

/-- The key that complete shares give, where it is the one that the header checks (R457). -/
def sharedKey (s : State) (i : Nat) (h : Bytes) : Option Bytes :=
  let y := s.session i
  let ck := (y.escrow.map Prod.snd).foldl xorBytes (List.replicate 32 0)
  if y.escrow.length = (y.charter.elim [] Charter.escrow).length ∧ kcv ck = (h.drop 48).take 8 then some ck else none

/-- SMD keeps the key of a generation that shares have given. -/
def keepCk (s : State) (i n : Nat) (ck : Bytes) : State :=
  (s.setSession i { s.session i with ckKnown := true }).onCkpt i (fun k => { k with cks := k.cks.filter (fun e => e.1 ≠ n) ++ [(n, ck)] })

/-- An escrow share (R457): once all have come and the header is there, they give the key it checks, or are all refused. (DEDUCED, log entry 131) -/
def escrowShare (s : State) (sec owner i : Nat) (y : Session) (index : Nat) (share : Bytes) : State :=
  match y.charter with
  | none => s
  | some c =>
    if y.state = .ending ∨ y.ckKnown then s.ownerRefuse sec 5 0x2209 i owner
    else if c.escrow.length ≤ index ∨ share.length ≠ 32 then s.ownerRefuse sec 5 0x2210 i owner
    else
      let t := s.setSession i { y with escrow := assocSet y.escrow index share }
      if (assocSet y.escrow index share).length < c.escrow.length then t.ownerOk sec 5
      else match (t.imageSource i).map (fun src => t.imageRead src pageSize) with
        | some (.got _ h) => match t.sharedKey i h with
          | some ck => (t.keepCk i (field_ h 32 4) ck).ownerOk sec 5
          | none => (t.setSession i { y with escrow := [] }).ownerRefuse sec 5 0x2210 i owner
        | _ => t.ownerOk sec 5

/-- The key of the image with this header: one the chip holds, or one that complete shares give now; with it the state that keeps it. Shares that give another
key are refused (R457); while there is no key the escrow holders are asked, once (R628). -/
def imageKey (s : State) (i : Nat) (h : Bytes) : State × Option Bytes :=
  let n := field_ h 32 4
  match assocGet (s.ckptSess i).cks n with
  | some ck => (s, some ck)
  | none =>
    let y := s.session i
    match s.sharedKey i h with
    | some ck => (s.keepCk i n ck, some ck)
    | none =>
      let s := if y.escrow.length = (y.charter.elim [] Charter.escrow).length then (s.setSession i { y with escrow := [] }).keysRaise 0x2210 i 0 else s
      (if (s.ckptSess i).asked then s else (s.ownerEvent 5 [i, n, field_ h 36 8]).onCkpt i (fun k => { k with asked := true }), none)

/-- Pages written whole by the controller, each at a virtual page, as far as none must wait; the places of those done are noted. -/
def putPages (s : State) (i : Nat) (xs : List ((Nat × Nat) × Bytes)) : State × Bool :=
  (xs.zipIdx.filter (fun x => !(s.ckptSess i).copied.contains x.2)).foldl (fun acc x =>
    if !acc.2 then acc
    else
      let t := match acc.1.mapped x.1.1.1 x.1.1.2 with
        | some p => if [prtLocal, prtPinned].contains (acc.1.mem.record p).state.toNat then acc.1.enginePage p (acc.1.newestKgen x.1.1.1) x.1.2 else (acc.1, false)
        | none => (acc.1, true)
      if t.2 then (t.1.onCkpt i (fun k => { k with copied := k.copied ++ [x.2] }), true) else t) (s, true)

/-- An image is fetched from the buddy, or taken from the own slot, its tags are checked under its key, and its pages and state record are written back (R626,
R628, R674); `record` is the state record that its bytes spell. (DESIGN CHOICE, log entry 96) -/
def imageFetched (s : State) (i : Nat) (record : CkptRecord) : State :=
  match s.imageSource i with
  | none => s
  | some src =>
    match s.imageRead src pageSize with
    | .wait f => f s
    | .missing t _ => t
    | .got _ h =>
      let total := field_ h 44 4
      match imageSet total with
      | none => s.ckptRaise i 0x5007 (field_ h 32 4)
      | some set =>
        if !s.imageNamed i h then s.ckptRaise i 0x5007 (field_ h 32 4)
        else match s.imageRead src (total * pageSize) with
          | .wait f => f s
          | .missing t _ => t
          | .got t b =>
            let key := s.imageKey i h
            match key.2 with
            | none => key.1
            | some ck =>
              let d := ceilDiv (8 * set) pageSize
              let ps := (pagesOf b).drop 1
              let sealed := ps.take (d + 4 + set)
              let tagBytes := (ps.drop (d + 4 + set)).flatten
              let tags := (List.range (d + 4 + set)).map (fun j => (tagBytes.drop (16 * j)).take 16)
              match openPages ck (sha384 h) (field_ h 32 4) (field_ h 6 2 * 8 + field_ h 8 1) d sealed tags with
              | none => t.ckptRaise i 0x5007 (field_ h 32 4)
              | some texts =>
                if ((texts.drop d).take 4).flatten ≠ recordBytes record then s
                else
                  let dir := (texts.take d).flatten
                  let names := (List.range set).map (fun k => let w := field_ dir (8 * k) 8; (w % 32, w / 32))
                  let w := key.1.putPages i (names.zip (texts.drop (d + 4)))
                  if !w.2 then w.1
                  else
                    let s := match w.1.imageRead src (total * pageSize) with
                      | .got t _ => t
                      | _ => w.1
                    let s := (s.applyRecord i record).onCkpt i (fun k => { k with begun := max k.begun record.gen })
                    if (s.ckptSess i).run = .restoring then s.restoreReport i else s

/-- The settling steps are over (R629). -/
def settleEnd (s : State) (i : Nat) (vps : List (Nat × Nat)) : State :=
  let k := s.ckptSess i
  if 0 < (k.cfg.map CkptCfg.settle).getD 0 ∧ k.settleLeft = 0 ∧ k.run ≠ .restoring ∧ s.allRegs.any (fun t => (s.partsOf i).contains t.part && t.wide) then
    s.modeAll i false vps else s

end State
end Sys2Proof.Machine
end

