-- ==== Sys2Proof/Machine/ExecCkpt.lean ====
section
/-!
DEFINITION. Commands of the checkpoint controller (R606 to R632) and ESCROW_SHARE (R457).
-/
namespace Sys2Proof.Machine

/-- CONFIG (R606, R607, R609): the next slot of a partition's checkpoint ring. `place` is where Crown puts the ring (first page, slots) if the partition
has none yet. -/
def execCkptConfig (part : BitVec 5) (place : Option (Nat × Nat)) (s : State) : Host.Outcome State Fault Refusal := liveEng s (fun s => s.config part.toNat place)

/-- CKPT_QUIESCE (R610, R611). -/
def execCkptQuiesce (slot : Fin 8) (s : State) : Host.Outcome State Fault Refusal := liveEng s (fun s => s.quiesce slot.val)

/-- CKPT_QUIESCE_TIMEOUT (R611). -/
def execCkptQuiesceTimeout (slot : Fin 8) (s : State) : Host.Outcome State Fault Refusal := liveEng s (fun s => s.quiesceTimeout slot.val)

/-- CKPT_COPY (R612). -/
def execCkptCopy (slot : Fin 8) (s : State) : Host.Outcome State Fault Refusal := liveEng s (fun s => s.ckptCopy slot.val)

/-- CKPT_RESUME (R614). -/
def execCkptResume (slot : Fin 8) (s : State) : Host.Outcome State Fault Refusal := liveEng s (fun s => s.ckptResume slot.val)

/-- CKPT_DRAIN_DONE (R616). -/
def execCkptDrainDone (slot : Fin 8) (s : State) : Host.Outcome State Fault Refusal := liveEng s (fun s => s.drainDone slot.val)

/-- CKPT_IMAGE_CHECK (R617): in the buddy slot of a parity. -/
def execCkptImageCheck (slot : Fin 8) (odd : Bool) (s : State) : Host.Outcome State Fault Refusal := liveEng s (fun s => s.imageCheck slot.val (b2n odd))

/-- CKPT_COMMIT (R618, R620, R622, R623). -/
def execCkptCommit (slot : Fin 8) (s : State) : Host.Outcome State Fault Refusal := liveEng s (fun s => s.ckptCommit slot.val)

/-- CKPT_PLAN_RECEIVE (R618, R620, R623, R626, R629): `vps` are the pages that MODE is to use. -/
def execCkptPlanReceive (slot : Fin 8) (vps : List (Nat × Nat)) (s : State) : Host.Outcome State Fault Refusal :=
  liveEng s (fun s => s.planReceive slot.val vps)

/-- RESTORE_BEGIN (R625, R631, R632): `back` says that an image of the target could not be had. -/
def execRestoreBegin (slot : Fin 8) (back : Bool) (s : State) : Host.Outcome State Fault Refusal := liveEng s (fun s => s.restoreBegin slot.val back)

/-- RESTORE_RECORD_RECEIVE (R626, R627). -/
def execRestoreRecordReceive (slot : Fin 8) (s : State) : Host.Outcome State Fault Refusal := liveEng s (fun s => s.restoreReceive slot.val)

/-- RESTORE_IMAGE_FETCHED (R626, R628, R674): `record` is the state record that the image's bytes spell. -/
def execRestoreImageFetched (slot : Fin 8) (record : CkptRecord) (s : State) : Host.Outcome State Fault Refusal :=
  liveEng s (fun s => s.imageFetched slot.val record)

/-- RESTORE_COMPLETE (R626). -/
def execRestoreComplete (slot : Fin 8) (s : State) : Host.Outcome State Fault Refusal := liveEng s (fun s => s.restoreComplete slot.val)

/-- SETTLE_END (R629). -/
def execSettleEnd (slot : Fin 8) (vps : List (Nat × Nat)) (s : State) : Host.Outcome State Fault Refusal := liveEng s (fun s => s.settleEnd slot.val vps)

/-- ESCROW_SHARE (R435, R457). (DEDUCED, log entry 131) -/
def execEscrowShare (sec owner : Nat) (id : List (BitVec 8)) (sigOk : Bool) (index : Nat) (share : List (BitVec 8)) (s : State) :
    Host.Outcome State Fault Refusal :=
  liveEng s (fun s => s.ownerReq sec owner id sigOk 5 (fun s i y => s.escrowShare sec owner i y index share))

end Sys2Proof.Machine
end

