-- ==== Sys2Proof/Machine/HostPort.lean ====
section
/-!
DEFINITION. The host port: refused host writes, ingest and egress rings, the IDE stream and resets of the host link (R655 to R675).
-/
namespace Sys2Proof.Machine

/-- Magic numbers (R437, R663, R668, R674), as little-endian words. -/
def magicSealed : Nat := 0x4453524B
def magicWrap : Nat := 0x5753524B
def magicPlain : Nat := 0x5053524B
def magicEscrow : Nat := 0x4553524B
def magicRestore : Nat := 0x5253524B

def ringBytes : Nat := 33554432

/-- A sealed record's header (R437). -/
structure RecHeader where
  magic : Nat
  dir : Nat
  owner : Nat
  part : Nat
  rule : Nat
  seq : Nat
  len : Nat
  sess : Nat
  dest : Nat

def recHeader (b : Bytes) : RecHeader :=
  let f (o n : Nat) : Nat := leNat ((b.drop o).take n)
  ⟨f 0 4, f 4 1, f 5 1, f 6 1, f 7 1, f 8 8, f 16 4, f 20 4, f 24 8⟩

def RecHeader.bytes (h : RecHeader) : Bytes :=
  leBytes 4 h.magic ++ leBytes 1 h.dir ++ leBytes 1 h.owner ++ leBytes 1 h.part ++ leBytes 1 h.rule ++ leBytes 8 h.seq ++ leBytes 4 h.len ++
  leBytes 4 h.sess ++ leBytes 8 h.dest

/-- Ring bytes of a record (R663). -/
def recSize (len : Nat) : Nat := ceilDiv (32 + len + 16) 64 * 64

namespace State

def ingRing (s : State) (i : Nat) : IngRing := Sparse.get IngRing.reset s.host.rings i
def onHost (s : State) (f : HostPort → HostPort) : State := { s with host := f s.host }
def setRing (s : State) (i : Nat) (r : IngRing) : State := s.onHost (fun h => { h with rings := Sparse.set IngRing.reset h.rings i r })

/-- A code of the host port. -/
def hostRaise (s : State) (code a0 a2 : Nat) : State := (s.raise 2 code a0 0 a2).msi 0

/-- A write of a HOST register: who may, and when (R654, R658, R680). -/
def hostWrite (s : State) (who : Writer) (addr : Nat) (needReady : Bool) (f : State → State) : State :=
  match who with
  | .host =>
    if !s.host.ideSecure then (s.count (ctl 0x48 0x10) 1).hostRaise 0x0204 addr 0
    else if needReady && !s.boot.ready then s.refuse who addr 0x020A
    else f s
  | .firmware => f s
  | .mgmt _ _ => s.refuse who addr 0x0201
  | _ => s.refuse who addr 0x0202

/-- HEAD of a ring moves past `size` bytes; it is written back after each 1 MiB of records, once the endpoint may write (R658, R665). (DEDUCED, log entry 44) -/
def advanceHead (s : State) (i size : Nat) (accepted : Bool) : State :=
  let r := s.ingRing i
  let head := (r.head + size) % ringBytes
  let s := s.count (ctl 2 ((if accepted then 0x114 else 0x118) + 0x20 * i)) 1
  if 1048576 ≤ r.since + size then
    if s.host.ideSecure then
      ((s.setRing i { r with head := head, taken := (r.taken + 1) % 2 ^ 32, since := 0 }).emit
        (.dma (32 + i) 0 0 (leBytes 4 head ++ leBytes 4 ((r.taken + 1) % 2 ^ 32)))).msi (2 + i)
    else s.setRing i { r with head := head, taken := (r.taken + 1) % 2 ^ 32, since := r.since + size }
  else s.setRing i { r with head := head, taken := (r.taken + 1) % 2 ^ 32, since := r.since + size }

/-- Pages that a sealed record would write, each served for writing and in no Lining set (R438). -/
def recordLands (s : State) (part dest len : Nat) : Bool :=
  decide (dest + len ≤ 2 ^ 45) && (List.range ((dest + len - 1) / pageSize - dest / pageSize + 1)).all (fun k =>
    match (s.access .ld part (dest / pageSize + k) true).2 with
    | .served _ => true
    | .wait => true
    | .loan _ _ => true
    | .refused _ _ => false)

/-- What holds at HEAD (R665): a wrap marker, a record of a known kind that fits, or neither. -/
def recordAt (s : State) (i : Nat) (h : RecHeader) : Option Nat :=
  let r := s.ingRing i
  let tail := s.regField (ctl 2 (0x104 + 0x20 * i)) 24 0
  let limit := if r.head < tail then tail else ringBytes
  if (h.magic = magicSealed ∨ h.magic = magicRestore) ∧ r.head + recSize h.len ≤ limit then some (recSize h.len) else none

/-- Whether the engine may take from a ring. -/
def ringOpen (s : State) (i : Nat) : Bool :=
  let r := s.ingRing i
  s.boot.ready && !r.stopped && decide (r.head ≠ s.regField (ctl 2 (0x104 + 0x20 * i)) 24 0)

/-- The GCM key and IV of a record of an owner's pair (R437): 32 bytes of key, then the salt before the counter. -/
def recKey (keys : Bytes) : Bytes := keys.take 32
def recIv (keys : Bytes) (seq : Nat) : Bytes := keys.drop 32 ++ leBytes 8 seq

/-- One sealed record (R437, R438, R439): header, ciphertext and tag as they stand in the ring. -/
def takeRecord (s : State) (i : Nat) (header : Bytes) (h : RecHeader) (size : Nat) (payload tag : Bytes) : State :=
  let ct := (payload ++ List.replicate h.len 0).take h.len
  let y := s.session i
  let drop (code : Nat) : State := ((s.keysRaise code i h.owner).count (ctl 0x000C 0x10) 1).advanceHead i size false
  match y.charter with
  | none => drop 0x220B
  | some c =>
    let pair := y.pairs.find? (fun p => p.owner = h.owner)
    let decl := c.parts.find? (fun d => d.number = h.part)
    let good := (y.state = .keying ∨ y.state = .active) ∧ h.sess = leNat (c.sessionId.take 4) ∧ h.dir = 0 ∧ h.rule = 0 ∧ 1 ≤ h.len ∧ h.len ≤ 4194304 ∧
      (pair.map OwnerPair.nextIn) = some h.seq ∧ (decl.elim false (fun d => d.owners.toNat.testBit h.owner)) = true ∧ s.recordLands h.part h.dest h.len = true
    if ¬ good then drop 0x220B
    else
      let keys := pair.elim [] OwnerPair.keyIn
      if gcmTag (recKey keys) (recIv keys h.seq) header ct ≠ tag then drop 0x220C
      else
      let t := s.engineWrite h.part h.dest (gcmText (recKey keys) (recIv keys h.seq) ct)
      match t.2 with
      | some true =>
        (t.1.setSession i { y with pairs := y.pairs.map (fun p => if p.owner = h.owner then { p with nextIn := p.nextIn + 1 } else p) }).advanceHead i size true
      | _ => s

/-- The engine meets what stands at HEAD (R665). A restore record is left to its own command. -/
def ingest (s : State) (i : Nat) (header payload tag : Bytes) : State :=
  let h := recHeader header
  if !s.ringOpen i then s
  else if h.magic = magicWrap then s.setRing i { s.ingRing i with head := 0 }
  else match s.recordAt i h with
    | none => (s.setRing i { s.ingRing i with stopped := true }).hostRaise 0x0203 i i
    | some size => if h.magic = magicSealed then s.takeRecord i header h size payload tag else s

/-! Egress (R667 to R669). -/

def egrSize (s : State) : Nat := 2 ^ s.regField (ctl 2 0x208) 5 1
def egrHead (s : State) : Nat := s.regField (ctl 2 0x20C) 29 0
/-- DEDUCED, log entry 43. -/
def egrUsed (s : State) : Nat := (s.host.egrTail + s.egrSize - s.egrHead) % s.egrSize

/-- The header of an export's record (R437, R668): none while the owner has no pair, or no generation has been committed. -/
def exportHeader (s : State) (x : Export) : Option RecHeader :=
  let i := (s.part x.part).session
  let y := s.session i
  let sess := match y.charter with | some c => leNat (c.sessionId.take 4) | none => 0
  match x.form with
  | 0 => (y.pairs.find? (fun p => p.owner = x.dest)).map (fun p => ⟨magicSealed, 1, x.dest, x.part, x.rule, p.nextOut, x.data.length, sess, 0⟩)
  | 1 => some ⟨magicPlain, 1, 0xFF, x.part, x.rule, Sparse.get 0 s.host.plainSeq (64 * i + x.rule), x.data.length, sess, x.step⟩
  | _ =>
    let k := s.ckptSess i
    if (assocGet k.cks k.plan.n).isSome then some ⟨magicEscrow, 1, 0xFF, x.part, x.rule, Sparse.get 0 s.host.escrowSeq i, x.data.length, sess, k.plan.n⟩ else none

/-- Payload and tag of an export's record (R437, R668). -/
def exportSeal (s : State) (x : Export) (h : RecHeader) : Bytes :=
  let i := (s.part x.part).session
  let under (key iv : Bytes) : Bytes := let ct := gcmText key iv x.data; ct ++ gcmTag key iv h.bytes ct
  match x.form with
  | 0 => let keys := ((s.session i).pairs.find? (fun p => p.owner = x.dest)).elim [] OwnerPair.keyOut; under (recKey keys) (recIv keys h.seq)
  | 1 => x.data ++ List.replicate 16 0
  | _ => let k := s.ckptSess i; under ((assocGet k.cks k.plan.n).getD []) (leBytes 4 k.plan.n ++ leBytes 8 h.seq)

/-- The counters of a record that has been posted. (DEDUCED, log entry 42) -/
def exportCount (s : State) (x : Export) : State :=
  let i := (s.part x.part).session
  match x.form with
  | 0 => let y := s.session i
         s.setSession i { y with pairs := y.pairs.map (fun p => if p.owner = x.dest then { p with nextOut := p.nextOut + 1 } else p) }
  | 1 => s.onHost (fun h => { h with plainSeq := Sparse.update 0 h.plainSeq (64 * i + x.rule) (· + 1) })
  | _ => s.onHost (fun h => { h with escrowSeq := Sparse.update 0 h.escrowSeq i (· + 1) })

/-- The oldest waiting export enters the egress ring (R667, R668). (DEDUCED, log entry 43) -/
def egressPost (s : State) : State :=
  match s.host.exports with
  | [] => s
  | x :: rest =>
    let ctrl := s.reg (ctl 2 0x208)
    match s.exportHeader x with
    | none => s
    | some h =>
      let size := recSize x.data.length
      let tail := s.host.egrTail
      let wrap := decide (s.egrSize < tail + size)
      let need := if wrap then s.egrSize - tail + size else size
      if !ctrl.toNat.testBit 0 || !s.host.ideSecure || decide (s.egrSize ≤ s.egrUsed + need) then s
      else
        let text := s.exportSeal x h
        let s := s.exportCount x
        let s := if wrap then s.emit (.dma 64 tail 0 (leBytes 4 magicWrap ++ List.replicate 60 0)) else s
        let at_ := if wrap then 0 else tail
        let body := h.bytes ++ text ++ List.replicate (size - 32 - text.length) 0
        let s := s.emit (.dma 64 at_ h.seq body)
        let tail := (at_ + size) % s.egrSize
        let s := s.onHost (fun p => { p with egrTail := tail, exports := rest })
        ((s.emit (.dma 65 0 0 (leBytes 8 tail))).msi 1).opLanded x.core x.slot none

/-- An export that has waited LIFE_MS (R669): its operation ends, and what has not left counts against no cap. (DEDUCED, log entry 42) -/
def egrFull (s : State) (n slot : Nat) : State :=
  let mine (x : Export) : Bool := decide (x.core = n ∧ x.slot = slot)
  if s.host.exports.any mine then
    let gone := s.host.exports.filter mine
    let s := s.onHost (fun h => { h with exports := h.exports.filter (fun x => !mine x) })
    let s := gone.foldl (fun s x =>
      let i := (s.part x.part).session
      let y := s.session i
      s.setSession i { y with used := y.used.map (fun u => if u.1 = x.rule ∧ u.2.1 = x.step then (u.1, u.2.1, u.2.2 - x.data.length) else u) }) s
    (s.hostRaise 0x0205 0 0).onOp n slot (fun m => m.refuse 3 0x0205)
  else s

/-! Resets and the IDE stream (R657, R658, R675). -/

/-- Operations on the host window that are in flight end. -/
def endHostOps (s : State) (status code : Nat) : State :=
  { s with cores := s.cores.map (fun (e : Nat × Core) => (e.1, { e.2 with mover := e.2.mover.map (fun m =>
      if m.inHost && decide (m.stage = .quota ∨ m.stage = .passed) then m.refuse status code else m) })) }

/-- The HOST registers, back at their reset values (R675, R680). (DEDUCED, log entry 28) -/
def hostRegsReset (s : State) : State :=
  { s with regs := s.regs.filter (fun e => decide (blockOf e.1 ≠ 2)), errs := s.errs.filter (fun e => decide (blockOf e.1 ≠ 2)),
           counts := s.counts.filter (fun e => decide (blockOf e.1 ≠ 2)), werr := none }

def pcieReset (s : State) : State :=
  let inFlight := s.cores.any (fun e => e.2.mover.any (fun m => m.inHost && decide (m.stage = .quota ∨ m.stage = .passed)))
  let s := (s.hostRegsReset.onHost (fun h => { h with rings := [], egrTail := 0, ideSecure := false, keyset := false, speed := 0, width := 0, flit := false })).endHostOps 5 0x0208
  let s := (s.setSlot 58 0 false).setSlot 58 1 false
  if inFlight then s.raise 2 0x0208 0 0 0 else s

/-- An IDE failure (R658, R676). -/
def ideFails (s : State) : State :=
  if s.host.ideSecure then
    (((s.onHost (fun h => { h with ideSecure := false })).endHostOps 6 0x0209).count (ctl 0x48 0xC) 1).hostRaise 0x0209 0 0
  else s

end State
end Sys2Proof.Machine
end

