-- ==== Sys2Proof/Machine/Power.lean ====
section
/-!
DEFINITION. Clock domains, Seams, resets, region power states, operating points, the power controller, input pins and the rail sequencer (R707 to R735, R790 to R796).
-/
namespace Sys2Proof.Machine

/-- An engine is drained for sleep (R275): it is disabled once its window is empty. -/
def UpdateEngine.toSleep (u : UpdateEngine) : UpdateEngine :=
  if u.window = [] then { u with enable := false, state := if u.state = 3 then 0 else u.state }
  else if u.enable && decide (u.state = 0) then { u with state := 3 } else u

/-- Whether the rails are being removed. -/
def Sequencer.isFalling : Sequencer → Bool
  | .falling _ => true
  | _ => false

namespace State

def pin (s : State) (k : Nat) : Pin := Sparse.get Pin.reset s.pwr.pins k
def setPin (s : State) (k : Nat) (x : Pin) : State := s.onPwr (fun p => { p with pins := Sparse.set Pin.reset p.pins k x })

/-! Cold reset (R717, R718). -/

/-- Cold reset: what survives is the fuses, flash, the quarantine map and the Visor's plan in it, fabric time while AON has power (R491), and the package's
rails and pins. (DESIGN CHOICE, log entry 19) -/
def coldReset (s : State) : State :=
  let z := State.reset
  { z with
    pending := s.pending, out := s.out, free := s.free, quarMap := s.quarMap,
    boot := { z.boot with flash := s.boot.flash, fused := s.boot.fused, deviceId := s.boot.deviceId, uds := s.boot.uds },
    keys := { z.keys with svnFuses := s.keys.svnFuses, boots := s.keys.boots },
    mgmt := { z.mgmt with flash := s.mgmt.flash, flashed := s.mgmt.flashed, flogSeq := (s.mgmt.flash.getLast?.map (fun e => e.seq + 1)).getD 0 },
    clock := { z.clock with now := s.clock.now },
    visor := { z.visor with days := s.visor.days, copyA := s.visor.copyA, copyB := s.visor.copyB },
    pwr := { z.pwr with rails := s.pwr.rails.map (fun (e : Nat × Rail) => (e.1, { e.2 with mv := 0, ma := 0 })), enables := s.pwr.enables, seq := s.pwr.seq, latched := s.pwr.latched, shutdown := s.pwr.shutdown,
                        logic := s.pwr.logic, aonLog := s.pwr.aonLog, pins := s.pwr.pins.map (fun (e : Nat × Pin) => (e.1, { Pin.reset with active := e.2.active })) } }

/-! Cores without power (R717). -/

/-- Core gating (R717, R719): the state of R93 reads zero; the core registers of R92 and the Brim slots stay. (DEDUCED, log entry 112) -/
def gateCore (s : State) (n : Nat) : State :=
  let d := s.drawBytes 1048576
  d.2.mapCore n (fun c =>
    { Core.reset with ctl := { c.ctl with enable := false, draining := false, ending := false, waiting := false, brimWait := none, stopping := none,
                                          run := if c.ctl.quar then .quarantined else .asleep },
                      brim := c.brim, sqb := Sparse.run 0 0 d.1 })

/-- A region is held down (R716): its cores and update engine stop, Crown treats both as failed and asks for restore. (DEDUCED, log entry 113) -/
def holdRegion (s : State) (r code : Nat) : State :=
  if s.boot.held.toNat.testBit r then s
  else
    let cores := (List.range 32).map (32 * r + ·)
    let hit := (List.range 32).filter (fun p => (s.crownPart p).placed.any (fun x => cores.contains x.core) || (s.region r).ue.table.any (fun t => t.part = p))
    let s := { s with boot := { s.boot with held := s.boot.held ||| 1#16 <<< r } }
    let s := s.onRegPwr r (fun g => { g with st := .held, pend := false, cause := code, point := 0 })
    let s := s.onPwr (fun p => { p with running := p.running &&& ~~~dbit (regDomain r), failed := p.failed ||| dbit (regDomain r), starting := p.starting &&& ~~~dbit (regDomain r),
                                        freq := Sparse.set 0 p.freq (regDomain r) 0, stopping := p.stopping &&& ~~~dbit (regDomain r), pllPend := p.pllPend &&& ~~~dbit (regDomain r), seams := p.seams &&& ~~~dbit (regDomain r) })
    let s := cores.foldl (fun s n => (s.fenceMover n).mapCore n (fun c => c.abandon.withCtl (fun k => { k with enable := false, draining := false, ending := false, waiting := false, run := if k.quar then .quarantined else .asleep }))) s
    let s := s.onRegion r (fun g => { g with rb := [], fills := [], ue := { g.ue with enable := false, state := 4 } })
    let s := s.pushEvent 8 [r, 0]
    let s := s.onCrown (fun c => { c with wakePend := c.wakePend &&& ~~~(1#16 <<< r) })
    hit.foldl (fun s p => s.crownAsk p code 0 0) s

/-! Seams and PLLs (R708 to R716). -/

/-- A management restart (R703): connections, telemetry, staging, SPDM sessions and the log's SRAM go. (DEDUCED, log entry 108) -/
def mgmtRestart (s : State) : State :=
  let s := s.count (ctl 3 0xC) s.mgmt.toFlash.length
  let s := { s with keys := { s.keys with conns := s.keys.conns.filter (fun c => c.transport = 1), secure := s.keys.secure.filter (fun x => x.transport = 1) } }
  let s := { s with mgmt := { s.mgmt with conns := [], stage := if s.mgmt.stage.state = 3 then s.mgmt.stage else Stage.idle, sram := [], toFlash := [], ppsSecond := none } }
  s.raise 3 0x0309 0 0 0

/-- What follows when a domain no longer takes what a Seam carries (R715). -/
def domainLost (s : State) (d code a1 a2 : Nat) : State :=
  match domainRegion d with
  | some r => (s.raise 4 code d a1 a2).holdRegion r code
  | none =>
    if d = 3 then (s.raise 4 code d a1 a2).mgmtRestart
    else if d = 25 then (s.raise 4 code d a1 a2).pcieReset
    else s.beginHalt 4 code d a1 a2

def pllUnlock (s : State) (d mhz : Nat) : State :=
  if d < 2 ∨ 25 < d ∨ !hasBit s.pwr.running d then s
  else
    let s := s.onPwr (fun p => { p with running := p.running &&& ~~~dbit d, failed := p.failed ||| dbit d, seams := p.seams &&& ~~~dbit d, freq := Sparse.set 0 p.freq d 0 })
    s.domainLost d 0x6001 0 mhz

/-- A Seam stalls toward domain `far` (R715); one that is closed never counts. -/
def seamStall (s : State) (near far : Nat) : State :=
  if far < 2 ∨ 25 < far ∨ !hasBit s.pwr.seams far then s
  else
    let s := (s.onPwr (fun p => { p with seams := p.seams &&& ~~~dbit far })).count (ctl 4 0xC) 1
    s.domainLost far 0x6002 near 0

def pllLock (s : State) (d mhz : Nat) : State :=
  if hasBit s.pwr.starting d then
    s.onPwr (fun p => { p with starting := p.starting &&& ~~~dbit d, running := p.running ||| dbit d, freq := Sparse.set 0 p.freq d (mhz % 4096) })
  else s

def seamRelease (s : State) (d : Nat) : State :=
  if hasBit s.pwr.running d && !hasBit s.pwr.failed d then s.onPwr (fun p => { p with seams := p.seams ||| dbit d }) else s

/-! Region power states (R357, R358, R720, R721). -/

/-- Whether a stream is placed in a region. -/
def streamsIn (s : State) (r : Nat) : Bool := s.crown.parts.any (fun e => e.2.placed.any (fun p => p.core / 32 = r))

/-- Sleep entry begins (R357): cores are gated, the region buffer dropped; before SLEEP_STOP the update engine is drained (R275). (DEDUCED, log entry 112) -/
def regionSleep (s : State) (r : Nat) : State :=
  if (s.regPwr r).st ≠ .active ∨ s.streamsIn r then s
  else
    let deep := (s.region r).ue.table.isEmpty
    let s := s.onRegPwr r (fun g => { g with st := .entering, deep := deep, pend := false })
    let s := if deep then s.onPwr (fun p => { p with stopping := p.stopping ||| dbit (regDomain r), seams := p.seams &&& ~~~dbit (regDomain r) }) else s
    let s := ((List.range 32).map (32 * r + ·)).foldl (fun s n => s.gateCore n) s
    s.onRegion r (fun g => { g with rb := [], fills := [], ue := if deep then g.ue.toSleep else g.ue })

/-- An engine that was to stop for sleep has got a registration from its last commands: the region goes to SLEEP_SLOW. -/
def sleepSlow (s : State) (r : Nat) : State :=
  if (s.regPwr r).deep = true ∧ (s.region r).ue.table ≠ [] then
    ((s.onRegPwr r (fun g => { g with deep := false })).onPwr (fun p => { p with
      stopping := p.stopping &&& ~~~dbit (regDomain r), seams := p.seams ||| dbit (regDomain r) })).onRegion r (fun g => { g with ue := { g.ue with enable := true } })
  else s

/-- Voltage of a unit at a point, from its plan or the starting table (R723). -/
def startMv (k : Nat) : Nat := ([600, 615, 630, 645, 660, 675, 690, 705, 725, 745, 765, 785, 805, 825, 850] : List Nat).getD k 850

def planMv (s : State) (u k : Nat) : Nat := ((s.visor.plan.find? (fun e => e.1 = u ∧ e.2.1 = k)).map (fun e => e.2.2)).getD (if u < 16 then startMv k else if u = 16 then 750 else 800)

/-- POINT_MAX of a region is not to exceed `k` (R753, R755). -/
def lowerFmax (s : State) (r k : Nat) : State :=
  let a := ctl 5 (0x140 + 4 * r)
  if k < s.regField a 3 0 then s.setReg a (BitVec.ofNat 32 k) else s

/-! The plan in flash (R758). -/

/-- The bytes of a copy that its CRC-32 and its HMAC cover: 4 KiB without these two. -/
def planBytes (c : VisorCopy) : Bytes := leBytes 4 c.count ++ (List.range 4072).map (Config.planByte c.plan c.retired c.units)

def planMac (key : Bytes) (c : VisorCopy) : Bytes := (hmac384 key (planBytes c)).take 16

def planSealed (key : Bytes) (c : VisorCopy) : VisorCopy := { c with crc := crc32 (planBytes c), mac := planMac key c }

def planValid (key : Bytes) (c : VisorCopy) : Bool := decide (c.crc = crc32 (planBytes c) ∧ c.mac = planMac key c)

/-- The key of the plan's copies, from CDI₀ (R432). -/
def visorKey (s : State) : Bytes := (List.range 48).map (Config.visorKeyByte (s.boot.cdi.headD []))

/-- The copy in flash of the plan in force goes beside the one in use, with the next count (R758); a flash write that fails leaves what stands (R760). -/
def planStore (s : State) (flashOk : Bool) : State :=
  let v := s.visor
  let n := ((if v.inB then v.copyB else v.copyA).elim 0 VisorCopy.count) + 1
  let c := planSealed s.visorKey ⟨n, v.plan, v.retired, v.units.map (fun (u : Nat × VisorUnit) => (u.1, u.2.planned, u.2.planDay, u.2.rateNum, u.2.rateDays)), 0, []⟩
  if !flashOk then s
  else if v.inB then { s with visor := { v with copyA := some c, inB := false } }
  else { s with visor := { v with copyB := some c, inB := true } }

/-- Boot takes the valid copy with the higher count (R758); retired points stay retired (R755). `bad` are copies that flash does not give back as written. -/
def planLoad (s : State) (bad : BitVec 2) : State :=
  let v := s.visor
  let ok (k : Nat) (c : VisorCopy) : Bool := !bad.toNat.testBit k && planValid s.visorKey c
  let both := (v.copyA.filter (ok 0)).toList.map (fun c => (c, false)) ++ (v.copyB.filter (ok 1)).toList.map (fun c => (c, true))
  match both.find? (fun x => both.all (fun y => decide (y.1.count ≤ x.1.count))) with
  | some (c, inB) =>
    let units := c.units.map (fun u => (u.1, { VisorUnit.reset with planned := u.2.1, planDay := u.2.2.1, rateNum := u.2.2.2.1, rateDays := u.2.2.2.2 }))
    let s := { s with visor := { v with plan := c.plan, retired := c.retired, inB := inB, starting := false, units := units } }
    c.retired.foldl (fun s e => if e.1 < 16 then s.lowerFmax e.1 (e.2 - 1) else s) s
  | none => { s.raise 6 0x700D 0 0 0 with visor := { v with starting := true } }

/-- A region's clock and regulator stand at a point (R710, R722, R723). -/
def setPoint (s : State) (r k : Nat) : State :=
  (s.onRegPwr r (fun g => { g with point := k, mv := s.planMv r k })).onPwr (fun p => { p with freq := Sparse.set 0 p.freq (regDomain r) (600 + 100 * k) })

/-- Entry completes (R721), once the engine has drained where it is to stop (R275); a wake that was latched then begins (R358). (DEDUCED, log entry 112) -/
def sleepDone (s : State) (r : Nat) : State :=
  if (s.regPwr r).st ≠ .entering || ((s.regPwr r).deep && (s.region r).ue.enable && decide ((s.region r).ue.state ≠ 4)) then s
  else
    let s := s.sleepSlow r
    let g := s.regPwr r
    let s := (s.onRegPwr r (fun g => { g with st := if g.deep then .stop else .slow })).setPoint r 0
    let s := if g.deep then s.onPwr (fun p => { p with running := p.running &&& ~~~dbit (regDomain r), stopping := p.stopping &&& ~~~dbit (regDomain r),
                                                       pllPend := p.pllPend &&& ~~~dbit (regDomain r), freq := Sparse.set 0 p.freq (regDomain r) 0 }) else s
    let s := s.place 5 0 0 r (if g.deep then 2 else 1) 0 0
    if g.pend then s.wakeFrom r else s

/-- The point a region is to run at (R724, R757). (DEDUCED, log entry 112) -/
def targetPoint (s : State) (r : Nat) : Nat :=
  let g := s.regPwr r
  let fmax := s.regField (ctl 5 (0x140 + 4 * r)) 3 0
  let low := (s.pin 4).active && !(s.pin 4).stuck
  if low || g.trip then 0 else min (min s.pwr.chipPoint fmax) g.clamp - b2n g.alarm

/-- A change of operating point (R722): in SLEEP_SLOW point 0, until a command lands in a ring of the region's engine (R357). -/
def dvfs (s : State) (r : Nat) : State :=
  match (s.regPwr r).st with
  | .active => s.setPoint r (s.targetPoint r)
  | .slow => s.setPoint r (if (s.region r).ue.window.isEmpty then 0 else s.targetPoint r)
  | _ => s

/-- A wake completes (R357): the clock is locked and the Seams released; cores that are enabled run, the engine is enabled again (R275). -/
def wakeDone (s : State) (r ns : Nat) : State :=
  let g := s.regPwr r
  let d := regDomain r
  if g.st ≠ .waking ∨ !hasBit s.pwr.running d ∨ !hasBit s.pwr.seams d then s
  else
    let s := (s.onRegPwr r (fun x => { x with st := .active })).setPoint r (s.targetPoint r)
    let s := s.onRegion r (fun x => { x with ue := { x.ue with enable := x.ue.enable || (decide (x.ue.state ≠ 4) && s.boot.ready) } })
    let s := ((List.range 32).map (32 * r + ·)).foldl (fun s n => s.mapCore n (fun c => if c.ctl.run = .asleep && c.ctl.enable then c.withCtl (fun k => { k with run := .running }) else c)) s
    s.place 6 0 0 r ns 0 0

/-! The power limit and the power controller (R725, R726). -/

def powerLimit (s : State) : Nat :=
  let w := s.regField (ctl 5 0) 11 0
  if s.mgmt.bmcPlimit = 0 then w else min w s.mgmt.bmcPlimit

/-- The chip point is lowered by `k` (R726). (DEDUCED, log entry 114) -/
def lowerPoint (s : State) (k reading : Nat) : State :=
  let p := s.pwr.chipPoint
  if p = 0 then s
  else
    let s := s.onPwr (fun x => { x with chipPoint := p - k, throttled := true })
    let s := s.count (ctl 5 0x18) 1
    if p = 14 then s.raise 5 0x7001 0 reading (p - k) else s

def raisePoint (s : State) : State :=
  s.onPwr (fun x => { x with chipPoint := min 14 (x.chipPoint + 1), throttled := x.throttled && decide (x.chipPoint + 1 < 14) })

/-- A sample of package power in µW, with the conditions of R726 at each sample and at each millisecond. (DEDUCED, log entry 114) -/
def powerSample (s : State) (readings : List (Nat × Nat)) : State :=
  let rails := readings.zipIdx.foldl (fun m x => Sparse.update Rail.off m x.2 (fun r => { r with mv := x.1.1, ma := x.1.2 })) s.pwr.rails
  let uw := (readings.map (fun x => x.1 * x.2)).foldl (· + ·) 0
  let lim := s.powerLimit * 1000000
  let s := s.onPwr (fun p => { p with rails := rails, samples := p.samples ++ [uw], overMs := if 11 * lim < 10 * uw then p.overMs + 1 else 0 })
  let s := if 5 ≤ s.pwr.overMs then (s.onPwr (fun p => { p with overMs := 0 })).lowerPoint 2 (uw / 1000000) else s
  if s.pwr.samples.length < 10 then s
  else
    let sum := s.pwr.samples.foldl (· + ·) 0
    let s := s.onPwr (fun p => { p with avg := sum / 10000000, peak := (p.samples.foldl max 0) / 1000000, samples := [] })
    if 10 * lim < sum then (s.onPwr (fun p => { p with under := 0 })).lowerPoint 1 (sum / 10000000)
    else if 20 * sum ≤ 190 * lim then
      let s := s.onPwr (fun p => { p with under := p.under + 1 })
      if 10 ≤ s.pwr.under then (s.onPwr (fun p => { p with under := 0 })).raisePoint else s
    else s.onPwr (fun p => { p with under := 0 })

/-! Temperature (R727). -/

/-- The rails begin to go, in the reverse order of R794 (R795). (DEDUCED, log entry 115) -/
def railsDown (s : State) : State :=
  let top := match s.pwr.seq with | .rising g => g | .up => 8 | .falling g => g | .off => 0
  if top = 0 then s else s.onPwr (fun p => { p with seq := .falling top })

/-- A region goes to point 0 for its temperature (R727). -/
def thermalTrip (s : State) (r : Nat) : State :=
  let s := s.onRegPwr r (fun x => { x with trip := true, clamp := 0, clamped := true })
  if (s.regPwr r).st = .active ∨ (s.regPwr r).st = .slow then s.setPoint r 0 else s

/-- One region's reading. -/
def thermalRegion (s : State) (r t : Nat) (ms : Bool) : State :=
  let g := s.regPwr r
  let s := s.onRegPwr r (fun x => { x with temp := min t 2047 })
  let s := if 1050 ≤ t ∧ !g.trip then (s.raise 5 0x7003 r t 0).thermalTrip r else s
  let s := if t < 1000 then s.onRegPwr r (fun x => { x with trip := x.trip && s.pwr.tripAll }) else s
  let s := if 1000 ≤ t ∧ !g.clamped then (s.raise 5 0x7002 r t g.point).onRegPwr r (fun x => { x with clamped := true }) else s
  let s := if t < 970 then s.onRegPwr r (fun x => { x with clamped := false }) else s
  if ms then s.onRegPwr r (fun x => { x with clamp := if x.clamped && decide (1000 ≤ t) then x.clamp - 1 else if x.clamped then x.clamp else min 14 (x.clamp + 1) }) else s

/-- Readings of the regions' junctions, LD, SMD and the stacks; a cold reset held for a thermal shutdown follows once the logic has cooled. (DEDUCED, log entry 114) -/
def thermalSample (s : State) (regions : List Nat) (ld smd : Nat) (dramStacks : List Nat) : State :=
  let ms := decide (9 ≤ s.pwr.tick)
  let logic := max (regions.foldl max 0) (max ld smd)
  let dram := dramStacks.foldl max 0
  let s := s.onPwr (fun p => { p with tick := if ms then 0 else p.tick + 1, logic := min logic 2047, dram := min dram 2047 })
  let base := max ld smd
  let s := if 1050 ≤ base ∧ !s.pwr.tripAll then
      let s := (s.raise 5 0x7003 (if smd ≤ ld then 16 else 17) base 0).onPwr (fun p => { p with tripAll := true })
      (List.range 16).foldl State.thermalTrip s
    else if base < 1000 then s.onPwr (fun p => { p with tripAll := false }) else s
  let s := regions.zipIdx.foldl (fun s x => if x.2 < 16 then s.thermalRegion x.2 x.1 ms else s) s
  let s := dramStacks.zipIdx.foldl (fun s x =>
    let on := s.pwr.hot.toNat.testBit x.2
    if 950 ≤ x.1 ∧ !on then (s.raise 5 0x7005 (2 * x.2) x.1 0).onPwr (fun p => { p with hot := p.hot ||| 1#8 <<< x.2 })
    else if x.1 < 900 ∧ on then s.onPwr (fun p => { p with hot := p.hot &&& ~~~(1#8 <<< x.2) }) else s) s
  let s := if 1150 ≤ logic ∧ !s.pwr.shutdown then ((s.beginHalt 5 0x7004 0 logic 0).onPwr (fun p => { p with shutdown := true })).railsDown else s
  let s := if 1000 ≤ dram then s.beginHalt 5 0x7006 (2 * (dramStacks.findIdx (fun t => 1000 ≤ t))) dram 0 else s
  if s.pwr.resetHeld ∧ logic < 850 then s.coldReset.onPwr (fun p => { p with shutdown := false }) else s

/-! Input pins (R728, R729). -/

/-- Whether a pin that was held active beyond its limit is still ignored (R729). -/
def pinIgnored (s : State) (k least : Nat) : Bool :=
  (s.pin k).stuck && (match (s.pin k).released with | some t => decide (s.clock.now < t + least) | none => true)

/-- An assertion of a pin with a least interval: ignored while stuck or too soon; `f` is what an accepted one does. -/
def pinOn (s : State) (k least : Nat) (f : State → State) : State :=
  let x := s.pin k
  let now := s.clock.now
  let soon := match x.accepted with | some t => decide (now < t + least) | none => false
  if x.active || s.pinIgnored k least then s
  else if soon then
    let a := ctl 4 (if k = 3 then 0x14 else 0x18)
    ({ s with counts := Sparse.update 0 s.counts a (fun n => satAdd 16 n 1) }).raise 4 0x6004 1 k 0
  else f (s.setPin k { active := true, stuck := false, accepted := some now, released := none })

/-- A pin is released. -/
def pinOff (s : State) (k : Nat) : State := s.setPin k { s.pin k with active := false, released := some s.clock.now }

def pinStuck (s : State) (k : Nat) : State :=
  if (s.pin k).active && !(s.pin k).stuck && decide (k = 3 ∨ k = 4) then
    (s.setPin k { s.pin k with stuck := true, active := false }).raise 4 (if k = 3 then 0x6003 else 0x6005) 1 k 0
  else s

/-! The rail sequencer (R794 to R796). -/

/-- Nominal mV of a rail and its range in percent (R790). -/
def railNominal (i : Nat) : Nat × Nat :=
  ([(800, 3), (1800, 5), (800, 3), (750, 3), (800, 2), (750, 3), (1800, 3), (1800, 3), (1050, 2), (750, 2), (1200, 2)] : List (Nat × Nat)).getD i (0, 0)

/-- Whether a reading lies in its rail's range (R790). -/
def railRange (i mv : Nat) : Bool :=
  let x := railNominal i
  decide ((100 - x.2) * x.1 ≤ 100 * mv ∧ 100 * mv ≤ (100 + x.2) * x.1)

/-- Rails of a group, whose enable is bit i − 1. -/
def groupRails (g : Nat) : List Nat := if g = 1 then [1, 2] else if g = 2 then [3, 4] else if g ≤ 8 then [g + 2] else []

def groupBits (g : Nat) : BitVec 10 := (groupRails g).foldl (fun w i => w ||| 1#10 <<< (i - 1)) 0

def setRails (s : State) (is : List Nat) (on : Bool) : State :=
  s.onPwr (fun p => { p with rails := is.foldl (fun m i => Sparse.update Rail.off m i (fun r => { r with good := on })) p.rails })

/-- Power-up begins (R794). -/
def powerUp (s : State) : State :=
  if s.pwr.seq = .off ∧ !(s.pin 1).active ∧ !s.pwr.latched ∧ !s.pwr.shutdown then
    (s.setRails [0] true).onPwr (fun p => { p with seq := .rising 1, enables := groupBits 1 })
  else s

/-- The rails of the group under way are in range. -/
def railInRange (s : State) : State :=
  match s.pwr.seq with
  | .rising g =>
    let s := s.setRails (groupRails g) true
    if g = 8 then s.onPwr (fun p => { p with seq := .up })
    else s.onPwr (fun p => { p with seq := .rising (g + 1), enables := p.enables ||| groupBits (g + 1) })
  | _ => s

/-- The group under way has fallen, and the one before it is disabled (R795). (DEDUCED, log entry 115) -/
def railFall (s : State) : State :=
  match s.pwr.seq with
  | .falling g =>
    let s := (s.setRails (groupRails g) false).onPwr (fun p => { p with enables := p.enables &&& ~~~groupBits g })
    if g ≤ 1 then s.onPwr (fun p => { p with seq := .off, enables := 0 })
    else s.onPwr (fun p => { p with seq := .falling (g - 1), enables := p.enables &&& ~~~groupBits (g - 1) })
  | _ => s

/-- A rail fault (R796); ignored while the rails are being removed (R812). (DEDUCED, log entry 115) -/
def railFault (s : State) (i mv : Nat) : State :=
  if i = 0 ∨ 10 < i ∨ !s.pwr.enables.toNat.testBit (i - 1) ∨ s.pwr.seq.isFalling then s
  else
    let log := (s.pwr.aonLog ++ [(i, mv)])
    let s := (s.raise 5 0x7010 i mv 0).coldReset
    (s.onPwr (fun p => { p with aonLog := log.drop (log.length - 4), latched := true })).railsDown

/-- COLD_RST_N (R718, R727, R796). (DEDUCED, log entry 20) -/
def coldPin (s : State) (low : Bool) : State :=
  if low then
    if 850 ≤ s.pwr.logic ∧ s.pwr.shutdown then (s.setPin 0 { s.pin 0 with active := true }).onPwr (fun p => { p with resetHeld := true })
    else
      let t := s.coldReset
      (t.setPin 0 { t.pin 0 with active := true }).onPwr (fun p => { p with shutdown := false })
  else
    let t := s.setPin 0 { s.pin 0 with active := false }
    if (s.pin 0).active then t.onPwr (fun p => { p with latched := false }) else t

/-- PWRGD (R728, R795). -/
def pwrgdPin (s : State) (low : Bool) : State :=
  if low && !(s.pin 1).active then
    let t := (s.raise 5 0x7009 0 0 0).coldReset
    (t.setPin 1 { t.pin 1 with active := true }).railsDown
  else if low then s else s.setPin 1 { s.pin 1 with active := false }

/-- VDD_AON leaves its range (R491, R803): nothing but fuses and flash survives. -/
def aonLoss (s : State) : State :=
  let t := s.coldReset
  { t with clock := FabTime.reset, pwr := { Pwr.reset with running := 0, rails := [], enables := 0, seq := .off } }

end State
end Sys2Proof.Machine
end

