-- ==== Sys2Proof/Machine/ExecCrown.lean ====
section
/-!
DEFINITION. Crown at work: migration, escalations, restarts, re-placement and the commands of Crown (R342 to R368, R738 to R749).
-/
namespace Sys2Proof.Machine
namespace State

/-! Migration (R354 to R356, R749). -/

/-- Whether a virtual page lies in a page set (R272). -/
def inPageSet (s : State) (part vpage : Nat) : Bool :=
  (s.crownPart part).wg.elim false (fun g => g.tensors.any (fun t => t.kind = 2 && decide (t.first ≤ vpage ∧ vpage < t.first + t.pages))) ||
  (List.range 16).any (fun r => (s.region r).ue.table.any (fun t => t.part = part && t.runs.any (fun x => decide (x.1 ≤ vpage ∧ vpage < x.1 + x.2))))

/-- LOCAL pages hot enough to migrate, in descending HEAT, ties to the lower P (R354). -/
def migrants (s : State) : List Nat :=
  let hot := s.mem.prt.filter (fun e =>
    let r := e.2
    let least := if s.crown.lowHeat.contains r.affinity.toNat then 8 else s.regField (ctl 8 0x10) 7 0
    r.valid && decide (r.state.toNat = prtLocal ∧ least ≤ r.heat.toNat ∧ r.affinity.toNat ≠ pageRegion e.1) && !s.ckpt.atRest.toNat.testBit r.part.toNat)
  (List.range 256).reverse.flatMap (fun h => (hot.filter (fun e => e.2.heat.toNat = h)).map Prod.fst)

/-- Registered groups that must move together with a page (R272, R292): the registration, its groups' indices. -/
def groupOf (s : State) (p : Nat) : Option (Registration × List Nat) :=
  let x := s.mem.record p
  let hit (t : Registration) (i : Nat) : Bool := (t.slice (t.first + i) (t.first + i + 1)).runs.any (fun r => decide (r.1 ≤ x.vpage.toNat ∧ x.vpage.toNat < r.1 + r.2))
  (((s.region (pageRegion p)).ue.table.filter (fun t => t.part = x.part.toNat)).findSome? (fun t =>
    ((List.range t.count).find? (hit t)).map (fun i =>
      (t, (List.range t.count).filter (fun k => if t.factored then (t.foff + k) / 16 = (t.foff + i) / 16 else k = i)))))

/-- Whether a command that has begun names one of some groups of a registration: their pages wait for it (R298, R371). (DEDUCED, log entry 65) -/
def groupHeld (u : UpdateEngine) (t : Registration) (ks : List Nat) : Bool :=
  u.window.any (fun c => c.started && decide (c.part = t.part ∧ c.tensor = t.tensor) && ks.any (fun k => decide (c.first ≤ t.first + k ∧ t.first + k < c.first + c.count)))

/-- Pages of groups of a registration. (DEDUCED, log entry 65) -/
def groupPages (s : State) (t : Registration) (ks : List Nat) : List Nat :=
  (ks.flatMap (fun k => (t.slice (t.first + k) (t.first + k + 1)).runs.flatMap (fun r => (List.range r.2).map (r.1 + ·)))).eraseDups.filterMap (fun v => s.mapped t.part v)

/-- Pages of the unit of page groups in which a KIND 2 page that no engine has registered was dealt (R353). -/
def dealtPages (s : State) (part vpage : Nat) : List Nat :=
  match (s.crownPart part).wg with
  | none => []
  | some g =>
    (((tensorRuns g.tensors).filter (fun run => run.any (fun t => t.kind = 2))).findSome? (fun run =>
      ((List.range (ceilDiv (runGroups run) (runUnit run))).map (fun u => (unitPages run u).map Prod.fst)).find? (fun vs => vs.contains vpage))).elim []
      (fun vs => vs.filterMap (fun v => s.mapped part v))

/-- Pages that move with a selected page, and whether it must wait (R272, R298, R354). (DEDUCED, log entry 65) -/
def moveSet (s : State) (p : Nat) : List Nat × Bool :=
  match s.groupOf p with
  | some (t, ks) => (s.groupPages t ks, groupHeld (s.region (pageRegion p)).ue t ks)
  | none =>
    let r := s.mem.record p
    if s.inPageSet r.part.toNat r.vpage.toNat then (s.dealtPages r.part.toNat r.vpage.toNat, false) else ([p], false)

/-- Whether the table of the region that a page goes to has room for its groups (R283). -/
def tableRoom (s : State) (p toward : Nat) : Bool :=
  match s.groupOf p with
  | some (_, ks) => let u := (s.region toward).ue; decide (u.table.length + tableHeld u + ks.length ≤ 1024 ∧ (s.region (pageRegion p)).ue.table.length + 1 ≤ 1024)
  | none => true

/-- A selected page moves, with all that stands with it (R354); one that must wait stays selected (R371), and one whose region is full goes nowhere. (DEDUCED, log entry 65) -/
def migrate (s : State) (p : Nat) : State :=
  let r := s.mem.record p
  let toward := r.affinity.toNat
  if r.state.toNat ≠ prtLocal ∨ pageRegion p = toward ∨ s.ckpt.atRest.toNat.testBit r.part.toNat then s
  else
    let m := s.moveSet p
    let ps := m.1.filter (fun q => pageRegion q ≠ toward)
    if m.2 then s.onCrown (fun c => { c with selected := c.selected ++ [p] })
    else if decide (s.regionFree toward < ps.length) || !s.tableRoom p toward || ps.any (fun q => decide ((s.mem.record q).state.toNat ≠ prtLocal) || s.pinnedPage q) then s
    else ps.foldl (fun s q => s.migrateTo q toward) s

/-- A page group whose pages have all come to another region is that region's engine's, with what it has done of it (R272). -/
def groupFollow (s : State) (r : Nat) (t : Registration) (k h : Nat) : State :=
  let q := t.first + k
  let mine (d : AccDone) : Bool := d.part = t.part && d.tensor = t.tensor && d.group = q
  let u := (s.region r).ue
  (s.onUe r (fun y => { y with
    table := y.table.flatMap (fun z => if z.holds t.part t.tensor q then z.without q (q + 1) else [z]), done := y.done.filter (fun d => !mine d) })).onUe h
    (fun y => { y with table := y.table ++ [t.slice q (q + 1)], done := y.done ++ u.done.filter mine,
                       elems := Sparse.set 0 y.elems (4096 * t.part + t.stream) (max (Sparse.get 0 y.elems (4096 * t.part + t.stream)) (Sparse.get 0 u.elems (4096 * t.part + t.stream))) })

/-- Groups whose pages have all moved are taken over by the engine of their region (R272). -/
def followGroups (s : State) : State :=
  (List.range 16).foldl (fun s r =>
    (s.region r).ue.table.foldl (fun s t =>
      (List.range t.count).foldl (fun s k =>
        let homes := ((t.slice (t.first + k) (t.first + k + 1)).runs.flatMap (fun x => (List.range x.2).map (x.1 + ·))).map (fun v => (s.mapped t.part v).map pageRegion)
        match homes.head? with
        | some (some h) => if h ≠ r ∧ homes.all (fun x => x = some h) = true then s.groupFollow r t k h else s
        | _ => s) s) s) s

/-- A migration's copy is done (R327, R355): one whose source has left MIGRATING is abandoned, and a chain that is full refuses it (R321). -/
def migrateDone (s : State) (k : Nat) : State :=
  match (s.crown.copies.filter (fun c => c.kind = .migrate))[k]? with
  | none => s
  | some c =>
    let r := s.mem.record c.src
    let s' := s.onCrown (fun x => { x with copies := x.copies.erase c })
    if r.state.toNat ≠ prtMigrating then s'.eraseFree c.dst
    else if s.chainFull r.part.toNat r.vpage.toNat (pageHalf c.dst) && decide (pageHalf c.dst ≠ pageHalf c.src) then
      (((s'.raise 9 0x2004 c.dst 0 (pageRegion c.dst)).onMem (fun m => m.onRecord c.src (fun x => { x with state := r.becomes, becomes := 0 }))).eraseFree c.dst)
    else
      let t := s.movePage c.src c.dst r.becomes.toNat
      if t.2 then (t.1.onCrown (fun x => { x with copies := x.copies.erase c })).followGroups else t.1

/-- Pages waiting for retirement whose state lets them go (R749). -/
def retireScan (s : State) : State :=
  s.mem.retireQ.foldl (fun s p =>
    let r := s.mem.record p
    let st := r.state.toNat
    if s.ckpt.atRest.toNat.testBit r.part.toNat then s
    else if st = prtLocal ∨ st = prtPinned then (if (s.moveSet p).2 then s else s.migrateTo p (pageRegion p))
    else if st = prtGuest then s.lendSend (r.affinity.toNat % 8) (.recall r.part.toNat (r.vpage.toNat % 2 ^ 18))
    else s) s

/-- A scan (R354, R356, R369): pages still selected, then the hot ones; its migrations are recorded by source and destination region. (DEDUCED, log entry 65) -/
def migrationScan (s : State) : State :=
  let old := s.crown.copies.length
  let waiting := s.crown.selected
  let s := s.onCrown (fun c => { c with selected := [] })
  let on := (s.reg (ctl 8 0)).toNat.testBit 0
  let s := if on then (waiting ++ s.migrants.filter (fun p => !waiting.contains p)).foldl (fun s p => s.migrate p) s else s
  let started := (s.crown.copies.drop old).map (fun c => (pageRegion c.src, pageRegion c.dst))
  let s := s.onCrown (fun c => { c with lowHeat := [] })
  let s := started.eraseDups.foldl (fun s e => s.place 4 0 0 e.1 e.2 (started.filter (· = e)).length 0) s
  s.retireScan

/-! Errors of cores (R738 to R745). -/

/-- Whether an error is persistent (R739): `hist` are the core's errors within the window, this one the last. -/
def persistent (s : State) (r : Nat) (hist : List CoreError) (code line : Nat) : Bool :=
  let f (hi lo : Nat) : Nat := s.regField (ctl (regionBlock r) 0xA00) hi lo
  let n (cs : List Nat) : Nat := (hist.filter (fun e => cs.contains e.code)).length
  match code with
  | 0x1001 => decide (f 7 0 ≤ n [0x1001])
  | 0x1002 => true
  | 0x1003 => decide (f 15 8 ≤ n [0x1003, 0x1004]) || decide (2 ≤ (hist.filter (fun e => (e.code = 0x1003 ∨ e.code = 0x1004) ∧ e.line = line)).length)
  | 0x1004 => decide (f 15 8 ≤ n [0x1003, 0x1004]) || decide (2 ≤ (hist.filter (fun e => (e.code = 0x1003 ∨ e.code = 0x1004) ∧ e.line = line)).length) ||
      decide (f 19 16 ≤ n [0x1004, 0x1005])
  | 0x1005 => decide (f 19 16 ≤ n [0x1004, 0x1005])
  | _ => false

/-- A persistent error quarantines its core (R740). (DEDUCED, log entry 67) -/
def quarantineCore (s : State) (n : Nat) : State :=
  let c := s.core n
  let s := ({ s with quarMap := s.quarMap ||| 1#512 <<< n }).mapCore n Core.quarantine
  ((s.fenceMover n).raise (regionBlock (n / 32)) 0x1013 n c.ctl.pc c.spec.slotno.toNat).pushEvent 8 [n / 32, n % 32]

/-- The oldest report or escalation of a core reaches its region (R738 to R740). -/
def coreEscalation (s : State) (n : Nat) : State :=
  let c := s.core n
  let r := n / 32
  match c.ctl.escalated with
  | [] => s
  | code :: rest =>
    let s := s.mapCore n (fun c => c.withCtl (fun k => { k with escalated := rest }))
    let report := decide (code = 0x1001 ∨ code = 0x1003)
    let s := if report then s else (s.onRegion r (fun g => { g with errCore := n % 32, errLast := code })).count (ctl (regionBlock r) 0xA10) 1
    let recent := (s.region r).errHist.filter (fun e => s.clock.now ≤ e.time + s.errWindow r)
    let hist := if 0x1001 ≤ code ∧ code ≤ 0x1005 then recent ++ [⟨n, code, c.ctl.errLine, s.clock.now⟩] else recent
    let s := s.onRegion r (fun g => { g with errHist := hist })
    let quar := s.persistent r (hist.filter (fun e => e.core = n)) code c.ctl.errLine && !c.ctl.quar
    let s := if quar then s.quarantineCore n else s
    if report && !quar then s else s.onCrown (fun x => { x with escalations := x.escalations ++ [(n, code, quar)] })

/-- The partition and stream placed on a core. -/
def streamOn (s : State) (n : Nat) : Option (Nat × Placed) :=
  (s.crown.parts.filterMap (fun e => (e.2.placed.find? (fun p => p.core = n)).map (fun p => (e.1, p)))).head?

def streamDecl (s : State) (part stream : Nat) : Option StreamDecl :=
  let cp := s.crownPart part
  cp.wg.bind (fun g => (g.variants.getD cp.variant [])[stream]?)

/-- Whether the slot a core stands in can be run again from its WSLOT (R359, R742). (DEDUCED, log entry 67) -/
def restartable (s : State) (part stream n : Nat) : Bool :=
  let c := s.core n
  c.seenWslot && (match (s.streamDecl part stream).bind (fun d => d.slots[c.spec.slotno.toNat]?) with
    | some x => x.restart && decide (c.ctl.pc < x.close)
    | none => false)

/-- Crown asks for restore, recording its own code where there is one (R362, R369). -/
def restoreFor (s : State) (part code stream slot n : Nat) : State :=
  (if code / 256 = 8 then s.crownRaise code stream n slot else s).crownAsk part code stream slot

/-- A stream fault (R744). (DEDUCED, log entry 67) -/
def streamFault (s : State) (part stream slot code n : Nat) : State :=
  let s := (s.drainCores [part]).setCrownPart part { s.crownPart part with held := true, restarts := [], replaces := [] }
  let i := (s.part part).session
  ((s.raise (regionBlock (n / 32)) 0x1014 n (s.core n).ctl.pc slot).pushEvent 0 [i, part, stream, slot, code]).ownerEvent 0 [i, part, stream, slot, code]

def streamFaultCodes : List Nat :=
  [0x1007, 0x1008, 0x1009, 0x100A, 0x100B, 0x100D, 0x100F, 0x1010, 0x1011, 0x1012, 0x1102, 0x1103, 0x4003]

/-- Crown takes the oldest escalation (R742, R744, R745). One that quarantines a core at a step boundary needs nothing: the variant is chosen anew (R371). -/
def crownEscalation (s : State) : State :=
  match s.crown.escalations with
  | [] => s
  | (n, code, quar) :: rest =>
    let s := s.onCrown (fun x => { x with escalations := rest })
    match s.streamOn n with
    | none => s
    | some (part, p) =>
      let cp := s.crownPart part
      let slot := (s.core n).spec.slotno.toNat
      if streamFaultCodes.contains code then s.streamFault part p.stream slot code n
      else if cp.held ∨ (s.part part).state = .ending then s
      else if quar && cp.placed.all (fun x => x.ended) then s
      else if code = 0x100C then
        if cp.timeout = some (p.stream, slot) then (s.setCrownPart part { cp with timeout := none }).streamFault part p.stream slot code n
        else (s.setCrownPart part { cp with timeout := some (p.stream, slot) }).restoreFor part code p.stream slot n
      else
        let s := s.setCrownPart part { cp with timeout := none }
        let cp := s.crownPart part
        if quar ∨ code = 0x1002 ∨ code = 0x1004 ∨ code = 0x1005 then
          if !s.restartable part p.stream n then s.restoreFor part 0x0805 p.stream slot n
          else if quar then
            s.setCrownPart part { cp with restarts := cp.restarts.filter (fun x => x.1 ≠ p.stream), replaces := cp.replaces ++ [(p.stream, slot)] }
          else s.setCrownPart part { cp with restarts := cp.restarts ++ [(p.stream, slot)] }
        else s.restoreFor part code p.stream slot n

/-- A stream is loaded anew at a slot (R347, R743): counters at zero, what discarded instructions were writing undefined. `before` and `after` are what goes with
it once its image has been read. -/
def reloadAt (s : State) (part stream slot n : Nat) (g : WorkGraph) (d : StreamDecl) (before after : State → State) : State :=
  let go (s : State) (image : Bytes) : State :=
    let s := before s
    let c := s.core n
    let cp := s.crownPart part
    let s := s.freeLines n c.lostLines
    let s := s.loadCore part stream cp.variant slot cp.step n g d image false
    after ((s.freeTiles n c.lostTiles).mapCore n (fun c => { c with cc := [] }))
  s.withRuns part [imageRun d] (fun s => go s []) (fun s b => go s (b.headD []))

/-- An idle usable core for a stream of a core that failed (R360): same region, same die, other die, the lowest number within each. -/
def spareCore (s : State) (n : Nat) : Option Nat :=
  let idle := (List.range 512).filter (fun k => s.coreUsable k && !s.crown.parts.any (fun e => e.2.placed.any (fun p => p.core = k)))
  (idle.filter (fun k => k / 32 = n / 32) ++ idle.filter (fun k => k / 32 ≠ n / 32 ∧ k / 256 = n / 256) ++ idle.filter (fun k => k / 256 ≠ n / 256)).head?

/-- Brim membership moves with a stream (R595). -/
def moveBrim (s : State) (old new : Nat) : State :=
  let s := s.mapCore new (fun c => { c with brim := (s.core old).brim })
  s.onBrim (fun b => { b with
    nodes := b.nodes.map (fun x => { x with members := x.members.map (fun m => if m.1 = old then (new, m.2) else m) }),
    wire := b.wire.map (fun m => match m with
      | .release c k => if c = old then .release new k else m
      | .value c k v => if c = old then .value new k v else m
      | m => m) })

/-- A re-placement (R360 to R362), once the region of the core it takes is awake (R357). -/
def streamReplace (s : State) (part stream : Nat) : State :=
  let cp := s.crownPart part
  match cp.replaces.find? (fun x => x.1 = stream), cp.placed.find? (fun x => x.stream = stream), cp.wg, s.streamDecl part stream with
  | some (_, slot), some p, some g, some d =>
    if s.ckpt.atRest.toNat.testBit part ∨ (s.part part).state = .ending ∨ (s.core p.core).mover ≠ [] then s
    else
      let rest := cp.replaces.filter (fun x => x.1 ≠ stream)
      match s.spareCore p.core with
      | none => (s.setCrownPart part { cp with replaces := rest }).restoreFor part 0x0804 stream slot p.core
      | some k =>
        let up := s.awake [k / 32]
        if !up.2 then up.1
        else s.reloadAt part stream slot k g d
          (fun s => (s.moveBrim p.core k).setCrownPart part { s.crownPart part with
            replaces := rest, placed := (s.crownPart part).placed.map (fun x => if x.stream = stream then { x with core := k } else x) })
          (fun s => s.place 3 part cp.step stream p.core k slot)
  | _, _, _, _ => s

/-- A restart on the same core (R743). -/
def slotRestart (s : State) (part stream : Nat) : State :=
  let cp := s.crownPart part
  match cp.restarts.find? (fun x => x.1 = stream), cp.placed.find? (fun x => x.stream = stream), cp.wg, s.streamDecl part stream with
  | some (_, slot), some p, some g, some d =>
    if (s.core p.core).ctl.run ≠ .stopped ∨ (s.core p.core).mover ≠ [] ∨ (s.part part).state = .ending then s
    else s.reloadAt part stream slot p.core g d (fun s => s.setCrownPart part { s.crownPart part with restarts := cp.restarts.filter (fun x => x.1 ≠ stream) }) id
  | _, _, _, _ => s

/-- A slot that is no SUBMIT (R342, R343): a WITHDRAW waits for its moment; with no work graph it completes with no change. (DEDUCED, log entry 66) -/
def withdraw (s : State) (part off : Nat) (bs : Bytes) : State :=
  let cp := s.crownPart part
  if field_ bs 0 1 ≠ 2 ∨ field_ bs 1 3 ≠ 0 ∨ field_ bs 24 24 ≠ 0 then s.crownRefuse part off 0x0802 bs
  else if cp.wg.isNone then s.crownDone part off 0 bs
  else
    let s := s.crownConsume part
    s.setCrownPart part { s.crownPart part with withdraw := some (off, field_ bs 48 8) }

end State

/-! The partition's Crown ring (R342 to R352). -/

/-- SUBMIT (R345): `rings` are the command rings that Crown sets for the partition (R275, R537, R606). -/
def execSubmit (part : BitVec 5) (rings : List (Nat × Nat × Nat)) (s : State) : Host.Outcome State Fault Refusal :=
  liveEng s (fun s =>
    let t := s.crownSlot part.toNat
    match t.2 with
    | some (off, bs) => if field_ bs 0 1 = 1 ∧ (s.crownPart part.toNat).withdraw = none then t.1.submit part.toNat off bs rings else t.1
    | none => t.1)

/-- WITHDRAW (R343); a slot of no defined operation is refused here as well (R342). -/
def execWithdraw (part : BitVec 5) (s : State) : Host.Outcome State Fault Refusal :=
  liveEng s (fun s =>
    let t := s.crownSlot part.toNat
    match t.2 with
    | some (off, bs) => if field_ bs 0 1 = 1 ∨ (s.crownPart part.toNat).withdraw.isSome = true then t.1 else t.1.withdraw part.toNat off bs
    | none => t.1)

/-- WITHDRAW_TAKE_EFFECT (R343). -/
def execWithdrawTakeEffect (part : BitVec 5) (s : State) : Host.Outcome State Fault Refusal := liveEng s (fun s => s.withdrawNow part.toNat)

/-- CROWN_STEP_BOUNDARY (R352). -/
def execCrownStepBoundary (part : BitVec 5) (s : State) : Host.Outcome State Fault Refusal := liveEng s (fun s => s.stepBoundary part.toNat)

/-- MIGRATION_SCAN (R354). -/
def execMigrationScan (s : State) : Host.Outcome State Fault Refusal := liveEng s (fun s => s.migrationScan)

/-- MIGRATION_COPY_DONE (R355): of the `k`th migration under way. -/
def execMigrationCopyDone (k : Nat) (s : State) : Host.Outcome State Fault Refusal := liveEng s (fun s => s.migrateDone k)

/-- REGION_SLEEP (R357). -/
def execRegionSleep (rg : BitVec 4) (s : State) : Host.Outcome State Fault Refusal :=
  liveEng s (fun s => if (s.reg (ctl 8 0)).toNat.testBit 2 then s.regionSleep rg.toNat else s)

/-- REGION_SLEEP_ENTRY_DONE (R721). -/
def execRegionSleepEntryDone (rg : BitVec 4) (s : State) : Host.Outcome State Fault Refusal := liveEng s (fun s => s.sleepDone rg.toNat)

/-- REGION_WAKE (R357, R358): a region, or one core of it. -/
def execRegionWake (rg : BitVec 4) (core : Option (Fin 32)) (s : State) : Host.Outcome State Fault Refusal :=
  liveEng s (fun s => s.wake rg.toNat (core.map Fin.val))

/-- REGION_WAKE_DONE (R357): after `ns` nanoseconds. -/
def execRegionWakeDone (rg : BitVec 4) (ns : Nat) (s : State) : Host.Outcome State Fault Refusal := liveEng s (fun s => s.wakeDone rg.toNat ns)

/-- CORE_ESCALATION (R738 to R740). -/
def execCoreEscalation (cr : BitVec 9) (s : State) : Host.Outcome State Fault Refusal := liveEng s (fun s => s.coreEscalation cr.toNat)

/-- CROWN_ESCALATION_RECEIVE (R742 to R745). -/
def execCrownEscalationReceive (s : State) : Host.Outcome State Fault Refusal := liveEng s (fun s => s.crownEscalation)

/-- STREAM_REPLACE (R360). -/
def execStreamReplace (part : BitVec 5) (stream : Nat) (s : State) : Host.Outcome State Fault Refusal := liveEng s (fun s => s.streamReplace part.toNat stream)

/-- SLOT_RESTART (R743). -/
def execSlotRestart (part : BitVec 5) (stream : Nat) (s : State) : Host.Outcome State Fault Refusal := liveEng s (fun s => s.slotRestart part.toNat stream)

/-- BORROW (R363). -/
def execBorrow (s : State) : Host.Outcome State Fault Refusal := liveEng s (fun s => s.borrow)

/-- LOAN_COPY_DONE (R365): of the `k`th page on its way to a lender. -/
def execLoanCopyDone (k : Nat) (s : State) : Host.Outcome State Fault Refusal := liveEng s (fun s => s.loanDone k)

/-- RECALL (R367). -/
def execRecall (s : State) : Host.Outcome State Fault Refusal := liveEng s (fun s => s.recallLoan)

/-- RECALL_COPY_DONE (R367): of the `k`th page on its way back. -/
def execRecallCopyDone (k : Nat) (s : State) : Host.Outcome State Fault Refusal := liveEng s (fun s => s.recallDone k)

/-- CROWN_STALL (R748). -/
def execCrownStall (s : State) : Host.Outcome State Fault Refusal := liveEng s (fun s => s.beginHalt 8 0x080A 0 0 0)

end Sys2Proof.Machine
end

