-- ==== Sys2Proof/Machine/Boot.lean ====
section
/-!
DEFINITION. Cold boot: the Start Image, the protection set-up, bring-up and ready (R637 to R654).
-/
namespace Sys2Proof.Machine

/-- Flash offsets (R641). -/
def imageBase (slot : Nat) : Nat := 0x00100000 + slot * 0x02000000
def imageMax : Nat := 33554432

def allZero (bs : Bytes) : Bool := bs.all (· = 0)

/-- Items of a part (R644): type, offset, size. -/
def itemTable (part : Bytes) : List (Nat × Nat × Nat) :=
  (List.range (field_ part 0 4)).map (fun i => (field_ part (8 + 16 * i) 2, field_ part (12 + 16 * i) 4, field_ part (16 + 16 * i) 4))

def itemBytes (part : Bytes) (type : Nat) : Option Bytes :=
  ((itemTable part).find? (fun e => e.1 = type)).map (fun e => (part.drop e.2.1).take e.2.2)

/-- An item table in form, with the items required (R644). -/
def itemsOk (part : Bytes) (required : List Nat) : Bool :=
  let n := field_ part 0 4
  decide (8 + 16 * n ≤ part.length ∧ field_ part 4 4 = 0) &&
  (List.range n).all (fun i => decide (field_ part (10 + 16 * i) 2 = 0 ∧ field_ part (20 + 16 * i) 4 = 0)) &&
  (itemTable part).all (fun e => decide (e.2.1 + e.2.2 ≤ part.length)) && apart ((itemTable part).map Prod.snd) &&
  required.all (fun t => (itemTable part).any (fun e => e.1 = t))

/-- Entries of a chip map (R649): digest and chip number. -/
def chipMap (b : Bytes) : List (Bytes × Nat) :=
  (List.range (field_ b 0 4)).map (fun i => ((b.drop (8 + 56 * i)).take 48, field_ b (56 + 56 * i) 2))

/-- DEDUCED, log entry 100. -/
def chipMapOk (b : Bytes) : Bool :=
  let n := field_ b 0 4
  let m := chipMap b
  decide (8 + 56 * n ≤ b.length ∧ field_ b 4 4 = 0) && (List.range n).all (fun i => decide (field_ b (58 + 56 * i) 6 = 0)) &&
  falling (m.map (fun e => beNat e.1)).reverse && m.all (fun e => decide (e.2 ≤ 8191)) && decide ((m.map Prod.snd).eraseDups.length = n)

/-- A protection record in form (R648). -/
def protOk (b : Bytes) : Bool :=
  let p := field_ b 12 4
  decide (b.length = 128 ∧ 32768 ≤ field_ b 0 4 ∧ field_ b 0 4 ≤ 262144 ∧ field_ b 4 4 ≤ 1 ∧ field_ b 8 4 ≤ 1 ∧ p < 2 ^ 9) &&
  decide (1 ≤ bitsNat p 4 0 ∧ bitsNat p 4 0 ≤ 16) && (p.testBit 7 || p.testBit 8) && allZero (b.drop 64)

/-- A Start Image as read from its slot (R643): header and the two parts. -/
structure Image where
  head : Bytes
  kearnef : Bytes
  integrator : Bytes

def Image.svn (x : Image) : Nat := field_ x.head 6 1
def Image.commit (x : Image) : Bool := (field_ x.head 7 1).testBit 0
def Image.prot (x : Image) : Bytes := (itemBytes x.integrator 0x10).getD []
def Image.map (x : Image) : Bytes := (itemBytes x.integrator 0x11).getD []

/-- Header checks (R643, R645). -/
def headOk (h : Bytes) : Bool :=
  let total := field_ h 28 4
  decide (field_ h 0 4 = 0x4D49534B ∧ field_ h 4 2 = 0x0100 ∧ field_ h 6 1 ≤ 64 ∧ field_ h 7 1 ≤ 1 ∧ field_ h 8 2 = 0x5120 ∧ field_ h 10 1 = 0xB1 ∧ field_ h 11 1 = 0) &&
  decide (total ≤ imageMax ∧ field_ h 12 4 + field_ h 16 4 ≤ total ∧ field_ h 20 4 + field_ h 24 4 ≤ total) && allZero (h.drop 321)

namespace State

def flashAt (s : State) (off n : Nat) : Bytes := Sparse.getRun 0xFF s.boot.flash off n

/-- Bytes written to flash; erased bytes are not listed. -/
def flashWrite (s : State) (off : Nat) (bs : Bytes) : State := { s with boot := { s.boot with flash := Sparse.setRun 0xFF s.boot.flash off bs } }

/-- A selection record (R641): its counter and slot, where it is valid. (DEDUCED, log entry 100) -/
def selection (s : State) (copy : Nat) : Option (Nat × Nat) :=
  let b := s.flashAt (0x1000 * copy) 64
  if field_ b 0 4 = 0x4C45534B ∧ field_ b 4 1 ≤ 1 ∧ field_ b 5 3 = 0 ∧ allZero ((b.drop 12).take 48) = true ∧ field_ b 60 4 = crc32 (b.take 60) then some (field_ b 8 4, field_ b 4 1)
  else none

/-- The slot to boot (R642). (DEDUCED, log entry 100) -/
def bootSlot (s : State) : Nat :=
  match s.selection 0, s.selection 1 with
  | some a, some b => if a.1 < b.1 then b.2 else a.2
  | some a, none => a.2
  | none, some b => b.2
  | none, none => 0

/-- The image in a slot; its parts are read where its header is in form. -/
def readImage (s : State) (slot : Nat) : Image :=
  let h := s.flashAt (imageBase slot) 4096
  if headOk h then ⟨h, s.flashAt (imageBase slot + field_ h 12 4) (field_ h 16 4), s.flashAt (imageBase slot + field_ h 20 4) (field_ h 24 4)⟩
  else ⟨h, [], []⟩

/-- The checks of a slot in their order (R645): the code of the first that fails. (DEDUCED, log entry 100) -/
def imageCode (s : State) (b : BootFacts) (slot : Nat) : Option Nat :=
  let x := s.readImage slot
  if b.unread.toNat.testBit slot then some 0x0101
  else if !headOk x.head || !itemsOk x.kearnef [1, 2, 3] || !itemsOk x.integrator [0x10, 0x11] || !chipMapOk x.map then some 0x0102
  else if !b.kSig.toNat.testBit slot then some 0x0103
  else if !b.iSig.toNat.testBit slot then some 0x0104
  else if x.svn < s.keys.svnFuses then some 0x0105
  else if !protOk x.prot then some 0x0107
  else if !(chipMap x.map).any (fun e => e.1 = b.own) then some 0x0106
  else none

def onBoot (s : State) (f : Boot → Boot) : State := { s with boot := f s.boot }

/-- A change of PHASE raises vector 0 (R655). -/
def setPhase (s : State) (n : Nat) : State := (s.onBoot (fun b => { b with phase := n })).msi 0

/-- A boot code (R822). -/
def bootRaise (s : State) (code slot a1 : Nat) : State := s.raise 0 code slot a1 s.boot.phase

/-- Boot stops (R653): the always-on domain and management keep running, and the endpoint for its reads of GLOBAL. (DEDUCED, log entry 102) -/
def bootStop (s : State) (code slot a1 : Nat) : State :=
  let s := (s.bootRaise code slot a1).setPhase 6
  ({ s with keySlots := [], d2d := [], keys := { s.keys with slotKeys := [], store := [], flipped := [], storeFlipped := [], control := 0 }, host := { s.host with ideSecure := false } }).onPwr (fun p =>
    { p with running := dbit 1 ||| dbit 2 ||| dbit 3 ||| dbit 25, seams := dbit 2 ||| dbit 3 ||| dbit 25, starting := 0, stopping := 0, pllPend := 0 })

/-- Measurements 1 to 6 of the image that starts (R434, R646), and the first secret of DICE (R432). (DEDUCED, log entry 70) -/
def measure (s : State) (x : Image) : State :=
  let rom := (List.range 48).map Config.romByte
  let m : List (Nat × Bytes) := [(1, rom), (2, sha384 x.kearnef), (3, sha384 ((x.head.drop 32).take 97 ++ x.integrator)),
    (4, sha384 ((itemBytes x.kearnef 1).getD [])), (5, sha384 ((itemBytes x.kearnef 2).getD [])), (6, sha384 x.prot)]
  s.onBoot (fun b => { b with measures := m, cdi := [hmac384 b.uds rom] })

/-- Measurement 7, of the fuse state, taken after any commit (R646), and the second secret of DICE (R432). (DEDUCED, log entry 70) -/
def measureFuses (s : State) (x : Image) : State :=
  let m := (List.range 48).map (Config.fuseByte s.keys.svnFuses s.boot.fused ((field_ x.prot 8 4).testBit 0))
  s.onBoot (fun b =>
    let ms := b.measures ++ [(7, m)]
    { b with measures := ms, cdi := b.cdi ++ [hmac384 (b.cdi.headD []) ((ms.drop 1).flatMap Prod.snd)] })

/-- The PROT registers are written and locked, and this chip's number is set (R648, R649). -/
def protect (s : State) (x : Image) (own : Bytes) : State :=
  let w (o : Nat) : BitVec 32 := BitVec.ofNat 32 (field_ x.prot o 4)
  let s := (((s.setReg (ctl 1 4) (w 0)).setReg (ctl 1 8) (w 4)).setReg (ctl 1 0xC) (w 8)).setReg (ctl 1 0x10) (w 12)
  let s := (List.range 12).foldl (fun s i => s.setReg (ctl 1 (0x40 + 4 * i)) (w (16 + 4 * i))) s
  let chip := (((chipMap x.map).find? (fun e => e.1 = own)).map Prod.snd).getD 0
  ((s.setReg (ctl 1 0) 1).setReg (ctl 0x000E 0) (BitVec.ofNat 32 chip)).setPhase 2

/-- SMD draws the keys of the control path, and the salt of each direction of each die-to-die edge (R26, R402). (DESIGN CHOICE, log entry 140) -/
def bringKeys (s : State) : State :=
  let s := { s with keys := { s.keys with control := s.free + 1 }, free := s.free + keyBytes }
  (List.range 6).foldl (fun s n =>
    { s with d2d := Sparse.update D2d.reset s.d2d n (fun d => { d with up := true, salt := s.free + 1 }), free := s.free + keyBytes }) s

/-- The dies run: fixed domains, die-to-die edges keyed for partition 0, its keys in the Cuffs (R387, R427, R638). (DESIGN CHOICE, log entry 116) -/
def bringDies (s : State) : State :=
  let s := s.onPwr (fun p => { p with running := p.running ||| fixedDomains, seams := p.seams ||| (fixedDomains &&& ~~~dbit 1),
                                      freq := [(1, 25), (2, 400), (3, 125), (20, 1600), (21, 1600), (22, 732), (23, 732), (24, 1500), (25, 1000)] })
  (s.bringKeys.setChipSlots 1 true).setPhase 3

/-- One channel's BIST has found so many failing rows (R772): repaired with the spares that are left of its 64, else the channel fails and its region is
held down. (DEDUCED, log entry 121) -/
def bistChannel (s : State) (r c rows : Nat) : State :=
  let onTest (s : State) (f : RegTest → RegTest) : State := { s with test := { s.test with regions := Sparse.update RegTest.reset s.test.regions r f } }
  let used := Sparse.get 0 (Sparse.get RegTest.reset s.test.regions r).rows c
  if rows = 0 ∨ 16 ≤ r ∨ 16 ≤ c then s
  else if used + rows ≤ 64 then onTest s (fun t => { t with rows := Sparse.set 0 t.rows c (used + rows) })
  else ((onTest s (fun t => { t with bistFail := t.bistFail ||| 1#16 <<< c })).raise (regionBlock r) 0x200C c 0 r).holdRegion r 0x200C

/-- A BIST of every channel (R771, R772). -/
def bist (s : State) (rows : List (Nat × Nat × Nat)) : State := rows.foldl (fun s x => s.bistChannel x.1 x.2.1 x.2.2) s

/-- Stacks and channels that fail are held down (R652, R771, R772). -/
def bringStacks (s : State) (slot : Nat) (b : BootFacts) : State :=
  let s := (List.range 8).foldl (fun s k =>
    if b.dramStacks.toNat.testBit k then
      let s := (s.holdRegion (2 * k) 0x0109).holdRegion (2 * k + 1) 0x0109
      s.bootRaise 0x0109 slot s.boot.held.toNat
    else s) s
  s.bist b.rows

/-- The quarantine map as it stands in flash at 0x0420_0000 (R741): 512 bits and their CRC-32. -/
def quarImage (s : State) : Bytes := leBytes 64 s.quarMap.toNat ++ leBytes 4 (crc32 (leBytes 64 s.quarMap.toNat))

/-- A page of partition 0 that boot maps pinned, with the zero-fill of every mapping (R315, R327). (DEDUCED, log entry 101) -/
def bootPage (s : State) (vpage r : Nat) : State := ((MapRun.start s).single 0 vpage r prtPinned none).finish s

/-- Page tables cleared, partition 0 open, the ingest rings mapped over the usable regions, quarantines of earlier boots set (R318, R327, R416, R662, R741). (DEDUCED, log entry 101) -/
def bringMemory (s : State) : State :=
  let d := s.drawBytes 8
  let s := d.2.onMem (fun m => { m with dram := [], prt := [], salt := BitVec.ofNat 64 (leNat d.1) })
  let s := s.setPart 0 { Partition.free with state := .open_, gen := 1 }
  let regions := (List.range 16).filter s.regionUsable
  let s := (List.range 16384).foldl (fun s k => s.bootPage k (regions.getD (k % regions.length) 0)) s
  (List.range 512).foldl (fun s n => if s.quarMap.toNat.testBit n then s.mapCore n (fun c => c.withCtl (fun k => { k with quar := true, run := .quarantined })) else s) s

/-- The boot with a slot whose checks pass. (DESIGN CHOICE, log entry 99) -/
def bootWith (s : State) (slot : Nat) (b : BootFacts) : State :=
  let x := s.readImage slot
  let s := s.onBoot (fun k => { k with slot := slot })
  let commit := x.commit && (field_ x.prot 4 4).testBit 0 && decide (s.keys.svnFuses < x.svn)
  let s := (s.measure x).planLoad b.planBad
  if commit && !b.fuseOk then s.bootStop 0x010D slot s.keys.svnFuses
  else
    let s := if commit then { s with keys := { s.keys with svnFuses := x.svn } } else s
    let s := ((s.measureFuses x).protect x b.own).bringDies
    match b.edge with
    | some e => s.bootStop 0x010A slot e
    | none =>
      let s := (s.setPhase 4).bringStacks slot b
      if s.boot.held = BitVec.allOnes 16 then s.bootStop 0x0109 slot s.boot.held.toNat else s.bringMemory

/-- Cold reset is released with every rail in range (R638). (DESIGN CHOICE, log entries 15 and 99) -/
def coldBoot (s : State) (b : BootFacts) : State :=
  if s.boot.phase ≠ 0 ∨ s.boot.measures ≠ [] ∨ s.pwr.seq ≠ .up ∨ (s.pin 0).active ∨ (s.pin 1).active then s
  else
    let s := { s with keys := { s.keys with boots := s.keys.boots + 1 } }
    let s := s.onBoot (fun k => { k with deviceId := b.own, flashMode := 1, flashMhz := min b.mhz 200, sfdp := true })
    let log := s.pwr.aonLog
    let s := log.foldl (fun s e => s.raise 5 0x7010 e.1 e.2 0) (s.onPwr (fun p => { p with aonLog := [], running := dbit 1 ||| dbit 2 ||| dbit 3 ||| dbit 25, seams := dbit 2 ||| dbit 3 ||| dbit 25 }))
    let s := s.setPhase 1
    let first := s.bootSlot
    match s.imageCode b first with
    | none => s.bootWith first b
    | some code =>
      let s := ((s.bootRaise code first (imageBase first)).bootRaise 0x0108 first (imageBase first)).onBoot (fun k => { k with fallback := true })
      match s.imageCode b (1 - first) with
      | none => s.bootWith (1 - first) b
      | some c => s.bootStop c (1 - first) (imageBase (1 - first))

/-- Crown runs (R275, R638, R654): partition 0's command rings are placed, the engines enabled. (DESIGN CHOICE, log entries 15 and 99; DEDUCED, log entry 102) -/
def bootReady (s : State) (rings : List (Nat × Nat × Nat)) : State :=
  if s.boot.phase ≠ 4 then s
  else
    let s := rings.foldl (fun s r => (List.range (ceilDiv (64 * r.2.2) pageSize)).foldl (fun s k =>
      if (s.mapped 0 (r.2.1 + k)).isSome then s else s.bootPage (r.2.1 + k) (if r.1 < 16 then r.1 else 0)) s) s
    let s := s.setRings 0 rings
    let s := (List.range 16).foldl (fun s r => if s.regionUsable r then s.onRegion r (fun g => { g with ue := { g.ue with enable := g.ue.enable || decide (g.ue.state ≠ 4) } }) else s) s
    (s.onBoot (fun k => { k with ready := true })).setPhase 5

/-- READY has not come in time (R652). -/
def bootTimeout (s : State) : State :=
  if s.boot.ready ∨ s.boot.phase = 6 then s else s.bootStop 0x010C s.boot.slot 0

end State
end Sys2Proof.Machine
end

