-- ==== Sys2Proof/Machine/ExecHost.lean ====
section
/-!
DEFINITION. Commands of boot and of the host port (R637 to R676).
-/
namespace Sys2Proof.Machine
namespace State

/-! Restore records (R674). -/

/-- Positions of this chip in the ring tables of a session's lead partition (R535). (DEDUCED, log entry 98) -/
def ownPositions (s : State) (i lead : Nat) : List (Nat × Nat) :=
  ((s.session i).charter.elim [] Charter.rings).filterMap (fun t =>
    if t.part = lead then (t.chips.findIdx? (· = s.chip)).map (fun k => (k / t.width, k % t.width)) else none)

/-- Whether a restore record is good. (DEDUCED, log entry 98) -/
def restoreOk (s : State) (i lead : Nat) (h : RecHeader) (payload : Bytes) : Bool :=
  let y := s.session i
  let base := buddyVp 0 * pageSize
  let id := y.charter.bind Charter.restore
  let own := s.ownPositions i lead
  decide (y.state = .keying) && id.isSome && (s.mapped lead (buddyVp 0)).isSome && decide (h.dir = 2 ∧ h.owner = 0xFF ∧ h.part = lead) &&
  decide (h.dest % pageSize = 0 ∧ base ≤ h.dest ∧ h.dest + h.len ≤ base + 0x01000000 * pageSize) &&
  (decide (h.dest ≠ base) || (id == some ((payload.drop 16).take 16) && (own.isEmpty || own.contains (field_ payload 6 2, field_ payload 8 1))))

/-- The pages of the buddy slot that a restore record needs and that are not mapped are mapped (R609). (DEDUCED, log entry 98) -/
def restoreMap (s : State) (lead dest n : Nat) : State :=
  ((List.range (ceilDiv n pageSize)).foldl (fun (m : MapRun) k =>
    if m.good then keepOrMap m lead (dest / pageSize + k) ((dest / pageSize + k) % 16) true else m) (MapRun.start s)).finish s

/-- The payload is written in lines, page by page, the last line filled up with zeros; none where a page must be waited for or had. -/
def restoreWrite (s : State) (lead dest : Nat) (bs : Bytes) : Option State :=
  (List.range (ceilDiv bs.length pageSize)).foldl (fun acc k => acc.bind (fun s =>
    let piece := (bs.drop (k * pageSize)).take pageSize
    let t := s.access .ckpt lead (dest / pageSize + k) true
    match t.2 with
    | .served p => (t.1.lineWrite p 0 (piece ++ List.replicate ((64 - piece.length % 64) % 64) 0)).map (fun s => s.heat .ckpt p (ceilDiv piece.length 64))
    | _ => none)) (some s)

/-- One restore record (R665, R674). (DEDUCED, log entry 98) -/
def restoreRecord (s : State) (i : Nat) (header payload : Bytes) : State :=
  let h := recHeader header
  if !s.ringOpen i || decide (h.magic ≠ magicRestore) then s
  else match s.recordAt i h with
    | none => (s.setRing i { s.ingRing i with stopped := true }).hostRaise 0x0203 i i
    | some size =>
      let bs := (payload ++ List.replicate h.len 0).take h.len
      match s.leadPart i with
      | some lead =>
        if s.restoreOk i lead h bs then
          let s := s.restoreMap lead h.dest bs.length
          match s.restoreWrite lead h.dest bs with
          | some s => s.advanceHead i size true
          | none => s
        else (s.hostRaise 0x020B i i).advanceHead i size false
      | none => (s.hostRaise 0x020B i i).advanceHead i size false

/-! Writes of HOST registers (R661, R664, R665, R667). -/

/-- DEDUCED, log entry 134. -/
def doorbell (s : State) (i : Nat) (who : Writer) (v : BitVec 32) : State :=
  let a := ctl 2 (0x104 + 0x20 * i)
  s.hostWrite who a true (fun s =>
    if (s.ingRing i).stopped || decide (v.toNat % 64 ≠ 0 ∨ 2 ^ 25 ≤ v.toNat) then s.refuse who a 0x0202 else s.setReg a v)

def ringReset (s : State) (i : Nat) (who : Writer) : State :=
  s.hostWrite who (ctl 2 (0x100 + 0x20 * i)) false (fun s =>
    (s.setRing i { s.ingRing i with head := 0, stopped := false, since := 0 }).setReg (ctl 2 (0x104 + 0x20 * i)) 0)

/-- EGR_HEAD moves within the span from HEAD to TAIL. -/
def egressHead (s : State) (who : Writer) (v : BitVec 32) : State :=
  let a := ctl 2 0x20C
  s.hostWrite who a false (fun s =>
    if v.toNat % 64 ≠ 0 ∨ 2 ^ 30 ≤ v.toNat ∨ s.egrSize ≤ v.toNat ∨ s.egrUsed < (v.toNat + s.egrSize - s.egrHead) % s.egrSize then s.refuse who a 0x0202
    else s.setReg a v)

def werrClear (s : State) (who : Writer) : State := s.hostWrite who (ctl 2 0x10) false (fun s => { s with werr := none })

/-! The link and IDE (R655, R657, R675). -/

/-- DEDUCED, log entry 104. -/
def linkUp (s : State) (speed width : Nat) (flit : Bool) : State :=
  if !hasBit s.pwr.running 25 || (s.pin 2).active || s.test.opened || s.test.bscan then s
  else if 1 ≤ speed ∧ speed ≤ 6 ∧ (width = 4 ∨ width = 8 ∨ width = 16) then s.onHost (fun h => { h with speed := speed, width := width, flit := flit }) else s

/-- A key set of the IDE stream is programmed in its slot, or put in use. -/
def ideKm (s : State) (sec : Nat) (set : Bool) (go : Bool) : State :=
  if !(s.keys.secure.any (fun x => x.id = sec && x.finished && decide (x.transport = 1))) || decide (s.host.speed = 0) then s
  else if !go then s.setSlot 58 (b2n set) true
  else if !(s.takeSlot 58 (b2n set) 0 0).2 then (s.takeSlot 58 (b2n set) 0 0).1
  else if (Sparse.get (0 : BitVec 64) s.keySlots 58).toNat.testBit (b2n set) then s.onHost (fun h => { h with ideSecure := true, keyset := set })
  else s

end State

/-- INGEST_RECORD (R438, R439, R665): header, payload and tag that stand at HEAD of a ring. -/
def execIngestRecord (ring : Fin 8) (header payload tag : List (BitVec 8)) (s : State) : Host.Outcome State Fault Refusal :=
  liveEng s (fun s => s.ingest ring header payload tag)

/-- RESTORE_RECORD (R674). -/
def execRestoreRecord (ring : Fin 8) (header payload : List (BitVec 8)) (s : State) : Host.Outcome State Fault Refusal :=
  liveEng s (fun s => s.restoreRecord ring header payload)

/-- EGRESS_POST (R667, R668). -/
def execEgressPost (s : State) : Host.Outcome State Fault Refusal := liveEng s (fun s => s.egressPost)

/-- EGR_FULL (R669). -/
def execEgrFull (cr : BitVec 9) (slot : BitVec 6) (s : State) : Host.Outcome State Fault Refusal := liveEng s (fun s => s.egrFull cr.toNat slot.toNat)

/-- COLD_BOOT (R638 to R652). -/
def execColdBoot (b : BootFacts) (s : State) : Host.Outcome State Fault Refusal := live s (fun s => s.coldBoot b)

/-- BOOT_READY (R654): `rings` are those of partition 0 (R275), as in SUBMIT. -/
def execBootReady (rings : List (Nat × Nat × Nat)) (s : State) : Host.Outcome State Fault Refusal := live s (fun s => s.bootReady rings)

/-- BOOT_TIMEOUT (R652, R653). -/
def execBootTimeout (s : State) : Host.Outcome State Fault Refusal := live s (fun s => s.bootTimeout)

/-- INGEST_DOORBELL (R654, R664). -/
def execIngestDoorbell (ring : Fin 8) (who : Writer) (value : BitVec 32) (s : State) : Host.Outcome State Fault Refusal :=
  live s (fun s => s.doorbell ring who value)

/-- INGEST_RING_RESET (R665). -/
def execIngestRingReset (ring : Fin 8) (who : Writer) (s : State) : Host.Outcome State Fault Refusal := live s (fun s => s.ringReset ring who)

/-- EGRESS_HEAD_WRITE (R667). -/
def execEgressHeadWrite (who : Writer) (value : BitVec 32) (s : State) : Host.Outcome State Fault Refusal := live s (fun s => s.egressHead who value)

/-- WERR_CLEAR (R661). -/
def execWerrClear (who : Writer) (s : State) : Host.Outcome State Fault Refusal := live s (fun s => s.werrClear who)

/-- PCIE_RESET (R675). -/
def execPcieReset (s : State) : Host.Outcome State Fault Refusal := live s (fun s => s.pcieReset)

/-- IDE_INTEGRITY (R658). -/
def execIdeIntegrity (s : State) : Host.Outcome State Fault Refusal := live s (fun s => s.ideFails)

/-- IDE_KM (R657): programs a key set of the stream, or with `go` puts it in use. -/
def execIdeKm (sec : Nat) (set : Bool) (go : Bool) (s : State) : Host.Outcome State Fault Refusal := live s (fun s => s.ideKm sec set go)

/-- PCIE_LINK_UP (R655, R675). -/
def execPcieLinkUp (speed width : Nat) (flit : Bool) (s : State) : Host.Outcome State Fault Refusal := live s (fun s => s.linkUp speed width flit)

/-- PCIE_LOOPBACK_FOLLOWER (R770): the link leaves its work as in a link disable. -/
def execPcieLoopbackFollower (s : State) : Host.Outcome State Fault Refusal := live s (fun s => s.pcieReset)

end Sys2Proof.Machine
end

