-- ==== Sys2Proof/Machine/ExecKeys.lean ====
section
/-!
DEFINITION. Commands of the Charter, the SPDM responder, owners' requests, rotation and teardown (R426 to R462).
-/
namespace Sys2Proof.Machine
namespace State

/-! The SPDM responder (R433, R434). -/

def spdmConn (s : State) (t : Nat) : SpdmConn := (s.keys.conns.find? (fun c => c.transport = t)).getD ⟨t, false, false, false⟩

def setSpdm (s : State) (c : SpdmConn) : State :=
  { s with keys := { s.keys with conns := s.keys.conns.filter (fun x => x.transport ≠ c.transport) ++ [c] } }

/-- After a halt the PCIe transport is gone (R408). -/
def spdmLive (s : State) (t : Nat) (f : State → State) : Host.Outcome State Fault Refusal :=
  if s.halt.isSome && decide (t = 1) then ok s else ok (f s)

/-- A request that needs the negotiation done. (PRESUMED, log entry 68) -/
def spdmAsk (s : State) (t request : Nat) (good : Bool) (body : List Nat) : State :=
  if (s.spdmConn t).algs && good then s.emit (.spdm t request false body) else s.emit (.spdm t request true [])

/-- Measurement blocks (R429, R434). (DEDUCED, log entry 70) -/
def measurement (s : State) (i : Nat) : Option Bytes :=
  if i = 8 then some (leBytes 4 (0xB1 + 0x5120 * 2 ^ 8))
  else if 1 ≤ i ∧ i ≤ 7 then some ((assocGet s.boot.measures i).getD (List.replicate 48 0))
  else if 32 ≤ i ∧ i ≤ 39 then some (((s.session (i - 32)).charter.map Charter.digest).getD (List.replicate 48 0))
  else none

def measureList : List Nat := [1, 2, 3, 4, 5, 6, 7, 8, 32, 33, 34, 35, 36, 37, 38, 39]

/-- GET_MEASUREMENTS: 0 asks for the count, 255 for all. -/
def measureReply (s : State) (i : Nat) : Option (List Nat) :=
  if i = 0 then some [measureList.length]
  else if i = 255 then some (measureList.flatMap (fun k => k :: ((s.measurement k).getD []).map BitVec.toNat))
  else (s.measurement i).map (fun b => i :: b.map BitVec.toNat)

/-- KEY_EXCHANGE: at most 32 secure sessions are kept (R433), one of them the BMC's (R701). (DESIGN CHOICE, log entries 69 and 90) -/
def keyExchange (s : State) (t : Nat) : State :=
  if (s.spdmConn t).algs && decide (s.keys.secure.length < 32) && !(decide (t = 2) && s.keys.secure.any (fun x => x.transport = 2)) then
    let n := s.keys.nextSecure
    ({ s with keys := { s.keys with secure := s.keys.secure ++ [(⟨n, t, false⟩ : SecureSession)], nextSecure := n + 1 } }).emit (.spdm t 0xE4 false [n])
  else s.emit (.spdm t 0xE4 true [])

/-- FINISH: a wrong transcript ends the handshake. (DESIGN CHOICE, log entry 69) -/
def spdmFinish (s : State) (t n : Nat) (good : Bool) : State :=
  match s.keys.secure.find? (fun x => x.id = n && x.transport = t && !x.finished) with
  | none => s.emit (.spdm t 0xE5 true [n])
  | some x =>
    let rest := s.keys.secure.filter (fun y => y ≠ x)
    let s := { s with keys := { s.keys with secure := if good then rest ++ [{ x with finished := true }] else rest } }
    s.emit (.spdm t 0xE5 (!good) [n])

def spdmEnd (s : State) (t n : Nat) : State :=
  if s.keys.secure.any (fun x => x.id = n && x.transport = t) then
    ({ s with keys := { s.keys with secure := s.keys.secure.filter (fun x => !(x.id = n && x.transport = t)) } }).emit (.spdm t 0xEC false [n])
  else s.emit (.spdm t 0xEC true [n])

/-- The responder takes one request (R433): version 1.3 alone; slot 0 alone holds a chain. -/
def spdmDo (s : State) (t : Nat) : SpdmReq → State
  | .getVersion => (s.setSpdm ⟨t, true, false, false⟩).emit (.spdm t 0x84 false [0x13])
  | .getCapabilities => if (s.spdmConn t).version then (s.setSpdm ⟨t, true, true, false⟩).emit (.spdm t 0xE1 false []) else s.emit (.spdm t 0xE1 true [])
  | .negotiateAlgorithms offered =>
    if (s.spdmConn t).caps && offered then (s.setSpdm ⟨t, true, true, true⟩).emit (.spdm t 0xE3 false []) else s.emit (.spdm t 0xE3 true [])
  | .getDigests => s.spdmAsk t 0x81 true [1]
  | .getCertificate slot => s.spdmAsk t 0x82 (slot = 0) [0]
  | .challenge slot => s.spdmAsk t 0x83 (slot = 0) [0]
  | .getMeasurements index => s.spdmAsk t 0xE0 (s.measureReply index.toNat).isSome ((s.measureReply index.toNat).getD [])
  | .keyExchange => s.keyExchange t
  | .finish sec good => s.spdmFinish t sec good
  | .endSession sec => s.spdmEnd t sec

/-! Rotation and ending by register (R448, R462). -/

/-- Partition-0 firmware may write KEYS registers; management two of them; the host none (R462). -/
def keysWrite (s : State) (who : Writer) (addr : Nat) (mgmtMay : Bool) (f : State → State) : State :=
  match who with
  | .mgmt _ _ => if mgmtMay then f s else s.refuse who addr 0x220E
  | _ => if outside who then s.refuse who addr 0x220E else f s

/-- KEYS.ROTATE with GO (R447 to R449). -/
def rotateGo (s : State) (part : Nat) (who : Writer) : State :=
  let addr := ctl 0x000C 4
  s.keysWrite who addr true (fun s =>
    let t := s.rotate part
    if t.2 = 0 then t.1.setReg addr (BitVec.ofNat 32 part) else t.1.emit (.refused who addr t.2))

/-- A scheduled rotation of every partition of a session (R424, R448). -/
def scheduledRotation (s : State) (i : Nat) : State :=
  match (s.session i).charter with
  | none => s
  | some c =>
    if c.rotateS = 0 then s
    else (s.partsOf i).foldl (fun s p =>
      let t := s.rotate p
      if t.2 = 0x2203 then t.1.setPart p { t.1.part p with schedulePending := true } else t.1) s

/-- Causes that a teardown event carries. (DESIGN CHOICE, log entry 71) -/
def causeOwner : Nat := 1
/-- DESIGN CHOICE, log entry 71. -/
def causeCtrl : Nat := 2
/-- DESIGN CHOICE, log entry 71. -/
def causeNotAfter : Nat := 3
/-- DESIGN CHOICE, log entry 71. -/
def causeFrame : Nat := 4

/-- An owner's ROTATE (R435, R447). -/
def ownerRotate (s : State) (sec owner part i : Nat) : State :=
  if !(s.partsOf i).contains part then s.ownerRefuse sec 3 0x220D i owner
  else
    let t := s.rotate part
    if t.2 = 0 then t.1.ownerOk sec 3
    else t.1.emit (.spdm (((s.keys.secure.find? (fun x => x.id = sec)).map SecureSession.transport).getD 0) 3 true [t.2])

end State

/-- CHARTER_SUBMIT (R426, R427, R659): a Charter over DOE; `encOk` and the rest tell of its encoding and signatures. -/
def execCharterSubmit (c : Charter) (encOk sigsOk operOk : Bool) (s : State) : Host.Outcome State Fault Refusal :=
  live s (fun s => let t := s.charterTake 7 c encOk sigsOk operOk; t.1.emit (.doe 2 t.2.1 [t.2.2]))

/-- DOE_DISCOVERY (R659): the object protocols served, 0 Discovery, 1 CMA/SPDM, 2 Secured CMA/SPDM, and then the two of Kearnef. -/
def execDoeDiscovery (index : BitVec 8) (s : State) : Host.Outcome State Fault Refusal :=
  live s (fun s => s.emit (.doe 0 0 (if index.toNat < 5 then [index.toNat, (index.toNat + 1) % 5] else [0xFF, 0])))

/-- GET_VERSION (R433). -/
def execGetVersion (t : Fin 3) (s : State) : Host.Outcome State Fault Refusal := s.spdmLive t (fun s => s.spdmDo t .getVersion)

/-- GET_CAPABILITIES (R433). -/
def execGetCapabilities (t : Fin 3) (s : State) : Host.Outcome State Fault Refusal := s.spdmLive t (fun s => s.spdmDo t .getCapabilities)

/-- NEGOTIATE_ALGORITHMS (R433). -/
def execNegotiateAlgorithms (t : Fin 3) (offered : Bool) (s : State) : Host.Outcome State Fault Refusal := s.spdmLive t (fun s => s.spdmDo t (.negotiateAlgorithms offered))

/-- GET_DIGESTS (R433). -/
def execGetDigests (t : Fin 3) (s : State) : Host.Outcome State Fault Refusal := s.spdmLive t (fun s => s.spdmDo t .getDigests)

/-- GET_CERTIFICATE (R433). -/
def execGetCertificate (t : Fin 3) (slot : BitVec 4) (s : State) : Host.Outcome State Fault Refusal := s.spdmLive t (fun s => s.spdmDo t (.getCertificate slot))

/-- CHALLENGE (R433). -/
def execChallenge (t : Fin 3) (slot : BitVec 4) (s : State) : Host.Outcome State Fault Refusal := s.spdmLive t (fun s => s.spdmDo t (.challenge slot))

/-- GET_MEASUREMENTS (R434). -/
def execGetMeasurements (t : Fin 3) (index : BitVec 8) (s : State) : Host.Outcome State Fault Refusal := s.spdmLive t (fun s => s.spdmDo t (.getMeasurements index))

/-- KEY_EXCHANGE (R433). -/
def execKeyExchange (t : Fin 3) (s : State) : Host.Outcome State Fault Refusal := s.spdmLive t (fun s => s.spdmDo t .keyExchange)

/-- FINISH (R433). -/
def execSpdmFinish (t : Fin 3) (sec : Nat) (good : Bool) (s : State) : Host.Outcome State Fault Refusal := s.spdmLive t (fun s => s.spdmDo t (.finish sec good))

/-- END_SESSION (R433). -/
def execEndSession (t : Fin 3) (sec : Nat) (s : State) : Host.Outcome State Fault Refusal := s.spdmLive t (fun s => s.spdmDo t (.endSession sec))

/-- SEED (R430, R431). -/
def execSeedShare (sec owner : Nat) (id share : List (BitVec 8)) (sigOk : Bool) (s : State) : Host.Outcome State Fault Refusal :=
  live s (fun s => s.ownerReq sec owner id sigOk 1 (fun s i y => s.takeSeed sec owner share i y))

/-- AGREE (R436): `pub` is the owner's ephemeral public key. -/
def execOwnerAgree (sec owner : Nat) (id : List (BitVec 8)) (sigOk : Bool) (pub : List (BitVec 8)) (s : State) : Host.Outcome State Fault Refusal :=
  live s (fun s => s.ownerReq sec owner id sigOk 2 (fun s i y => if y.state = .ending then s.ownerRefuse sec 2 0x2209 i owner else s.takeAgree sec owner pub i y))

/-- ROTATE of an owner (R435, R447). -/
def execOwnerRotate (sec owner : Nat) (id : List (BitVec 8)) (sigOk : Bool) (part : BitVec 5) (s : State) : Host.Outcome State Fault Refusal :=
  live s (fun s => s.ownerReq sec owner id sigOk 3 (fun s i _ => s.ownerRotate sec owner part.toNat i))

/-- END of an owner (R451). -/
def execOwnerEnd (sec owner : Nat) (id : List (BitVec 8)) (sigOk : Bool) (s : State) : Host.Outcome State Fault Refusal :=
  liveEng s (fun s => s.ownerReq sec owner id sigOk 4 (fun s i _ => (s.beginTeardown i State.causeOwner).ownerOk sec 4))

/-- KEYS.ROTATE.GO (R462). -/
def execKeysRotateGo (part : BitVec 5) (who : Writer) (s : State) : Host.Outcome State Fault Refusal :=
  live s (fun s => s.rotateGo part.toNat who)

/-- SESS_CTRL.END (R462): nothing in NONE and ENDING. -/
def execSessCtrlEnd (slot : Fin 8) (who : Writer) (s : State) : Host.Outcome State Fault Refusal :=
  liveEng s (fun s => s.keysWrite who (ctl 0x000C (0x118 + 0x20 * slot)) true (fun s => s.beginTeardown slot State.causeCtrl))

/-- SCHEDULED_ROTATION (R424, R448). -/
def execScheduledRotation (slot : Fin 8) (s : State) : Host.Outcome State Fault Refusal := live s (fun s => s.scheduledRotation slot)

/-- ROTATION_COMPLETE (R447). -/
def execRotationComplete (part : BitVec 5) (s : State) : Host.Outcome State Fault Refusal := live s (fun s => s.rotationComplete part.toNat)

/-- NOT_AFTER_EXPIRY (R424, R451). -/
def execNotAfterExpiry (slot : Fin 8) (s : State) : Host.Outcome State Fault Refusal :=
  liveEng s (fun s => match (s.session slot).charter with
    | some c => if c.notAfter ≤ s.clock.now then s.beginTeardown slot State.causeNotAfter else s
    | none => s)

/-- TEARDOWN_DRAINED (R451). -/
def execTeardownDrained (slot : Fin 8) (s : State) : Host.Outcome State Fault Refusal := live s (fun s => s.teardownDrained slot)

/-- SESSION_CLOSED (R451). -/
def execSessionClosed (slot : Fin 8) (s : State) : Host.Outcome State Fault Refusal := live s (fun s => s.sessionClosed slot)

/-- TEARDOWN_STALL (R454): the fence has not drained 10 ms after it was issued. -/
def execTeardownStall (slot : Fin 8) (s : State) : Host.Outcome State Fault Refusal :=
  live s (fun s => if (s.session slot).teardown = .fenced then s.beginHalt 0x000C 0x2206 slot 0 0 else s)

end Sys2Proof.Machine
end

