-- ==== Sys2Proof/Machine/ExecMem.lean ====
section
/-!
DEFINITION. Commands of bonded memory, the page records, the memory Cuffs and their scrubbers (R303 to R339, R374 to R400).
-/
namespace Sys2Proof.Machine
namespace State

/-- A page whose transition has ended is retired where it was marked so and is free (R749). (DEDUCED, log entry 49) -/
def retireIfFree (s : State) (p : Nat) : State :=
  if s.mem.retireQ.contains p && decide ((s.mem.record p).state.toNat = prtFree) then
    s.onMem (fun m => { m with retired := m.retired ++ [p], retireQ := m.retireQ.filter (fun x => x ≠ p) })
  else s

/-- A partial write of a torn partition ends with nothing written (R451, R452). -/
def pendTorn (s : State) (p : Nat) (w : PendWrite) : State :=
  match w.who with
  | .peer _ chip core slot j => s.replyOn j (match w.op with | .bytes _ => 0x17 | _ => 0x16) (s.mem.record p).part.toNat 0 chip (replyOpw core slot 4 0x2205) []
  | .signal _ chip core slot j => s.replyOn j 0x17 (s.mem.record p).part.toNat 0 chip (replyOpw core slot 4 0x2205) []
  | _ => s

/-- A merge entry's read is back: the line is checked, the waiting writes land in order and their issuers are answered (R394, R396, R397). A teardown drops the
entry (R398). -/
def mergeDone (s : State) (p line : Nat) (ev : List MemEvent) : State :=
  match (s.region (pageRegion p)).cuff.merge.find? (fun e => e.page = p && e.line = line && e.pinned) with
  | none => s
  | some e =>
    let out (s : State) (xs : List MergeEntry) : State := s.onCuff (pageRegion p) (fun c => { c with merge := c.merge.filter (fun x => x ≠ e) ++ xs })
    if s.torn (s.mem.record p).part.toNat then e.pend.foldl (fun s w => s.pendTorn p w) (out s [])
    else
      let t := s.memRead .ld p line 1 ev
      if t.2 then
        e.pend.foldl (fun s w =>
          let old := s.oldOf p w.off w.op
          ((s.applyPartial p w.off w.op).brimSees p w.off w.op (leNat (old.getD []))).answer w.who old) (out t.1 [⟨p, line, false, []⟩])
      else t.1

/-- The job that goes next (R392): by priority, then arrival. A re-encryption waits until a newer generation is live
(R389); a sweep is for pages in LOCAL, PINNED or GUEST. -/
def nextScrub (s : State) (q : List ScrubJob) : Option ScrubJob :=
  let can (j : ScrubJob) : Bool :=
    let r := s.mem.record j.page
    match j.kind with
    | .reencrypt => r.kgen != s.newestKgen r.part.toNat
    | .sweep => decide (r.state.toNat = prtLocal ∨ r.state.toNat = prtPinned ∨ r.state.toNat = prtGuest)
    | _ => true
  [ScrubKind.reencrypt, .zeroFill, .sweep, .erase].foldl (fun acc k =>
    match acc with | some j => some j | none => q.find? (fun j => j.kind = k && can j)) none

/-- Jobs whose page is no longer mapped are dropped, but erases (R392, R412). (DEDUCED, log entry 49) -/
def scrubClean (s : State) (q : List ScrubJob) : List ScrubJob := q.filter (fun j => j.kind == .erase || (s.mem.record j.page).valid)

/-- Crown passes on the first job, by priority, that waits with it, as an entry frees (R392). -/
def scrubPass (c : MemCuff) : MemCuff :=
  match [ScrubKind.reencrypt, .zeroFill, .sweep, .erase].foldl (fun acc k =>
      match acc with | some x => some x | none => c.crownList.find? (fun x => x.kind = k)) none with
  | some x => if (if x.kind = .reencrypt then decide (c.scrubQ.length < 256) else scrubRoom c) then
      { c with scrubQ := c.scrubQ ++ [x], crownList := c.crownList.filter (fun y => y ≠ x) } else c
  | none => c

/-- A scrubber takes a job and a tracker (R386, R392), and Crown passes it the next one that waits. A re-encryption needs no stall of its own (R390). -/
def scrubStart (s : State) (r : Nat) : State :=
  let s := s.onCuff r (fun c => scrubPass { c with scrubQ := s.scrubClean c.scrubQ, crownList := s.scrubClean c.crownList })
  let c := (s.region r).cuff
  match c.running, s.nextScrub c.scrubQ with
  | none, some j =>
    let rec_ := s.mem.record j.page
    let kgen := if j.kind = .erase then s.newestKgen 0 else s.newestKgen rec_.part.toNat
    let open_ : State × Bool :=
      if j.kind = .reencrypt then
        if s.tracked j.page || decide (16 ≤ c.trackers.length) || s.pinnedPage j.page then (s, false)
        else ((s.mergeDrop j.page).onCuff r (fun c => { c with trackers := c.trackers ++ [⟨j.page, 0, kgen, .engine⟩] }), true)
      else s.openTracker j.page kgen .engine
    if open_.2 then open_.1.onCuff r (fun c => scrubPass { c with running := some j, scrubQ := c.scrubQ.filter (fun x => x ≠ j) })
    else open_.1
  | _, _ => s

/-- The job of a kind that a scrubber runs, and its end: the job leaves, unless it must still wait. -/
def scrubEnd (s : State) (r : Nat) (kind : ScrubKind) (f : State → Nat → State × Bool) : State :=
  match (s.region r).cuff.running with
  | some j =>
    if j.kind = kind then
      let t := f s j.page
      if t.2 then (t.1.onCuff r (fun c => { c with running := none })).retireIfFree j.page else t.1
    else s
  | none => s

def zeros : Bytes := List.replicate pageSize 0

/-- Zero-fill complete (R327): the page takes its state under the newest generation. -/
def zeroFillDone (s : State) (p : Nat) : State × Bool :=
  (((s.writeTracked p zeros).closeTracker p).onMem (fun m => m.onRecord p (fun x => { x with state := x.becomes, becomes := 0 })), true)

/-- Erase complete (R327): zeros under a key of partition 0, and the page is free. -/
def eraseDone (s : State) (p : Nat) : State × Bool :=
  ((((s.onMem (fun m => m.onRecord p (fun x => { x with part := 0 }))).writeTracked p zeros).closeTracker p).onMem (fun m => m.onRecord p (fun x =>
    { x with state := 0, valid := false, part := 0, vpage := 0, dirty := false, heat := 0, affinity := 0, chain := none, becomes := 0 })), true)

/-- Sweep complete (R392): every line has been read and checked, and the page's contents stand under the newest generation. -/
def sweepDone (ev : List MemEvent) (s : State) (p : Nat) : State × Bool :=
  let t := s.memRead .ld p 0 256 ev
  if t.2 then ((t.1.writeTracked p (t.1.mem.read p 0 pageSize)).closeTracker p, true) else t

/-- Re-encryption complete (R389, R392): every line has been read and checked; EPOCH 0 under the newer generation, and the lines are written so. -/
def reencryptDone (ev : List MemEvent) (s : State) (p : Nat) : State × Bool :=
  let r := pageRegion p
  match (s.region r).cuff.trackers.find? (fun t => t.page = p) with
  | none => (s, true)
  | some t =>
    let m := s.memRead .ld p 0 256 ev
    if !m.2 then m
    else
      let bs := m.1.mem.read p 0 pageSize
      let s := ((m.1.count (ctl (mcuffBlock r) 0x18) 1).onMem (fun m => m.onRecord p (fun x => { x with epoch := 0, kgen := t.kgen }))).onCuff r
        (fun c => { c with trackers := c.trackers.filter (fun x => x.page ≠ p), threshNoted := c.threshNoted.filter (fun x => x ≠ p),
                           stallNoted := c.stallNoted.filter (fun x => x.1 ≠ p) })
      (s.portWrite p 0 bs, true)

/-- A line in error that the patrol finds (R309, R310, R411). (DEDUCED, log entry 49) -/
def patrolLine (s : State) (r p line : Nat) : State :=
  match rsCorrect (s.mem.flipsOf p line) with
  | none => if (s.mem.record p).valid then s.beginHalt (mcuffBlock r) 0x2102 p line 0 else s.raise (mcuffBlock r) 0x2102 p line 0
  | some left => (s.corrected p line).onMem (fun m => { m with flips := Sparse.set [] m.flips (Memory.lineAddr p line) left })

/-- The patrol of a region's half of its stack: every line in error, by rising address. -/
def patrol (s : State) (r : Nat) : State :=
  (s.mem.flips.filter (fun e => decide (pageRegion (e.1 / 256) = r))).foldl (fun s e => if s.halt.isSome then s else s.patrolLine r (e.1 / 256) (e.1 % 256)) s

/-- A bucket of a half is built again from its records (R336), in rising order of index. (DESIGN CHOICE, log entry 151) -/
def rebuildBucket (s : State) (d h : Nat) : State :=
  let ps := (s.mem.prt.filter (fun e => e.2.valid && decide (pageHalf e.1 = d ∧ bucket e.2.part.toNat e.2.vpage.toNat s.mem.salt = h))).map Prod.fst
  let s := s.onMem (fun m => m.onRecord (Memory.anchor d h) (fun x => { x with head := ps.head? }))
  (List.zip ps (ps.drop 1 |>.map some |>.append [none])).foldl (fun s x => s.onMem (fun m => m.onRecord x.1 (fun r => { r with chain := x.2 }))) s

/-- A repair ends (R336): a lost page is unlinked and erased; otherwise AFFINITY is P[20:17], and the bucket of the record's own page and bucket P[19:0] are
built again. -/
def repairDone (s : State) (i groups : Nat) : State :=
  let s := s.onMem (fun m => { m with repairs := m.repairs.filter (fun x => x ≠ (i, groups)) })
  let r := s.mem.record i
  if groups % 32 ≠ 0 then
    (if r.valid then (s.tcDrop r.part.toNat r.vpage.toNat).onMem (fun m => m.unlink i) else s).eraseFree i
  else
    let s := s.onMem (fun m => m.onRecord i (fun x => { x with affinity := BitVec.ofNat 4 (pageRegion i) }))
    let s := if r.valid then s.rebuildBucket (pageHalf i) (bucket r.part.toNat r.vpage.toNat s.mem.salt) else s
    s.rebuildBucket (pageHalf i) (i % 2 ^ 20)

/-- The events of an integrity halt that has begun (R407): every key is zeroised, HALT_N goes low, HALT frames leave on the
links that are up, and links and PCIe go idle. -/
def haltAll (s : State) : State :=
  match s.halt with
  | none => s
  | some h =>
    if s.haltLow then s
    else
      let s := { s with keySlots := [], haltLow := true,
                        keys := { s.keys with slotKeys := [], store := [], flipped := [], storeFlipped := [], control := 0, sessions := s.keys.sessions.map (fun (e : Nat × Session) => (e.1, { e.2 with seed := none, pairs := [], shares := [], ckKnown := false })) } }
      let s := (List.range 36).foldl (fun s j =>
        let l := s.link j
        let s := if l.run = .up then s.emit (.frame j (s.sealed j ⟨2, 0, false, 0, l.peer, 0, [], false, 0, 0, s.clock.now % 2 ^ 32, []⟩)) else s
        s.onLink j (fun l => { l with run := .halted })) s
      s.pushEvent 9 [h.1, h.2]

end State

/-- RB_LINE_FILL (R331, R332): a line read for a region's mover is kept in its buffer. -/
def execRbLineFill (rg : BitVec 4) (page : BitVec 21) (line : BitVec 8) (s : State) : Host.Outcome State Fault Refusal :=
  liveEng s (fun s => s.rbFill rg.toNat page.toNat line.toNat)

def execMergeReadDone (page : BitVec 21) (line : BitVec 8) (ev : List MemEvent) (s : State) : Host.Outcome State Fault Refusal :=
  liveEng s (fun s => s.mergeDone page.toNat line.toNat ev)

def execWholePageWriteDone (page : BitVec 21) (s : State) : Host.Outcome State Fault Refusal :=
  liveEng s (fun s => s.closeTracker page.toNat)

def execScrubJobStart (rg : BitVec 4) (s : State) : Host.Outcome State Fault Refusal :=
  liveEng s (fun s => s.scrubStart rg.toNat)

def execScrubZeroFillDone (rg : BitVec 4) (s : State) : Host.Outcome State Fault Refusal :=
  liveEng s (fun s => s.scrubEnd rg.toNat .zeroFill State.zeroFillDone)

def execScrubEraseDone (rg : BitVec 4) (s : State) : Host.Outcome State Fault Refusal :=
  liveEng s (fun s => s.scrubEnd rg.toNat .erase State.eraseDone)

/-- The sweep's reads meet the checks of R382. -/
def execScrubSweepDone (rg : BitVec 4) (ev : List MemEvent) (s : State) : Host.Outcome State Fault Refusal :=
  liveEng s (fun s => s.scrubEnd rg.toNat .sweep (State.sweepDone ev))

def execScrubReencryptDone (rg : BitVec 4) (ev : List MemEvent) (s : State) : Host.Outcome State Fault Refusal :=
  liveEng s (fun s => s.scrubEnd rg.toNat .reencrypt (State.reencryptDone ev))

/-- KEY_SLOT_LOAD (R374 to R377): the keys come over the control path, once it is keyed (R26). -/
def execKeySlotLoad (cuff : Fin 59) (slot : BitVec 6) (s : State) : Host.Outcome State Fault Refusal :=
  liveEng s (fun s => if s.keys.control = 0 then s else s.loadSlot cuff slot.toNat)

/-- KEY_SLOT_ZEROISE (R377): it takes effect once no operation that began with the slot runs. -/
def execKeySlotZeroise (cuff : Fin 59) (slot : BitVec 6) (s : State) : Host.Outcome State Fault Refusal :=
  liveEng s (fun s => s.zeroSlot cuff slot.toNat)

/-- D2D_FLIT_SEND (R401, R402): `units` is LEN_M1. -/
def execD2dFlitSend (dcuff : Fin 6) (part : BitVec 5) (kgen : Bool) (cls : BitVec 2) (units : BitVec 3) (route : BitVec 48) (payload : List (BitVec 8))
    (s : State) : Host.Outcome State Fault Refusal :=
  live s (fun s => s.flitSend dcuff (State.flitHeader part kgen cls units route) payload)

/-- D2D_FLIT_RECEIVE (R403): the flit as it arrives. -/
def execD2dFlitReceive (dcuff : Fin 6) (f : Flit) (owner : Option (BitVec 9 × BitVec 6)) (s : State) : Host.Outcome State Fault Refusal :=
  live s (fun s => s.flitReceive dcuff f owner)

/-- D2D_REPLAY_REQUEST (R403). -/
def execD2dReplayRequest (dcuff : Fin 6) (ctr : BitVec 64) (s : State) : Host.Outcome State Fault Refusal :=
  live s (fun s => s.flitReplay dcuff ctr.toNat)

def execIntegrityHalt (s : State) : Host.Outcome State Fault Refusal := ok s.haltAll

/-- PATROL_PASS (R310, R749): the table of corrected pages is cleared, then every line of the region's half is treated. `ev` are faults that have befallen
lines. (DESIGN CHOICE, log entries 129 and 139) -/
def execPatrolPass (rg : BitVec 4) (ev : List MemEvent) (s : State) : Host.Outcome State Fault Refusal :=
  liveEng s (fun s =>
    let r := rg.toNat
    if (s.region r).patrol || decide (s.regField (ctl (regionBlock r) 0x800) 7 0 ≠ 0) then
      ((s.faults .ld (r * 131072) 0 ev).1.onRegion r (fun g => { g with corr := [], patrol := false })).patrol r
    else s)

/-- PATROL_RUN (R338): MEM_SCRUB.RUN orders a pass at once. -/
def execPatrolRun (rg : BitVec 4) (who : Writer) (s : State) : Host.Outcome State Fault Refusal :=
  live s (fun s =>
    if outside who then s.refuse who (ctl (regionBlock rg.toNat) 0x800) 0x2009
    else s.onRegion rg.toNat (fun g => { g with patrol := true }))

/-- HEAT_DECAY_SWEEP (R316, R367): HEAT of every record and of every loan is halved. `flips` are bits of records that have changed; records that then fail
parity are repaired (R336). (DEDUCED, log entry 63; DESIGN CHOICE, log entry 139) -/
def execHeatDecaySweep (flips : List (BitVec 21 × BitVec 128)) (s : State) : Host.Outcome State Fault Refusal :=
  liveEng s (fun s =>
    let s := flips.foldl (fun s b => (s.recordFlips b.1.toNat b.2).1) s
    if (s.reg (ctl 0x0009 0)).toNat.testBit 0 then
      (s.onMem (fun m => { m with prt := (m.prt.map (fun e => (e.1, { e.2 with heat := e.2.heat >>> 1 }))).filter (fun e => e.2 ≠ PrtRec.free) })).onCrown
        (fun c => { c with loans := c.loans.map (fun l => { l with heat := l.heat / 2 }) })
    else s)

def execPrtRepairComplete (s : State) : Host.Outcome State Fault Refusal :=
  liveEng s (fun s => match s.mem.repairs with
    | [] => s
    | x :: _ => s.repairDone x.1 x.2)

/-- CHAIN_MAX_CLEAR (R337). -/
def execChainMaxClear (who : Writer) (s : State) : Host.Outcome State Fault Refusal :=
  live s (fun s =>
    if outside who then s.refuse who (ctl 0x0009 0xC) 0x2009
    else s.onMem (fun m => { m with chainMax0 := 0, chainMax1 := 0 }))

end Sys2Proof.Machine
end

