-- ==== Sys2Proof/Machine/Dest.lean ====
section
/-!
DEFINITION. What a destination chip does with the operation frames of another (R503, R504, R525, R526), and the replies.
-/
namespace Sys2Proof.Machine

/-- Fields of OPW in PUT_LINES and GET_REQ (R525): window offset, core, slot, lines, RELAX. -/
structure LinesOp where
  off : Nat
  core : Nat
  slot : Nat
  lines : Nat
  relax : Bool

def linesOp (w : BitVec 64) : LinesOp :=
  ⟨bitsNat w.toNat 38 0 * 64, bitsNat w.toNat 47 39, bitsNat w.toNat 53 48, bitsNat w.toNat 59 54 + 1, w.toNat.testBit 60⟩

/-- Fields of OPW in PUT_BYTES, SIGNAL and ATOMIC_REQ (R525). -/
structure OffOp where
  off : Nat
  core : Nat
  slot : Nat
  relax : Bool
  kind : Nat

def offOp (w : BitVec 64) : OffOp :=
  ⟨bitsNat w.toNat 44 0, bitsNat w.toNat 53 45, bitsNat w.toNat 59 54, w.toNat.testBit 60, bitsNat w.toNat 62 61⟩

namespace State

/-- Whether a partial write of another chip's core still waits for its line: of this operation, or of any where order is kept (R508, R526). -/
def peerWaits (s : State) (chip core slot : Nat) (relax : Bool) : Bool :=
  s.regions.any (fun g => g.2.cuff.merge.any (fun e => e.pend.any (fun w => match w.who with
    | .peer _ c k i _ => decide (c = chip ∧ k = core ∧ (i = slot ∨ !relax))
    | .signal _ c k i _ => decide (c = chip ∧ k = core ∧ (i = slot ∨ !relax))
    | _ => false)))

/-- A data frame's fate is noted for the SIGNAL that may follow (R506): a frame that does not go on where the last one ended begins a new operation. -/
def noteData (s : State) (chip core slot off len : Nat) (failed : Bool) : State :=
  s.onNet (fun n =>
    let mine (x : InOp) : Bool := decide (x.chip = chip ∧ x.core = core ∧ x.slot = slot)
    let was := match n.inOps.find? mine with
      | some x => x.failed && decide (x.next = off)
      | none => false
    { n with inOps := n.inOps.filter (fun x => !mine x) ++ [⟨chip, core, slot, off + len, was || failed⟩] })

def dataFailed (s : State) (chip core slot : Nat) : Bool :=
  s.net.inOps.any (fun x => decide (x.chip = chip ∧ x.core = core ∧ x.slot = slot) && x.failed)

/-- A refusal sent back: GET_DATA, ATOMIC_RSP or ACK with nothing in it (R525); its code is raised where its block records it. -/
def refuseReply (s : State) (f : RxFrame) (core slot status code type : Nat) : State :=
  let part := f.part.toNat
  let s := match code / 256 with
    | 0x22 => s.raise 0x000C code (s.part part).session 0 (s.part part).gen
    | 0x31 => s.raise 0x000E code core f.src.toNat slot
    | 0x50 => s.raise 0x000A code (s.part part).session 0 0
    | _ => s
  s.replyOn f.link type part (if type = 0x14 then 2 else 0) f.src.toNat (replyOpw core slot status code) []

/-- The reply to a request (R526). -/
def replyType (type : Nat) : Nat := if type = 0x13 then 0x14 else if type = 0x15 then 0x16 else 0x17

/-- A frame passed on to the lender of a loaned page (R366). -/
def relayOn (s : State) (f : RxFrame) (core slot lender type : Nat) (opw : BitVec 64) : State :=
  let dst := s.chip / 8 * 8 + lender
  match s.sendTo dst core type f.part.toNat f.cls.toNat opw f.payload with
  | some s => s.onNet (fun n => { n with relays := n.relays ++ [⟨dst, core, slot, f.src.toNat, f.link, replyType type⟩] })
  | none => s.refuseReply f core slot 6 0x3009 (replyType type)

/-- A quarter page of a checkpoint drain, the one traffic of class 3 (R519, R616): it lands in a buddy slot alone (R609); none where it must wait. -/
def takeDrain (s : State) (f : RxFrame) (w : LinesOp) : Taken :=
  let src := f.src.toNat
  let part := f.part.toNat
  let v := w.off / pageSize
  if v < 0x3C000000 ∨ 0x3E000000 ≤ v then .took (s.refuseReply f w.core w.slot 6 0x500B 0x17)
  else
    let a := s.access .ckpt part v true
    let s := a.1
    match a.2 with
    | .served p =>
      match s.lineWrite p (w.off % pageSize) (f.payload.take (64 * w.lines)) with
      | none => .held id
      | some s =>
        let s := s.heat .ckpt p w.lines
        let i := (s.part part).session
        let k := s.ckptSess i
        let q := ((v - 0x3C000000) / 0x01000000, (v - 0x3C000000) % 0x01000000 * 4 + w.off % pageSize / 4096)
        .took ((s.setCkpt i { k with landed := k.landed.filter (fun x => x ≠ q) ++ [q] }).answer (.peer part src w.core w.slot f.link) none)
    | .refused st code => .took (s.refuseReply f w.core w.slot st code 0x17)
    | _ => .held id

/-- PUT_LINES at the destination (R525, R504); none where the frame must wait in the receive buffer. (DEDUCED, log entry 45) -/
def takePutLines (s : State) (f : RxFrame) : Taken :=
  let w := linesOp f.opw
  let src := f.src.toNat
  if f.cls = 3 then s.takeDrain f w
  else if s.peerWaits src w.core w.slot w.relax then .held id
  else
    let a := s.access (.peer src) f.part.toNat (w.off / pageSize) true
    let s := a.1
    match a.2 with
    | .wait => .held id
    | .refused st code => .took ((s.noteData src w.core w.slot w.off (64 * w.lines) true).refuseReply f w.core w.slot st code 0x17)
    | .loan lender index =>
      .took ((s.noteData src w.core w.slot w.off (64 * w.lines) false).relayOn f w.core w.slot lender 0x10
        (linesOpw (s.guestOff index w.off / 64) w.core w.slot w.lines w.relax))
    | .served p =>
      match s.lineWrite p (w.off % pageSize) (f.payload.take (64 * w.lines)) with
      | none => .held id
      | some s => .took (((s.heat (.peer src) p w.lines).noteData src w.core w.slot w.off (64 * w.lines) false).answer
          (.peer f.part.toNat src w.core w.slot f.link) none)

/-- A partial write of another chip (R393, R525). -/
def takePartial (s : State) (f : RxFrame) (w : OffOp) (op : PartialOp) (who : Requester) (type : Nat) (isData : Bool) : Taken :=
  let src := f.src.toNat
  let note (s : State) (bad : Bool) : State := if isData then s.noteData src w.core w.slot w.off (partialLen op) bad else s
  let a := s.access (.peer src) f.part.toNat (w.off / pageSize) true
  let s := a.1
  match a.2 with
  | .wait => .held id
  | .refused st code => .took ((note s true).refuseReply f w.core w.slot st code (replyType type))
  | .loan lender index => .took ((note s false).relayOn f w.core w.slot lender type (offOpw (s.guestOff index w.off) w.core w.slot w.relax w.kind))
  | .served p =>
    let r := s.partialWrite who p (w.off % pageSize) op
    let s := note (r.1.heat (.peer src) p 1) false
    match r.2 with
    | .wait => .held id
    | .pending => .took s
    | .landed old => .took ((s.brimSees p (w.off % pageSize) op (leNat (old.getD []))).answer who old)

/-- PUT_BYTES (R525): byte 63 of the payload is COUNT. -/
def takePutBytes (s : State) (f : RxFrame) : Taken :=
  let w := offOp f.opw
  let src := f.src.toNat
  if s.peerWaits src w.core w.slot w.relax then .held id
  else
    let n := ((f.payload[63]?).getD 0).toNat
    s.takePartial f w (.bytes (f.payload.take n)) (.peer f.part.toNat src w.core w.slot f.link) 0x11 true

/-- SIGNAL (R506, R526). -/
def takeSignal (s : State) (f : RxFrame) : Taken :=
  let w := offOp f.opw
  let src := f.src.toNat
  if s.peerWaits src w.core w.slot w.relax then .held id
  else if s.dataFailed src w.core w.slot then .took (s.refuseReply f w.core w.slot 6 0x3108 0x17)
  else s.takePartial f w (.add64 1) (.signal f.part.toNat src w.core w.slot f.link) 0x12 false

/-- ATOMIC_REQ (R503, R525). -/
def takeAtomic (s : State) (f : RxFrame) : Taken :=
  let w := offOp f.opw
  let src := f.src.toNat
  if s.peerWaits src w.core w.slot w.relax then .held id
  else
    let x := BitVec.ofNat 64 (leNat (f.payload.take 8))
    let op : PartialOp := match w.kind with
      | 0 => .add64 x
      | 1 => .add32 (x.setWidth 32)
      | _ => .cas x (BitVec.ofNat 64 (leNat ((f.payload.drop 8).take 8)))
    s.takePartial f w op (.peer f.part.toNat src w.core w.slot f.link) 0x15 false

/-- GET_REQ (R525): the lines go back in GET_DATA. -/
def takeGet (s : State) (f : RxFrame) (ev : List MemEvent) : Taken :=
  let w := linesOp f.opw
  let src := f.src.toNat
  if s.peerWaits src w.core w.slot w.relax then .held id
  else
    let a := s.access (.peer src) f.part.toNat (w.off / pageSize) false
    let s := a.1
    match a.2 with
    | .wait => .held id
    | .refused st code => .took (s.refuseReply f w.core w.slot st code 0x14)
    | .loan lender index => .took (s.relayOn f w.core w.slot lender 0x13
        (linesOpw (s.guestOff index w.off / 64) w.core w.slot w.lines w.relax))
    | .served p =>
      let t := s.memRead (.peer src) p (w.off % pageSize / 64) w.lines ev
      if t.2 then
        let bs := t.1.mem.read p (w.off % pageSize) (64 * w.lines)
        .took ((t.1.heat (.peer src) p w.lines).replyOn f.link 0x14 f.part.toNat 2 src (replyOpw w.core w.slot 0 0) bs)
      else .held (fun s => (s.memRead (.peer src) p (w.off % pageSize / 64) w.lines ev).1)

/-! Replies. -/

/-- Fields of the reply layout (R525): core, slot, status, code. -/
def replyFields (w : BitVec 64) : Nat × Nat × Nat × Nat :=
  (bitsNat w.toNat 8 0, bitsNat w.toNat 14 9, bitsNat w.toNat 17 15, bitsNat w.toNat 33 18)

/-- Pages on their way to a lender stay here (R365): the lender could not take them. (DEDUCED, log entry 63) -/
def lendCancel (s : State) (pos : Nat) : State :=
  let mine (c : PageCopy) : Bool := match c.kind with
    | .lend _ _ l _ => decide (l = pos)
    | _ => false
  let s := (s.crown.copies.filter mine).foldl (fun s c => s.onMem (fun m => m.onRecord c.src (fun r =>
    if r.state.toNat = prtMigrating then { r with state := r.becomes, becomes := 0 } else r))) s
  { s with crown := { s.crown with copies := s.crown.copies.filter (fun c => !mine c) } }

/-- A reply to an operation of the device's own engines: of a drain it counts down what is still owed (R616, R619), of a read it brings lines. -/
def engReply (s : State) (part chip slot status code : Nat) (b : Bytes) : State :=
  let s := s.onNet (fun n => { n with eng := n.eng.erase (chip, slot) })
  let i := (s.part part).session
  let k := s.ckptSess i
  if slot = 62 ∧ status = 0 then s.setCkpt i { k with owed := k.owed - 1 }
  else if slot = 58 then s.fetchGot chip status code b
  else if slot = 60 ∧ status ≠ 0 then s.lendCancel (chip % 8)
  else s

/-- A reply is passed on where its request was another chip's (R366), else it goes to its operation. (DEDUCED, log entry 83) -/
def takeReply (s : State) (f : RxFrame) (type : Nat) (land : Nat → State → MoverOp → MoverReq → State) : State :=
  let w := replyFields f.opw
  let src := f.src.toNat
  match s.net.relays.find? (fun r => decide (r.lender = src ∧ r.core = w.1 ∧ r.slot = w.2.1)) with
  | some r =>
    (s.onNet (fun n => { n with relays := n.relays.erase r })).replyOn r.link type f.part.toNat (if type = 0x14 then 2 else 0) r.chip f.opw f.payload
  | none =>
    if w.1 = 511 ∧ s.net.eng.contains (src, w.2.1) then s.engReply f.part.toNat src w.2.1 w.2.2.1 w.2.2.2 f.payload
    else s.reply w.1 w.2.1 src w.2.2.1 w.2.2.2 (land w.1)

/-- A counter atomic of the Brim agent comes back from its root chip (R589, R591). -/
def brimReply (s : State) (f : RxFrame) : Option State :=
  let w := replyFields f.opw
  match s.brim.atomics.find? (fun a => a.1 = f.src.toNat) with
  | some a =>
    if w.1 = 511 ∧ w.2.1 = 63 ∧ a.2.part = f.part.toNat then
      let s := s.onBrim (fun x => { x with atomics := x.atomics.erase a })
      some (if w.2.2.1 = 0 then s else match s.nodeOf a.2 with
        | some b => s.brimBreak b
        | none => s)
    else none
  | none => none

end State
end Sys2Proof.Machine
end

