-- ==== Sys2Proof/Machine/Pcs.lean ====
section
/-!
DEFINITION. The PCS of a link (R468 to R470): RS(544, 514) over GF(2¹⁰), the transcoded blocks and their scrambler, and the deal to four lanes. The manual
gives the code, the block size and the scrambler's polynomial; the order of symbols and bits is that of IEEE 802.3. (PRESUMED, log entry 143)
-/
namespace Sys2Proof.Machine

/-! The field and the code. -/

/-- Multiplication by x modulo x¹⁰ + x³ + 1. (PRESUMED, log entry 143) -/
def tenX (a : Nat) : Nat := if 512 ≤ a then (2 * a) ^^^ 0x409 else 2 * a

def tenMul (a b : Nat) : Nat :=
  ((List.range 10).foldl (fun (t : Nat × Nat) i => (if b.testBit i then t.1 ^^^ t.2 else t.1, tenX t.2)) (0, a)).1

def tenPow (a : Nat) : Nat → Nat
  | 0 => 1
  | n + 1 => tenMul a (tenPow a n)

/-- α to a power. -/
def tenAlpha (n : Nat) : Nat := (List.range (n % 1023)).foldl (fun a _ => tenX a) 1

/-- The inverse: a¹⁰²², as 1022 is 2 + 4 + … + 512. -/
def tenInv (a : Nat) : Nat := ((List.range 9).foldl (fun (t : Nat × Nat) _ => let q := tenMul t.2 t.2; (tenMul t.1 q, q)) (1, a)).1

/-- A polynomial, lowest coefficient first, at a point. -/
def tenEval (p : List Nat) (x : Nat) : Nat := p.foldr (fun c a => c ^^^ tenMul x a) 0

/-- Coefficient-wise sum. -/
def tenAdd : List Nat → List Nat → List Nat
  | [], q => q
  | p, [] => p
  | a :: p, b :: q => (a ^^^ b) :: tenAdd p q

def tenScale (c : Nat) (p : List Nat) : List Nat := p.map (tenMul c)

def tenProd (p q : List Nat) : List Nat := p.foldr (fun c a => tenAdd (tenScale c q) (0 :: a)) []

/-- The generator ∏ (x − αⁱ), i = 0 to 29. -/
def pcsGenerator : List Nat := (List.range 30).foldl (fun g i => tenProd [tenAlpha i, 1] g) [1]

/-- The 30 check symbols of 514 message symbols: the remainder of the message times x³⁰; the first symbol is the highest coefficient. (PRESUMED, log entry 143) -/
def pcsCheck (m : List Nat) : List Nat :=
  let g := (pcsGenerator.take 30).reverse
  m.foldl (fun r c => let f := c ^^^ r.headD 0; tenAdd (r.drop 1 ++ [0]) (tenScale f g)) (List.replicate 30 0)

/-- The values of a received word at α⁰ to α²⁹. -/
def pcsSyndromes (w : List Nat) : List Nat := (List.range 30).map (fun i => let a := tenAlpha i; w.foldl (fun v c => tenMul a v ^^^ c) 0)

/-- The shortest register that makes a sequence: the locator, the one before, the length, the steps since, and the discrepancy then. -/
structure Register where
  loc : List Nat
  old : List Nat
  len : Nat
  gap : Nat
  disc : Nat

def Register.step (syn : List Nat) (r : Register) (n : Nat) : Register :=
  let d := (List.range (r.len + 1)).foldl (fun a i => a ^^^ tenMul (r.loc.getD i 0) (syn.getD (n - i) 0)) 0
  if d = 0 then { r with gap := r.gap + 1 }
  else
    let next := tenAdd r.loc (List.replicate r.gap 0 ++ tenScale (tenMul d (tenInv r.disc)) r.old)
    if 2 * r.len ≤ n then ⟨next, r.loc, n + 1 - r.len, 1, d⟩ else { r with loc := next, gap := r.gap + 1 }

/-- The correction that a word's syndromes name: at most 15 symbols (power of x, difference); none where no such word of the code is near. -/
def pcsErrors (syn : List Nat) : Option (List (Nat × Nat)) :=
  let r := (List.range 30).foldl (Register.step syn) ⟨[1], [1], 0, 1, 1⟩
  let places := (List.range 544).filter (fun p => tenEval r.loc (tenAlpha (1023 - p)) = 0)
  if 15 < r.len ∨ places.length ≠ r.len then none
  else
    let omega := (tenProd syn r.loc).take 30
    let slope := (r.loc.drop 1).zipIdx.map (fun c => if c.2 % 2 = 0 then c.1 else 0)
    some (places.map (fun p =>
      let y := tenAlpha (1023 - p)
      (p, tenMul (tenAlpha p) (tenMul (tenEval omega y) (tenInv (tenEval slope y))))))

/-- A word as the decoder leaves it, and the symbols corrected: none where it cannot correct it (R468, R470). -/
def pcsDecode (w : List Nat) : List Nat × Option Nat :=
  let syn := pcsSyndromes w
  if syn.all (· = 0) then (w, some 0)
  else match pcsErrors syn with
    | none => (w, none)
    | some es =>
      let fixed := w.zipIdx.map (fun c => match es.find? (fun e => e.1 + c.2 = 543) with | some e => c.1 ^^^ e.2 | none => c.1)
      if (pcsSyndromes fixed).all (· = 0) then (fixed, some es.length) else (w, none)

/-! Blocks, their scrambler, and symbols. -/

def bitsOf (n w : Nat) : List Bool := (List.range n).map w.testBit
def ofBits (b : List Bool) : Nat := b.foldr (fun x a => b2n x + 2 * a) 0

/-- A transcoded block of 32 bytes: a bit that says that it holds data, and the data. -/
def pcsBlock (b : Bytes) : List Bool := true :: b.flatMap (fun x => bitsOf 8 x.toNat)

/-- Pieces of equal size. -/
def equalParts {α : Type} (size n : Nat) (x : List α) : List (List α) := (List.range n).map (fun i => (x.drop (size * i)).take size)

/-- A bit through the scrambler of x⁵⁸ + x³⁹ + 1, whose last 58 bits sent are `past`, the newest lowest. -/
def scrambleBit (past : Nat) (d : Bool) : Bool := d ^^ past.testBit 38 ^^ past.testBit 57

def pastBit (past : Nat) (r : Bool) : Nat := (2 * past + b2n r) % 2 ^ 58

/-- Bits scrambled: what is sent, and the bits that stand then. -/
def scramble (past : Nat) (bits : List Bool) : Nat × List Bool :=
  let t := bits.foldl (fun (t : Nat × List Bool) d => let r := scrambleBit t.1 d; (pastBit t.1 r, r :: t.2)) (past, [])
  (t.1, t.2.reverse)

/-- Bits received, descrambled. -/
def descramble (past : Nat) (bits : List Bool) : Nat × List Bool :=
  let t := bits.foldl (fun (t : Nat × List Bool) r => (pastBit t.1 r, scrambleBit t.1 r :: t.2)) (past, [])
  (t.1, t.2.reverse)

/-- The codeword of a lane for 640 bytes of link data (R468). (PRESUMED, log entry 143) -/
def laneWord (past : Nat) (data : Bytes) : Nat × List Nat :=
  let t := scramble past ((equalParts 32 20 data).flatMap pcsBlock)
  let m := (equalParts 10 514 t.2).map ofBits
  (t.1, m ++ pcsCheck m)

/-- A lane's codeword as received: the scrambler's bits, 20 blocks of 32 bytes each, and the symbols corrected. (PRESUMED, log entry 143) -/
def laneData (past : Nat) (w : List Nat) : Nat × List Bytes × Option Nat :=
  let d := pcsDecode w
  let t := descramble past ((d.1.take 514).flatMap (bitsOf 10))
  (t.1, (equalParts 257 20 t.2).map (fun b => (equalParts 8 32 (b.drop 1)).map (fun x => BitVec.ofNat 8 (ofBits x))), d.2)

end Sys2Proof.Machine
end

