-- ==== Sys2Proof/Machine/Net.lean ====
section
/-!
DEFINITION. The links at work: training, flits, the choice and the receipt of frames, paths and their keys, absence, fabric time (R464 to R496).
-/
namespace Sys2Proof.Machine

/-- Replies of operation frames (R525). -/
def isReply (type : Nat) : Bool := decide (type = 0x14 ∨ type = 0x16 ∨ type = 0x17)

/-- Key slots that a set of paths loads (R374, R486). -/
def pathBits (ps : List Path) : BitVec 64 :=
  (ps.filter Path.ready).foldl (fun w p =>
    w ||| 1#64 <<< (2 * p.part + p.gen % 2) ||| (if p.older then 1#64 <<< (2 * p.part + (p.gen + 1) % 2) else 0)) 0

/-- Credits of a class at set-up (R478). -/
def creditShare : List Nat := [128, 768, 768, 384]

/-- Flits that a number acknowledges: those up to half the numbers before it (R475). (DEDUCED, log entry 82) -/
def flitBefore (a b : Nat) : Bool := decide ((a + 4096 - b) % 4096 < 2048)

namespace State

/-- A code of a link (R822): link, peer, FSEQ or CTR. -/
def linkRaise (s : State) (j code x : Nat) : State := s.raise (0x20 + j) code j (s.link j).peer (x % 2 ^ 32)

/-- First link of a group path, by the peer's position (R465). -/
def groupBase (s : State) (pos : Nat) : Nat := 4 * ((pos + 16 - s.chip % 8 - 1) % 8)

def inGroup (s : State) (chip : Nat) : Bool := decide (chip / 8 = s.chip / 8)

/-- Links of the path to a chip (R466). -/
def linksTo (s : State) (chip : Nat) : List Nat :=
  if s.inGroup chip then (List.range 4).map (s.groupBase (chip % 8) + ·) else (List.range 8).map (28 + ·)

/-! Paths and their keys (R466, R481 to R487). -/

/-- Link Cuffs hold the keys of the paths as they stand. -/
def loadPaths (s : State) (peer : Nat) : State :=
  let bits := pathBits (s.net.paths.filter (fun p => if s.inGroup peer then p.peer = peer else !s.inGroup p.peer))
  (s.linksTo peer).foldl (fun s j => { s with keySlots := Sparse.set 0 s.keySlots (22 + j) bits }) s

def onPath (s : State) (peer part : Nat) (f : Path → Path) : State :=
  (s.onNet (fun n => { n with paths := n.paths.map (fun p => if p.peer = peer ∧ p.part = part then f p else p) })).loadPaths peer

def dropPaths (s : State) (q : Path → Bool) (peer : Nat) : State :=
  (s.onNet (fun n => { n with paths := n.paths.filter (fun p => !q p) })).loadPaths peer

/-- A path whose agreement begins, with this chip's ephemeral key. (DESIGN CHOICE, log entry 79) -/
def freshPath (peer part : Nat) (eph : Bytes) : Path := ⟨peer, part, 0, false, false, (0, 0), (0, 0), .none, false, false, [], [], eph⟩

/-- The keys of a path for a generation, from this chip's ephemeral key and the peer's public key (R481). -/
def agreedKeys (s : State) (peer part gen : Nat) (eph pub : Bytes) : Bytes :=
  let salt := if part = 0 then linkSaltZero else ((s.session (s.part part).session).charter).elim [] Charter.digest
  pathKeyBytes salt (Config.ecShared eph pub) (s.fidOf part) gen s.chip peer

/-- A path is agreed (R473, R482): its keys stand and its ephemeral key is erased. -/
def pathAgreed (s : State) (p : Path) (pub : Bytes) : Path := { p with ready := true, keys := s.agreedKeys p.peer p.part p.gen p.eph pub, eph := [] }

/-- The entry of the path store that a new one evicts: the least recently used with no unacknowledged frame (R486). -/
def evictable (s : State) : Option Path :=
  s.net.paths.find? (fun p => !s.inGroup p.peer && p.ready &&
    !s.net.links.any (fun l => l.2.unacked.any (fun f => f.dst = p.peer && f.part = p.part)))

def farPaths (s : State) : Nat := (s.net.paths.filter (fun p => !s.inGroup p.peer)).length

/-- A path-store entry is made for a far path (R486); none where no entry can be evicted. -/
def pathRoom (s : State) (peer : Nat) : Option State :=
  if s.inGroup peer ∨ s.farPaths < 2048 then some s
  else match s.evictable with
    | some p => some (s.dropPaths (fun x => x = p) p.peer)
    | none => none

/-- PATH_SETUP and PATH_REPLY carry FID, Charter digest and public value (R482); chain and signature are free. (DEDUCED, log entry 80) -/
def setupPayload (s : State) (part : Nat) (eph : Bytes) : Bytes × State :=
  let d := ((s.session (s.part part).session).charter).elim [] Charter.digest
  let t := s.drawBytes 107
  (leBytes 4 (s.fidOf part) ++ (d ++ List.replicate 48 0).take 48 ++ Config.ecPublic eph ++ t.1, t.2)

/-- The key exchange of a path starts when its first frame is to be sent (R482). (DEDUCED, log entry 80) -/
def openPath (s : State) (j peer part : Nat) : State :=
  if part = 0 ∨ (s.path peer part).isSome ∨ ((s.part part).state ≠ .open_ ∧ (s.part part).state ≠ .rotating) then s
  else match s.pathRoom peer with
    | none => s
    | some s =>
      let e := s.entropyBytes 48
      let t := (e.2.onNet (fun n => { n with paths := n.paths ++ [freshPath peer part e.1] })).setupPayload part e.1
      t.2.queueOn j 9 0 0 peer 0 t.1

/-- Operations of this chip that await a chip end for the requests chosen (R482, R486, R489). -/
def endReqs (s : State) (sel : MoverOp → MoverReq → Bool) (status code : Nat) : State :=
  s.cores.foldl (fun s c => c.2.mover.foldl (fun s m =>
    match m.reqs.filter (sel m) with
    | [] => s
    | r :: rs =>
      let low := rs.foldl (fun a x => min a x.rel) r.rel
      let s := if status = 5 then (r :: rs).foldl (fun s x => s.loseBytes c.1 m x.rel x.len) s else s
      s.onOp c.1 m.slot (fun m => { (m.fail low status code) with reqs := m.reqs.filter (fun x => !sel m x) }.settle)) s) s

/-- Frames to a chip in a partition leave every queue. -/
def dropFrames (s : State) (q : Frame → Bool) : State :=
  s.onNet (fun n => { n with links := n.links.map (fun e => (e.1, { e.2 with queue := e.2.queue.filter (fun f => !q f), unacked := e.2.unacked.filter (fun f => !q f) })) })

/-- A path that cannot be agreed or stored: what waits for it ends (R482, R486). (DEDUCED, log entries 80 and 88) -/
def pathFails (s : State) (peer part status code : Nat) : State :=
  ((s.dropFrames (fun f => f.dst = peer && f.part = part)).endReqs (fun m r => m.part = part && r.chip = peer) status code).dropPaths
    (fun p => p.peer = peer && p.part = part && !p.ready) peer

/-- PATH_SETUP and PATH_REPLY are checked (R482): chain and signature, the same FID and Charter digest, the sender's DeviceID. -/
def pathAgrees (s : State) (src : Nat) (fid : BitVec 32) (digest device : Bytes) (chainOk : Bool) : Option Nat :=
  if !chainOk then none
  else (List.range 32).find? (fun p =>
    p ≠ 0 && ((s.part p).state == .open_ || (s.part p).state == .rotating) && (s.partDecl p).elim false (fun d => d.fid = fid) &&
    ((s.session (s.part p).session).charter).elim false (fun c => c.digest = digest && (List.zip c.chips c.digests).contains (src, device)))

/-! Rekey (R487). -/

/-- A side that sends under the new key, with every frame under the old one acknowledged, sends REKEY_DONE. (DEDUCED, log entry 77) -/
def rekeyAdvance (s : State) (peer part : Nat) : State :=
  match s.path peer part with
  | none => s
  | some p =>
    let old := decide (p.gen % 2 = 0)
    let left := s.net.links.any (fun e => (e.2.unacked.any (fun f => f.dst = peer && f.part = part && f.kgen == old && !unkeyed e.1 f.type)) ||
      e.2.queue.any (fun f => f.dst = peer && f.part = part && f.type = 7))
    if !p.older || p.doneSent || left then s
    else
      let s := s.onPath peer part (fun p => { p with doneSent := true })
      (s.sendTo peer 0 8 part 0 0 []).getD s

/-- Both sides are done: the old slot is zeroised. (DEDUCED, log entry 77) -/
def rekeyFinish (s : State) (peer part : Nat) : State :=
  match s.path peer part with
  | some p => if p.doneSent && p.doneGot then
      s.onPath peer part (fun p => { p with older := false, oldKeys := [], rekey := .none, doneSent := false, doneGot := false }) else s
  | none => s

/-- The next generation is derived into the other slot; this side sends under it from now on. (DEDUCED, log entry 77) -/
def rekeySwitch (s : State) (peer part : Nat) (toward : Rekey) (eph pub : Bytes) : State :=
  s.onPath peer part (fun p => { p with gen := p.gen + 1, older := true, oldKeys := p.keys, keys := s.agreedKeys peer part (p.gen + 1) eph pub, eph := [], tx := (0, 0), rx := (0, 0), rekey := toward, doneSent := false, doneGot := false })

/-- A signed public value in a frame (R487): the bytes of its signature are free. -/
def sendSigned (s : State) (peer part type : Nat) (eph : Bytes) : State :=
  let t := s.drawBytes 159
  (t.2.sendTo peer 0 type part 0 0 (Config.ecPublic eph ++ t.1)).getD t.2

/-! Absence (R488, R489). -/

/-- Where a frame of a failed link goes: the next usable link of its path (R485). -/
def otherLink (s : State) (j dst : Nat) : Option Nat :=
  let ls := if s.inGroup dst then (List.range 4).map (fun i => j / 4 * 4 + (j + i) % 4) else (List.range 8).map (fun i => 28 + (j - 28 + i) % 8)
  ls.find? (fun k => k ≠ j && s.linkUsable k && !(!s.inGroup dst && s.net.far.contains (dst, k - 28)))

/-- Frames that belong to one link alone. -/
def linkOwn (f : Frame) : Bool := [1, 4, 5, 0x0C].contains f.type

/-- Frames of a link chosen by `q` move in their order before the frames of another link of their path; with none up their operations end (R485). (DEDUCED, log entry 133) -/
def moveFrames (s : State) (j : Nat) (q : Frame → Bool) : State :=
  let l := s.link j
  let all := (l.unacked ++ l.queue).filter (fun f => q f && !linkOwn f)
  let s := s.setLink j { l with unacked := l.unacked.filter (fun f => !q f), queue := l.queue.filter (fun f => !q f) }
  all.reverse.foldl (fun s f =>
    match s.otherLink j f.dst with
    | some k => s.onLink k (fun l => { l with queue := f :: l.queue })
    | none => s.endReqs (fun _ r => r.chip = f.dst) 5 0x3009) s

/-- Loans to a lender are lost (R368). (DEDUCED, log entry 87) -/
def loanLost (s : State) (pos : Nat) : State :=
  let lost := s.crown.loans.filter (fun l => l.lender = pos)
  let s := s.lendCancel pos
  let back := s.crown.copies.filter (fun c => match c.kind with | .recall _ _ l _ => l = pos | _ => false)
  let s := back.foldl (fun s c => s.eraseFree c.dst) s
  let s := s.onCrown (fun x => { x with copies := x.copies.filter (fun c => !back.contains c),
                                        loans := x.loans.map (fun l => if l.lender = pos then { l with recalling := false } else l) })
  if lost = [] then s
  else (lost.map Loan.part).eraseDups.foldl (fun s p => s.crownAsk p 0x0808 0 0) ((s.crownRaise 0x0808 pos lost.length 0).place 0xB 0 0 pos lost.length 0 0)

/-- Pages of an absent borrower are poisoned and erased (R368). -/
def guestErase (s : State) (pos : Nat) : State :=
  (s.mem.pagesOf (fun _ => true)).foldl (fun s p =>
    let r := s.mem.record p
    if (r.state.toNat = prtGuest ∨ r.state.toNat = prtPoisoned) ∧ r.vpage.toNat / 2 ^ 18 = 4096 + pos then
      s.releasePage p
    else s) s

/-- Relays to an absent lender are refused, those for an absent chip dropped (R366). -/
def relayLost (s : State) (chip : Nat) : State :=
  let mine := s.net.relays.filter (fun r => r.lender = chip)
  let s := s.onNet (fun n => { n with relays := n.relays.filter (fun r => r.lender ≠ chip ∧ r.chip ≠ chip) })
  mine.foldl (fun s r => s.replyOn r.link r.type 0 (if r.type = 0x14 then 2 else 0) r.chip (replyOpw r.core r.slot 6 0x3009) []) s

/-- A chip is declared absent (R489): Crown, Brim, the reductions and the checkpoint controller are told. (DEDUCED, log entry 87) -/
def declareAbsent (s : State) (chip : Nat) : State :=
  if s.chipAbsent chip then s
  else
    let s := if s.inGroup chip then s.onNet (fun n => { n with absent := n.absent ||| 1#8 <<< (chip % 8) }) else s.onNet (fun n => { n with farAbsent := n.farAbsent ++ [chip] })
    let s := (s.raise (if s.inGroup chip then 0x20 + s.groupBase (chip % 8) else 0x000E) 0x3009 (if s.inGroup chip then s.groupBase (chip % 8) else 28) chip 0).pushEvent 7 [chip]
    let s := ((s.dropPaths (fun p => p.peer = chip) chip).dropFrames (fun f => f.dst = chip)).endReqs (fun _ r => r.chip = chip) 5 0x3009
    let s := s.onNet (fun n => { n with eng := n.eng.filter (fun e => e.1 ≠ chip), inOps := n.inOps.filter (fun x => x.chip ≠ chip) })
    let s := s.onMem (fun m => { m with fetched := m.fetched.map (fun f => if f.chip = chip ∧ f.left ≠ 0 then { f with left := 0, code := 0x3009 } else f) })
    let s := s.relayLost chip
    let s := if s.inGroup chip then
        let s := (s.loanLost (chip % 8)).guestErase (chip % 8)
        let asked := s.crown.asks.contains (chip % 8)
        let s := s.onCrown (fun c => { c with asks := c.asks.filter (· ≠ chip % 8), offers := c.offers.filter (fun o => o.1 ≠ chip % 8) })
        if asked then s.borrowChoose else s
      else s
    let s := s.onBrim (fun b => { b with atomics := b.atomics.filter (fun a => a.1 ≠ chip) })
    let s := s.brim.nodes.foldl (fun s b => if 2 ≤ b.id.scope ∧ (s.brimChips b).contains chip then s.brimBreak b else s) s
    let s := s.red.jobs.foldl (fun s j => match s.ringPos j.part j.job with
      | some r => if r.chips.contains chip then s.redFail j.entry 0x3208 0 else s
      | none => s) s
    (List.range 8).foldl (fun s i =>
      if (s.ckptSess i).cfg.isSome && (s.ckptMembers i).contains chip then (s.leadPart i).elim s s.askRestore else s) s

/-- Whether any link of a path is up or waits out a fast retrain. -/
def pathAlive (s : State) (chip : Nat) : Bool := (s.linksTo chip).any s.linkUsable

/-- A group peer is declared absent when the last link of its path goes down (R488). (DEDUCED, log entry 87) -/
def absentIfDead (s : State) (j : Nat) : State :=
  let peer := (s.link j).peer
  if j < 28 ∧ !s.pathAlive peer then s.declareAbsent peer else s

/-- A link goes down (R485, R488). -/
def linkDown (s : State) (j code : Nat) : State :=
  if !s.linkUsable j then s
  else
    let s := (s.linkRaise j code 0).onLink j (fun l => { l with run := .down })
    (s.moveFrames j (fun _ => true)).absentIfDead j

/-- A fast retrain starts (R474). Flits not acknowledged are to come again. -/
def fastRetrain (s : State) (j : Nat) : State :=
  if (s.link j).run = .up then s.onLink j (fun l => { l with run := .fastRetrain, rxFseq := l.ackOut, held := [], rxLeft := l.ackLeft, rxLine := [] }) else s

/-- Frames leave again as they stand in the replay buffer (R475). -/
def replay (s : State) (j : Nat) : State := (s.link j).unacked.foldl (fun s f => s.emit (.frame j f)) s

/-! Training (R471 to R474). -/

/-- A full training starts (R471); the frame counters go on. (DEDUCED, log entry 89) -/
def trainStart (s : State) (j : Nat) : State :=
  s.onLink j (fun l => { Link.reset with run := .training, attempts := l.attempts, loop := l.loop, txCtr := l.txCtr, rxCtr := l.rxCtr, railCtr := l.railCtr })

/-- An attempt fails; the third in a row fails the link (R471). -/
def trainFail (s : State) (j : Nat) : State :=
  let n := (s.link j).attempts + 1
  if 3 ≤ n then (s.linkRaise j 0x3001 0).onLink j (fun l => { l with run := .failed, attempts := n })
  else (s.trainStart j).onLink j (fun l => { l with attempts := n })

def linkFails (s : State) (j code : Nat) : State := (s.linkRaise j code 0).onLink j (fun l => { l with run := .failed })

/-- The identity that R465 and R472 ask of a link's far end. -/
def identity (s : State) (j peer peerLink : Nat) : Bool :=
  if 28 ≤ j then decide (peer = 0xFFFF)
  else decide (peer = s.chip / 8 * 8 + (s.chip % 8 + 1 + j / 4) % 8 ∧ peerLink = 4 * (6 - j / 4) + j % 4)

/-- The authentication phase begins (R473): the first link of a path sends its ephemeral public key, a later one CONFIRM under the path's keys. -/
def authStart (s : State) (j : Nat) : State :=
  let peer := (s.link j).peer
  match s.path peer 0 with
  | some p => if p.ready then
      let f : Frame := ⟨0x0C, 0, decide (p.gen % 2 = 1), 0, peer, 0, [], false, (s.link j).txCtr, 0, s.clock.now % 2 ^ 32, []⟩
      (s.emit (.frame j (s.sealed j f))).onLink j (fun l => { l with txCtr := l.txCtr + 1 })
    else s.emit (.linkAuth j (Config.ecPublic p.eph))
  | none =>
    let e := s.entropyBytes 48
    (e.2.onNet (fun n => { n with paths := n.paths ++ [freshPath peer 0 e.1] })).emit (.linkAuth j (Config.ecPublic e.1))

/-- A path's partition-0 keys are agreed afresh (R473): the keys of every other partition go, and the frame counters of its links begin again. (DEDUCED, log entry 89) -/
def pathAgain (s : State) (p : Path) (pub : Bytes) : State :=
  let q := s.pathAgreed p pub
  let s := s.dropPaths (fun x => x.peer = p.peer) p.peer
  let s := (s.onNet (fun n => { n with paths := n.paths ++ [q] })).loadPaths p.peer
  (s.linksTo p.peer).foldl (fun s j => s.onLink j (fun l => { l with txCtr := 0, rxCtr := 0 })) s

/-- A link is up (R471, R478). (DEDUCED, log entry 89) -/
def trainUp (s : State) (j : Nat) : State :=
  let peer := (s.link j).peer
  let s := s.onLink j (fun l => { l with run := .up, attempts := 0, credits := creditShare })
  if j < 28 then s.onNet (fun n => { n with absent := n.absent &&& ~~~(1#8 <<< (peer % 8)) })
  else s.onNet (fun n => { n with far := n.far.filter (fun x => x.2 ≠ j - 28), farAbsent := n.farAbsent.filter (fun c => !n.far.contains (c, j - 28)) })

/-- A phase of training ends (R471 to R473); `pub` is the peer's ephemeral public key. -/
def phaseDone (s : State) (j peer peerLink : Nat) (good : Bool) (pub : Bytes) : State :=
  let l := s.link j
  let next (s : State) : State := s.onLink j (fun l => { l with phase := l.phase + 1 })
  if l.run ≠ .training ∧ l.run ≠ .authenticating then s
  else match l.phase with
    | 3 =>
      if !s.identity j peer peerLink then ((s.onLink j (fun l => { l with peer := peer, peerLink := peerLink })).linkFails j 0x3002)
      else
        let s := s.onLink j (fun l => { l with peer := peer, peerLink := if 28 ≤ j then 0 else peerLink })
        if 28 ≤ j then s.onLink j (fun l => { l with phase := 5 })
        else (s.onLink j (fun l => { l with phase := 4, run := .authenticating })).authStart j
    | 4 =>
      match s.path l.peer 0 with
      | none => s
      | some p =>
        if p.ready then s
        else if !good then s.linkFails j 0x3003
        else (s.pathAgain p pub).onLink j (fun l => { l with phase := 5, run := .training })
    | 5 => if good then s.trainUp j else s.trainFail j
    | _ => if good then next s else s.trainFail j

/-! The seal of a frame received (R481, R483). -/

/-- The chip whose path a frame comes over. -/
def rxPeer (s : State) (f : RxFrame) : Nat := if f.link < 28 then (s.link f.link).peer else f.src.toNat

/-- The key, the IV and the header of a keyed frame as received (R483): on the rails the sending link is that of the sending rail. (DEDUCED, log entry 154) -/
def rxSeal (s : State) (f : RxFrame) (type : Nat) : Bytes × Bytes × Bytes :=
  let keys := (s.path (s.rxPeer f) f.part.toNat).elim [] (fun p => p.keysOf f.kgen)
  let k := dirKey keys (decide (s.rxPeer f < s.chip))
  let from_ := if f.link < 28 then (s.link f.link).peerLink else 28 + f.rail.toNat
  (k.1, frameIv k.2 from_ f.ctr.toNat, frameHeader type f.part.toNat f.cls.toNat (ceilDiv f.payload.length 256) f.fid.toNat f.src.toNat s.chip f.time.toNat
    f.ctr.toNat f.opw.toNat f.kgen)

/-- Whether a frame's tag stands. -/
def frameTagOk (s : State) (f : RxFrame) (type : Nat) : Bool :=
  let x := s.rxSeal f type
  decide (gcmTag x.1 x.2.1 x.2.2 f.payload = f.tag)

/-- The payload of a keyed frame, deciphered. -/
def frameText (s : State) (f : RxFrame) : Bytes := let x := s.rxSeal f 0; gcmText x.1 x.2.1 f.payload

/-- CONFIRM on a later link of a path (R473). (DEDUCED, log entry 87) -/
def confirm (s : State) (f : RxFrame) : State :=
  let j := f.link.val
  let l := s.link j
  if l.run ≠ .authenticating ∨ !(s.path l.peer 0).elim false Path.ready then s
  else if s.frameTagOk f 0x0C then s.onLink j (fun l => { l with phase := 5, run := .training, rxCtr := f.ctr.toNat + 1 })
  else s.linkFails j 0x3003

/-- A fast retrain ends (R474, R488): a failed one is followed by a full training. -/
def retrainDone (s : State) (j : Nat) (good : Bool) : State :=
  if (s.link j).run ≠ .fastRetrain then s
  else if good then (s.onLink j (fun l => { l with run := .up })).replay j
  else
    let s := s.onLink j (fun l => { l with run := .down })
    let s := (s.moveFrames j (fun _ => true)).absentIfDead j
    s.trainStart j

/-! Flits (R475, R476, R480). -/

/-- Flits up to a number are acknowledged: their frames leave the replay buffer. -/
def ackTo (s : State) (j a : Nat) : State :=
  let l := s.link j
  let done := l.unacked.filter (fun f => flitBefore a f.fseq)
  let s := s.setLink j { l with unacked := l.unacked.filter (fun f => !flitBefore a f.fseq), ackFseq := a,
                                replays := if a = l.ackFseq then l.replays else 0 }
  (done.map (fun f => (f.dst, f.part))).eraseDups.foldl (fun s x => (s.rekeyAdvance x.1 x.2).rekeyFinish x.1 x.2) s

/-- Replay asked by the peer (R475). (DEDUCED, log entry 82) -/
def linkNak (s : State) (j a : Nat) : State :=
  if (s.link j).run ≠ .up then s
  else
    let s := ((s.ackTo j a).count (ctl (0x20 + j) 0x10) 1).linkRaise j 0x3004 ((a + 1) % 4096)
    let s := s.onLink j (fun l => { l with replays := l.replays + 1 })
    if 8 ≤ (s.link j).replays then ((s.linkRaise j 0x3005 ((a + 1) % 4096)).onLink j (fun l => { l with replays := 0 })).fastRetrain j
    else s.replay j

/-- Acknowledgement that R480 allows: flits at the front whose frames have all passed. -/
def ackHeld (s : State) (j : Nat) : State :=
  let l := s.link j
  let ready := l.held.takeWhile (fun h => h.2.1 = 0)
  match ready.getLast? with
  | some h => (s.setLink j { l with held := l.held.drop ready.length, ackOut := h.1, ackLeft := h.2.2 }).emit (.control j false 4 h.1)
  | none => s

/-- Frames whose TYPE the manual defines (R477, R525, R540). -/
def typeDefined (type : Nat) : Bool := decide (1 ≤ type ∧ type ≤ 0x0E ∨ 0x10 ≤ type ∧ type ≤ 0x17 ∨ 0x20 ≤ type ∧ type ≤ 0x23)

/-- The frames and pad words of a flit from a boundary on (R476), in units of 16 bytes: how many frames end in it, and what is left of the last one; none where
a boundary names an undefined TYPE. -/
def flitFrames (data : Bytes) : Nat → Nat → Nat → Option (Nat × Nat)
  | 0, at_, ends => some (ends, at_ - 16)
  | n + 1, at_, ends =>
    let type := field_ data (16 * at_) 1
    if 16 ≤ at_ then some (ends, at_ - 16)
    else if type = 0 then flitFrames data n (at_ + 1) ends
    else if !typeDefined type then none
    else
      let next := at_ + 3 + 16 * field_ data (16 * at_ + 3) 1
      flitFrames data n next (if next ≤ 16 then ends + 1 else ends)

/-- A codeword period of a link (R468 to R470): the data of its four lanes, dealt 32 bytes at a time, joins what the flits take. -/
def pcsPeriod (s : State) (j : Nat) (words : List (List (BitVec 10))) : State :=
  let lanes := ((s.link j).past.zip words).map (fun x => laneData x.1 (x.2.map BitVec.toNat))
  let line := (List.range 20).flatMap (fun i => lanes.flatMap (fun x => (x.2.1.getD i []).map (fun b => (b, x.2.2.isNone))))
  let s := s.onLink j (fun l => { l with past := lanes.map (fun x => x.1), rxLine := l.rxLine ++ line })
  (s.count (ctl (0x20 + j) 8) (lanes.foldl (fun n x => n + x.2.2.getD 0) 0)).count (ctl (0x20 + j) 0xC) (lanes.filter (fun x => x.2.2.isNone)).length

/-- A flit slot, its bytes with their marks (R470, R475, R476). A NAK in its control word is LINK_NAK's. (DEDUCED, log entry 82) -/
def takeFlit (s : State) (j : Nat) (slot : List (Byte × Bool)) : State :=
  let bytes := slot.map Prod.fst
  let data := bytes.drop 16
  let w := leNat (bytes.take 16)
  let f (hi lo : Nat) : Nat := bitsNat w hi lo
  let l := s.link j
  let crcOk := !slot.any Prod.snd && decide (f 127 96 = crc32 (bytes.take 12 ++ data))
  let walk := flitFrames data 16 l.rxLeft (if 0 < l.rxLeft ∧ l.rxLeft ≤ 16 then 1 else 0)
  let inTurn := decide (f 11 0 = (l.rxFseq + 1) % 4096)
  let bad := crcOk && (decide (16 ≤ f 29 25 ∧ f 29 25 ≤ 30) || inTurn && walk.isNone)
  let s := if bad then s.linkRaise j 0x300F (f 11 0) else s
  if bad || !crcOk then (s.linkRaise j 0x3004 ((l.rxFseq + 1) % 4096)).emit (.control j true 4 l.rxFseq)
  else
    let s := s.ackTo j (f 23 12)
    let s := s.onLink j (fun l => { l with credits :=
      (List.zip l.credits (List.zip creditShare [f 43 32, f 55 44, f 67 56, f 79 68])).map (fun c => min c.2.1 (c.1 + c.2.2)) })
    if !inTurn then s
    else
      let e := walk.getD (0, 0)
      (s.onLink j (fun l => { l with rxFseq := f 11 0, held := l.held ++ [(f 11 0, e.1, e.2)], rxLeft := e.2 })).ackHeld j

/-- Codeword periods arrive on a link, and the next flit is taken of what has come (R468 to R476). (DEDUCED, log entry 82) -/
def linkFlit (s : State) (j : Nat) (periods : List (List (List (BitVec 10)))) : State :=
  if (s.link j).run ≠ .up then s
  else
    let s := periods.foldl (fun s w => s.pcsPeriod j w) s
    let line := (s.link j).rxLine
    if line.length < 272 then s else (s.onLink j (fun l => { l with rxLine := line.drop 272 })).takeFlit j (line.take 272)

/-! Sending (R477 to R479). -/

/-- Whether a frame's key is agreed (R482). -/
def frameKeyed (s : State) (j : Nat) (f : Frame) : Bool := unkeyed j f.type || (s.path f.dst f.part).elim false Path.ready

/-- KGEN of a frame as it leaves: an offer or its answer goes under the key being replaced (R477, R487). -/
def kgenNow (s : State) (f : Frame) : Bool :=
  match s.path f.dst f.part with
  | some p => if p.older && f.type = 7 then decide (p.gen % 2 = 0) else decide (p.gen % 2 = 1)
  | none => false

/-- Frames whose path is agreed but whose slot of this link's Cuff is empty are refused (R25, R378): the operations they serve end. (DEDUCED, log entry 83) -/
def refuseUnloaded (s : State) (j : Nat) : State :=
  ((s.link j).queue.filter (fun f => !unkeyed j f.type && s.frameKeyed j f && !s.slotLoaded (22 + j) f.part (s.kgenNow f))).foldl (fun s f =>
    ((s.onLink j (fun l => { l with queue := l.queue.erase f })).linkRaise j 0x2101 (s.link j).txCtr).endReqs
      (fun m r => decide (m.part = f.part ∧ r.chip = f.dst) && !isReply f.type) 6 0x2101) s

/-- The first frame of a class whose key stands, if its credits are there (R478). -/
def classHead (s : State) (j c : Nat) : Option Frame :=
  let l := s.link j
  match l.queue.find? (fun f => f.cls = c && s.frameKeyed j f) with
  | some f => if f.len + 1 ≤ l.credits.getD c 0 then some f else none
  | none => none

/-- Floor marks on the operation that a frame serves (R479, R523): a request marks its operation, a reply carries OK_DELAYED. (DEDUCED, log entry 84) -/
def floorMark (s : State) (f : Frame) : State × Frame :=
  if !f.floored then (s, f)
  else if isReply f.type then
    (s, if bitsNat f.opw.toNat 17 15 = 0 then { f with opw := f.opw ||| 1#64 <<< 15 } else f)
  else if f.type = 0x10 ∨ f.type = 0x13 then (s.onOp (bitsNat f.opw.toNat 47 39) (bitsNat f.opw.toNat 53 48) (fun m => { m with floored := true }), f)
  else if 0x11 ≤ f.type ∧ f.type ≤ 0x15 then (s.onOp (bitsNat f.opw.toNat 53 45) (bitsNat f.opw.toNat 59 54) (fun m => { m with floored := true }), f)
  else (s, f)

/-- Time stamps as a frame leaves (R492). -/
def stampTime (s : State) (f : Frame) : State × Frame :=
  if f.type = 4 then ({ s with clock := { s.clock with t1 := some s.clock.now } }, f)
  else if f.type = 5 then (s, { f with payload := padPayload (leBytes 8 s.clock.now) })
  else (s, f)

/-- A frame takes its slot of a link's Cuff (R377, R751); whether it stands. -/
def takeFrame (s : State) (j : Nat) (f : Frame) : State × Bool :=
  if unkeyed j f.type then (s, true) else s.takeSlot (22 + j) (2 * f.part + b2n (s.kgenNow f)) 0 0

/-- A frame leaves on a link (R477, R483); `fseq` is the flit in which it ends. -/
def sendFrame (s : State) (j fseq : Nat) (f : Frame) (floored : Bool) : State :=
  let l := s.link j
  let keyed := !unkeyed j f.type
  let a := s.floorMark { f with floored := floored }
  let b := a.1.stampTime a.2
  let s := b.1
  let g := s.sealed j { b.2 with kgen := keyed && s.kgenNow f, ctr := if keyed then l.txCtr else 0, fseq := fseq, time := s.clock.now % 2 ^ 32 }
  let s := s.setLink j { l with queue := l.queue.erase f, unacked := l.unacked ++ [g], fseq := (fseq + 1) % 4096, txCtr := if keyed then (l.txCtr + 1) % 2 ^ 64 else l.txCtr,
                                floorNext := if floored then none else l.floorNext,
                                credits := l.credits.zipIdx.map (fun c => if c.2 = f.cls then c.1 - (f.len + 1) else c.1) }
  let s := if !keyed then s else s.onPath f.dst f.part (fun p => { p with tx := (p.tx.1 + 1, p.tx.2 + g.payload.length) })
  let s := if keyed && !s.inGroup f.dst then s.onNet (fun n =>
      let mine (p : Path) : Bool := p.peer = f.dst && p.part = f.part
      { n with paths := n.paths.filter (fun p => !mine p) ++ n.paths.filter mine }) else s
  s.emit (.frame j g)

/-- The sender takes its next frame (R479): the class that the floor names, else the lowest with a frame and its credits. Key exchanges that frames wait for begin. (DEDUCED, log entry 83) -/
def frameSend (s : State) (j fseq : Nat) : State :=
  let l := s.link j
  if l.run ≠ .up ∨ ¬ (fseq + 4096 - l.fseq) % 4096 < 2048 ∨ ¬ (fseq + 4096 - l.ackFseq) % 4096 ≤ 2048 then s
  else
    let s := (l.queue.filter (fun f => !unkeyed j f.type && (s.path f.dst f.part).isNone)).foldl (fun s f => s.openPath j f.dst f.part) s
    let s := s.refuseUnloaded j
    let next : Option (Frame × Bool) := match l.floorNext.bind (s.classHead j) with
      | some f => some (f, true)
      | none => ((List.range 4).findSome? (s.classHead j)).map (fun f => (f, false))
    match next with
    | some (f, floored) => if (s.takeFrame j f).2 then s.sendFrame j fseq f floored else (s.takeFrame j f).1
    | none => s

/-! Receiving (R483, R484). -/

/-- Whether a frame's FID is that of the slot its PART and KGEN select (R445); a torn partition's slot has none (R451). -/
def fidOk (s : State) (f : RxFrame) : Bool :=
  let p := f.part.toNat
  if p = 0 then decide (f.fid = 0)
  else ((s.part p).state == .open_ || (s.part p).state == .rotating) && (s.partDecl p).elim false (fun d => d.fid = f.fid)

/-- Whether the receiving slot holds a key (R483, R486). -/
def rxKey (s : State) (f : RxFrame) : Bool :=
  (Sparse.get 0 s.keySlots (22 + f.link)).toNat.testBit (2 * f.part.toNat + b2n f.kgen) &&
  (s.path (s.rxPeer f) f.part.toNat).elim false (fun p => p.ready && (p.older || decide (p.gen % 2 = 1) == f.kgen))

def ctrOk (s : State) (f : RxFrame) : Bool :=
  let l := s.link f.link
  if f.link < 28 then decide (f.ctr.toNat = l.rxCtr)
  else match l.railCtr.find? (fun x => x.1 = f.src.toNat && x.2.1 = f.rail.toNat) with
    | some x => decide (x.2.2 < f.ctr.toNat)
    | none => true

/-- A counter or tag failure (R484). -/
def rxFails (s : State) (f : RxFrame) (code : Nat) : State :=
  let s := s.linkRaise f.link code f.ctr.toNat
  if f.again then s.linkDown f.link 0x300A else s.fastRetrain f.link

/-- A frame has passed: its counter, its credits, and the acknowledgement of its flit (R478, R480, R483). -/
def rxPassed (s : State) (f : RxFrame) (keyed : Bool) : State :=
  let j := f.link.val
  let s := s.onLink j (fun l =>
    let l := { l with held := match l.held.span (fun h => h.2.1 = 0) with
      | (a, h :: b) => a ++ (h.1, h.2.1 - 1, h.2.2) :: b
      | (a, []) => a }
    if !keyed then l
    else if j < 28 then { l with rxCtr := (f.ctr.toNat + 1) % 2 ^ 64 }
    else { l with railCtr := l.railCtr.filter (fun x => !(x.1 = f.src.toNat && x.2.1 = f.rail.toNat)) ++ [(f.src.toNat, f.rail.toNat, f.ctr.toNat)] })
  let s := if !keyed then s else s.onPath (s.rxPeer f) f.part.toNat
    (fun p => { p with rx := (p.rx.1 + 1, p.rx.2 + f.payload.length) })
  (s.emit (.control j false f.cls.toNat (f.payload.length / 256 + 1))).ackHeld j

/-- A frame arrives (R483): its checks in order, then its effect. Where `act` holds it the frame stays in the receive buffer. (DEDUCED, log entry 83) -/
def receive (s : State) (f : RxFrame) (type : Nat) (act : RxFrame → State → Taken) : State :=
  let keyed := !unkeyed f.link type
  let go (f : RxFrame) (t : State) : State := match act f t with
    | .took t => t
    | .held g => g s
  if (s.link f.link).run ≠ .up then s
  else if !keyed then go f (s.rxPassed f false)
  else if !s.fidOk f then
    let s := s.count (ctl 0x000C 0xC) 1
    if isReply type ∧ s.torn f.part.toNat then s else s.raise 0x000C 0x220F (s.part f.part.toNat).session 0 (s.part f.part.toNat).gen
  else if !s.rxKey f then (s.count (ctl (0x20 + f.link) 0x24) 1).linkRaise f.link 0x3010 f.ctr.toNat
  else if !(s.takeSlot (22 + f.link) (2 * f.part.toNat + b2n f.kgen) 0 0).2 then (s.takeSlot (22 + f.link) (2 * f.part.toNat + b2n f.kgen) 0 0).1
  else if !s.ctrOk f then s.rxFails f 0x3008
  else if !s.frameTagOk f type then s.rxFails f 0x3006
  else go { f with payload := s.frameText f } (s.rxPassed f true)

/-! Fabric time (R491 to R493). -/

/-- An offset is measured: a step before the first Charter, a slew after it. (DEDUCED, log entry 85) -/
def timeOffset (s : State) (off : Int) (source peer : Nat) : State :=
  let c := s.clock
  let c := { c with source := source, peer := peer, offset := off, locked := decide (off.natAbs ≤ 20) }
  { s with clock := if c.slewOnly then { c with slew := off } else { c with now := (Int.toNat (c.now + off)) % 2 ^ 64, slew := 0 } }

/-- Time passes by `ns`: the clock counts, and a slew takes at most 100 ppm (R493). (DESIGN CHOICE, log entry 2) -/
def timePass (s : State) (ns : Nat) : State :=
  let c := s.clock
  let most := (c.now + ns) / 10000 - c.now / 10000
  let d : Int := if c.slew < 0 then -(Int.ofNat (min most c.slew.natAbs)) else Int.ofNat (min most c.slew.natAbs)
  { s with clock := { c with now := (Int.toNat (c.now + ns + d)) % 2 ^ 64, slew := c.slew - d } }

/-! Reduction frames (R540, R547, R550, R563, R567). -/

/-- A frame of a job: dropped when the job has failed, unexpected when there is none. -/
def redJobFrame (s : State) (f : RxFrame) (act : State → RedJob → RingPos → Taken) : Taken :=
  match s.redJob f.part.toNat (bitsNat f.opw.toNat 7 0) with
  | none => .took (s.raise 0x000D 0x3209 0 (bitsNat f.opw.toNat 25 10) 0)
  | some j =>
    if j.run = .failed then .took (s.count (ctl 0x000D 0x10) 1)
    else match s.ringPos j.part j.job with
      | none => .took (s.redFail j.entry 0x3209 0)
      | some r => act s j r

/-- RED_OPEN (R540): kept for an OPEN still to come here, also while the job of that name closes. (DEDUCED, log entry 91) -/
def takeRedOpen (s : State) (f : RxFrame) : Taken :=
  let part := f.part.toNat
  let job := bitsNat f.opw.toNat 7 0
  let digest := bitsNat f.opw.toNat 63 8
  match (s.redJob part job).filter (fun j => j.run ≠ .closing), s.ringPos part job with
  | none, some r =>
    if r.neighbours.contains f.src.toNat then .took (s.onRed (fun q => { q with early := q.early ++ [⟨part, job, f.src.toNat, digest⟩] }))
    else .took (s.raise 0x000D 0x3209 0 0 0)
  | _, _ => s.redJobFrame f (fun s j r =>
      if !r.neighbours.contains f.src.toNat then .took (s.redFail j.entry 0x3209 0)
      else .took (s.redTakeOpen j.entry f.src.toNat digest))

/-- What a step of the engine leaves of a frame. -/
def redEnd (s : State) (t n : Nat) (e : RedEnd) : Taken :=
  match e with
  | .done s => .took s
  | .wait f => .held f
  | .miss => .took (s.redFail t 0x2001 n)

def takeRedReady (s : State) (f : RxFrame) : Taken :=
  s.redJobFrame f (fun s j r =>
    let w := f.opw.toNat
    let kind := bitsNat w 9 8
    let n := bitsNat w 25 10
    let from_ := if kind = 0 then decide (2 ≤ r.cols ∧ f.src.toNat = r.groupSucc) else decide (kind = 1 ∧ 2 ≤ r.rows ∧ f.src.toNat = r.fabSucc)
    if !from_ ∨ j.buckets ≤ n ∨ bitsNat w 33 26 ≠ j.roundOf n % 256 then .took (s.redFail j.entry 0x3209 n)
    else s.redEnd j.entry n (s.redTakeReady j.entry n kind r))

/-- RED_DATA (R563); `residue` counts residue mismatches of its sums (R568). (DEDUCED, log entry 91) -/
def takeRedData (s : State) (f : RxFrame) (residue : Nat) : Taken :=
  s.redJobFrame f (fun s j r =>
    let w := f.opw.toNat
    let kind := bitsNat w 9 8
    let n := bitsNat w 25 10
    let first := bitsNat w 45 26
    let count := bitsNat w 52 46
    let form := w.testBit 53
    let src := if kind = 0 ∨ kind = 3 then decide (2 ≤ r.cols ∧ f.src.toNat = r.groupPred) else decide (2 ≤ r.rows ∧ f.src.toNat = r.fabPred)
    match j.bucket n with
    | none => .took (s.redFail j.entry 0x3209 n)
    | some b =>
      if !src ∨ bitsNat w 61 54 ≠ j.roundOf n % 256 ∨ b.seen.any (fun x => decide (x.1 = kind ∧ first ≤ x.2 ∧ x.2 < first + count)) ∨ j.blocks n < first + count ∨
          (List.range count).any (fun i => !r.expects (j.blocks n) kind (first + i)) ∨ (kind = 1 ∧ !b.groupFinal) then
        .took (s.redFail j.entry 0x3209 n)
      else if form ∧ !j.vwbForm kind then .took (s.redFail j.entry 0x3205 n)
      else s.redEnd j.entry n (s.redXs j n (fun s exps =>
        match redParse (fun b => (assocGet exps b).getD 0) kind first count form f.payload with
        | none => .done (s.redFail j.entry 0x3205 n)
        | some xs =>
          let again := decide (kind ≤ 1) && residue ≠ 0
          let s1 := if again then s.redRaise j 0x320F n else s
          if again && 2 ≤ residue then .done (s1.redFail j.entry 0x3210 n)
          else
            let s1 := s1.onJob j.entry (fun j => j.onBucket n (fun y => { y with seen := y.seen ++ xs.map (fun x => (kind, x.1)) }))
            (redEach xs s1 (fun s x => s.redTakeBlock j.entry n kind r x.1 x.2)).then_ (fun s =>
              if kind = 0 then s.redGroupFinal j.entry n r else .done s))
        (if form ∧ kind ≤ 1 then (List.range count).map (first + ·) else []) []))

def takeRedAbort (s : State) (f : RxFrame) : Taken :=
  s.redJobFrame f (fun s j r =>
    if !r.neighbours.contains f.src.toNat then .took (s.redFail j.entry 0x3209 0)
    else .took ((s.onJob j.entry (fun j => { j with aborted := j.aborted ++ [f.src.toNat] })).redFail j.entry (bitsNat f.opw.toNat 23 8) 0))

/-! Teardown frames (R453). -/

/-- A teardown frame of a session that this chip holds begins its teardown, which tells the peers in turn. -/
def takeTeardown (s : State) (f : RxFrame) : State :=
  let p := f.part.toNat
  if p = 0 ∨ (s.part p).state = .free then s else s.beginTeardown (s.part p).session 4

end State
end Sys2Proof.Machine
end

