-- ==== Sys2Proof/Machine/ExecNet.lean ====
section
/-!
DEFINITION. Commands of the links, the paths and fabric time, and the frames that arrive (R363, R453, R464 to R526, R540 to R567, R590).
-/
namespace Sys2Proof.Machine
namespace State

/-- A write of `LINKj.CTRL` from the host is refused (R496). -/
def linkCtrl (s : State) (who : Writer) (j : Nat) (f : State → State) : State :=
  if who = .host then s.refuse who (ctl (0x20 + j) 0) 0x300D else f s

/-- A link may be in service (R471): enabled, in no loopback run (R765), the chip neither open nor in board test (R774, R778). (DEDUCED, log entry 81) -/
def linkOn (s : State) (j : Nat) : Bool :=
  (s.reg (ctl (0x20 + j) 0)).toNat.testBit 0 && decide ((s.link j).loop.mode = 0) && !s.test.opened && !s.test.bscan

/-- A link leaves service with its frames moved (R496): ENABLE 0, or a full training ordered. (DEDUCED, log entry 81) -/
def linkLeave (s : State) (j : Nat) (toward : LinkRun) : State :=
  let was := s.linkUsable j
  let s := (s.onLink j (fun l => { l with run := toward })).moveFrames j (fun _ => true)
  if was then s.absentIfDead j else s

/-- `LINKj.CTRL.ENABLE` (R496); during a loopback run ENABLE 1 is latched (R765). (DEDUCED, log entry 81) -/
def linkEnable (s : State) (j : Nat) (on : Bool) : State :=
  if (s.link j).loop.mode ≠ 0 then s.onLink j (fun l => { l with loop := { l.loop with latched := on } })
  else
  let s := s.setReg (ctl (0x20 + j) 0) (if on then 1 else 0)
  if on || (s.link j).run == .off then s else s.linkLeave j .off

/-- `LINKj.CTRL.TRAIN` (R496). -/
def linkTrain (s : State) (j : Nat) : State :=
  if !s.linkOn j then s else ((s.linkLeave j .down).onLink j (fun l => { l with attempts := 0 })).trainStart j

/-- LINK_TRAIN_START (R471): an enabled link that is out of service. -/
def linkTrainStart (s : State) (j : Nat) : State :=
  if s.linkOn j ∧ ((s.link j).run = .off ∨ (s.link j).run = .down) then s.trainStart j else s

/-- HEARTBEAT_SEND (R488). (DESIGN CHOICE, log entry 129) -/
def heartbeats (s : State) : State :=
  (List.range 36).foldl (fun s j => if (s.link j).run = .up then s.queueOn j 1 0 0 (s.link j).peer 0 [] else s) s

/-- LINK_SILENCE (R488); `path`: no link of the path has brought a heartbeat for 1 ms either. -/
def linkSilence (s : State) (j : Nat) (path : Bool) : State :=
  let peer := (s.link j).peer
  let s' := s.linkDown j 0x300A
  if path ∧ j < 28 ∧ s.linkUsable j ∧ !(s'.linksTo peer).any (fun k => (s'.link k).run = .fastRetrain) then s'.declareAbsent peer else s'

/-- RETRAIN_TIMEOUT (R488): every link of a group path that is not down waits out a fast retrain. -/
def retrainTimeout (s : State) (pos : Nat) : State :=
  let c := s.groupChip pos
  let ls := s.linksTo c
  if pos ≠ s.chip % 8 ∧ ls.any (fun j => (s.link j).run = .fastRetrain) ∧ ls.all (fun j => (s.link j).run ≠ .up) then s.declareAbsent c else s

/-- UNREACHABLE (R488): a chip behind a rail, then behind every rail. (DEDUCED, log entry 87) -/
def unreachable (s : State) (j chip : Nat) : State :=
  if j < 28 ∨ s.inGroup chip ∨ s.net.far.contains (chip, j - 28) then s
  else
    let s := (s.onNet (fun n => { n with far := n.far ++ [(chip, j - 28)] })).moveFrames j (fun f => f.dst = chip)
    if (List.range 8).all (fun r => s.net.far.contains (chip, r)) then s.declareAbsent chip else s

/-- TIME_REQ_SEND (R492): where no pulse serves, to the peer that the table of R491 names. -/
def timeReqSend (s : State) (pos : Nat) : State :=
  if s.clock.source = 1 ∨ pos = s.chip % 8 then s else (s.sendTo (s.groupChip pos) 0 4 0 0 0 []).getD s

/-- TIME_RSP (R492, R493). (DEDUCED, log entry 85) -/
def timeRsp (s : State) (f : RxFrame) : State :=
  match s.clock.t1 with
  | none => s
  | some t1 =>
    let t2 : Int := f.opw.toNat
    let t3 : Int := leNat (f.payload.take 8)
    let t4 : Int := s.clock.now
    ({ s with clock := { s.clock with t1 := none } }).timeOffset (((t2 - t1) - (t4 - t3)) / 2) 2 (f.src.toNat % 8)

/-- A SYNC_PPS pulse with its second (R491, R730). (DEDUCED, log entry 85) -/
def ppsPulse (s : State) : State :=
  match s.mgmt.ppsSecond with
  | none => s
  | some sec =>
    let s := { s with mgmt := { s.mgmt with ppsSecond := none } }
    if (s.reg (ctl 0x000E 0x10)).toNat.testBit 0 then s.timeOffset (Int.ofNat (sec * 1000000000) - Int.ofNat s.clock.now) 1 0 else s

/-- TIME_UNLOCKED (R491, R493): no source is left, or an offset that 10 s of slewing cannot remove. -/
def timeUnlocked (s : State) (lost : Bool) : State :=
  if lost then { s.raise 0x000E 0x300C 0 0 0 with clock := { s.clock with source := 0, peer := 0, locked := false } }
  else if 1000000 < s.clock.slew.natAbs then s.raise 0x000E 0x300C 0 0 0
  else s

/-- REKEY_LIMIT (R487). -/
def rekeyLimit (s : State) (peer part : Nat) : State :=
  match s.path peer part with
  | none => s
  | some p =>
    if p.ready ∧ p.rekey = .none ∧ (2 ^ 40 ≤ p.tx.1 ∨ 2 ^ 40 ≤ p.rx.1 ∨ 2 ^ 48 ≤ p.tx.2 ∨ 2 ^ 48 ≤ p.rx.2) then
      let e := s.entropyBytes 48
      (e.2.onPath peer part (fun p => { p with rekey := .offered, eph := e.1 })).sendSigned peer part 6 e.1
    else s

/-- REKEY_OFFER: the responder derives and answers; of two offers the lower chip's stands. -/
def rekeyOffer (s : State) (peer part : Nat) (pub : Bytes) : State :=
  match s.path peer part with
  | none => s
  | some p =>
    if (p.rekey = .offered ∧ s.chip < peer) ∨ p.older then s
    else
      let e := s.entropyBytes 48
      ((e.2.rekeySwitch peer part .answered e.1 pub).sendSigned peer part 7 e.1).rekeyAdvance peer part

/-- REKEY_ACCEPT: the initiator derives the same keys. -/
def rekeyAccept (s : State) (peer part : Nat) (pub : Bytes) : State :=
  match s.path peer part with
  | none => s
  | some p => if p.rekey = .offered then (s.rekeySwitch peer part .switched p.eph pub).rekeyAdvance peer part else s

def rekeyDone (s : State) (peer part : Nat) : State :=
  match s.path peer part with
  | none => s
  | some p => if p.older then (s.onPath peer part (fun p => { p with doneGot := true })).rekeyFinish peer part else s

/-- REKEY_TIMEOUT: a group path goes down and trains in full; a far path leaves the store. (DEDUCED, log entry 88) -/
def rekeyTimeout (s : State) (peer part : Nat) : State :=
  match s.path peer part with
  | none => s
  | some p =>
    if p.rekey = .none then s
    else if s.inGroup peer then
      let s := (s.linksTo peer).foldl (fun s j => s.linkDown j 0x3007) s
      let s := s.dropPaths (fun p => p.peer = peer) peer
      (s.linksTo peer).foldl (fun s j => if (s.link j).run = .down then s.trainStart j else s) s
    else (s.linkRaise 28 0x3007 0).dropPaths (fun p => p.peer = peer && p.part = part) peer

/-- PATH_SETUP (R482): it is checked and answered; none where a far path finds no room in the store. Of two exchanges at once the lower chip's stands. (DEDUCED, log entry 80) -/
def pathSetup (s : State) (f : RxFrame) (fid : BitVec 32) (digest device : Bytes) (chainOk : Bool) (pub : Bytes) : Taken :=
  let src := f.src.toNat
  match s.pathAgrees src fid digest device chainOk with
  | none => .took (s.linkRaise f.link 0x3003 f.ctr.toNat)
  | some p =>
    if (s.path src p).elim false (fun x => !x.ready) && decide (s.chip < src) then .took s
    else
    let s := s.onNet (fun n => { n with paths := n.paths.filter (fun x => !(x.peer = src && x.part = p)), far := n.far.filter (fun x => x.1 ≠ src),
                                        farAbsent := n.farAbsent.filter (· ≠ src) })
    match s.pathRoom src with
    | none => .held id
    | some s =>
      let e := s.entropyBytes 48
      let q := e.2.pathAgreed (freshPath src p e.1) pub
      let s := (e.2.onNet (fun n => { n with paths := n.paths ++ [q] })).loadPaths src
      let t := s.setupPayload p e.1
      .took (t.2.replyOn f.link 0x0A 0 0 src 0 t.1)

/-- PATH_REPLY (R482): the path is agreed, or what waits for it ends. -/
def pathReply (s : State) (f : RxFrame) (fid : BitVec 32) (digest device : Bytes) (chainOk : Bool) (pub : Bytes) : State :=
  let src := f.src.toNat
  match s.pathAgrees src fid digest device chainOk with
  | some p => s.onPath src p (fun x => if x.ready then x else s.pathAgreed x pub)
  | none =>
    let s := s.linkRaise f.link 0x3003 f.ctr.toNat
    match s.net.paths.find? (fun x => x.peer = src && !x.ready && decide (s.fidOf x.part = fid.toNat)) with
    | some x => s.pathFails src x.part 6 0x3003
    | none => s

/-- PATH_STORE_FULL (R486). -/
def pathStoreFull (s : State) (chip part : Nat) : State :=
  match s.net.links.find? (fun e => e.2.queue.any (fun f => f.dst = chip && f.part = part)) with
  | some e =>
    if part = 0 ∨ s.inGroup chip ∨ (s.path chip part).isSome ∨ (s.pathRoom chip).isSome then s
    else (s.linkRaise e.1 0x300E 0).pathFails chip part 3 0x300E
  | none => s

/-- CLASS_FLOOR (R479). -/
def classFloor (s : State) (j c : Nat) : State :=
  if (s.reg (ctl 0x000E 4)).toNat % 2 ^ 16 ≠ 0 ∧ (s.link j).queue.any (fun f => f.cls = c) then s.onLink j (fun l => { l with floorNext := some c }) else s

end State

/-! Training and the state of links. -/

def execLinkTrainStart (j : Fin 36) (s : State) : Host.Outcome State Fault Refusal := liveEng s (fun s => s.linkTrainStart j)

def execLinkTrainPhaseDone (j : Fin 36) (peer : BitVec 16) (peerLink : BitVec 6) (good : Bool) (pub : List (BitVec 8)) (s : State) :
    Host.Outcome State Fault Refusal := liveEng s (fun s => s.phaseDone j peer.toNat peerLink.toNat good pub)

def execLinkTrainPhaseTimeout (j : Fin 36) (s : State) : Host.Outcome State Fault Refusal :=
  liveEng s (fun s => if (s.link j).run = .training ∨ (s.link j).run = .authenticating then s.trainFail j else s)

def execFastRetrain (j : Fin 36) (s : State) : Host.Outcome State Fault Refusal := liveEng s (fun s => s.fastRetrain j)

def execFastRetrainDone (j : Fin 36) (good : Bool) (s : State) : Host.Outcome State Fault Refusal := liveEng s (fun s => s.retrainDone j good)

def execLinkRetrain (j : Fin 36) (who : Writer) (s : State) : Host.Outcome State Fault Refusal :=
  liveEng s (fun s => s.linkCtrl who j (fun s => s.fastRetrain j))

def execLinkTrain (j : Fin 36) (who : Writer) (s : State) : Host.Outcome State Fault Refusal :=
  liveEng s (fun s => s.linkCtrl who j (fun s => s.linkTrain j))

def execLinkEnable (j : Fin 36) (who : Writer) (on : Bool) (s : State) : Host.Outcome State Fault Refusal :=
  liveEng s (fun s => s.linkCtrl who j (fun s => s.linkEnable j on))

def execLinkSilence (j : Fin 36) (path : Bool) (s : State) : Host.Outcome State Fault Refusal := liveEng s (fun s => s.linkSilence j path)

def execCarrierLost (j : Fin 36) (s : State) : Host.Outcome State Fault Refusal := liveEng s (fun s => s.linkDown j 0x300A)

def execLockLost (j : Fin 36) (s : State) : Host.Outcome State Fault Refusal := liveEng s (fun s => s.linkDown j 0x300A)

def execRetrainTimeout (pos : Fin 8) (s : State) : Host.Outcome State Fault Refusal := liveEng s (fun s => s.retrainTimeout pos)

/-! Flits and sending. -/

def execFlitReceive (j : Fin 36) (periods : List (List (List (BitVec 10)))) (s : State) : Host.Outcome State Fault Refusal :=
  liveEng s (fun s => s.linkFlit j periods)

def execLinkNak (j : Fin 36) (ack : BitVec 12) (s : State) : Host.Outcome State Fault Refusal := liveEng s (fun s => s.linkNak j ack.toNat)

def execFrameSend (j : Fin 36) (fseq : BitVec 12) (s : State) : Host.Outcome State Fault Refusal := liveEng s (fun s => s.frameSend j fseq.toNat)

def execClassFloor (j : Fin 36) (cls : Fin 4) (s : State) : Host.Outcome State Fault Refusal := liveEng s (fun s => s.classFloor j cls)

def execHeartbeatSend (s : State) : Host.Outcome State Fault Refusal := liveEng s (fun s => s.heartbeats)

def execPathStoreFull (chip : BitVec 13) (part : BitVec 5) (s : State) : Host.Outcome State Fault Refusal :=
  liveEng s (fun s => s.pathStoreFull chip.toNat part.toNat)

/-! Frames of the links themselves. -/

def execHeartbeat (f : RxFrame) (s : State) : Host.Outcome State Fault Refusal := liveEng s (fun s => s.receive f 1 (fun _ s => .took s))

/-- HALT (R488): a group peer is absent at once. (DEDUCED, log entry 86) -/
def execHaltFrame (f : RxFrame) (s : State) : Host.Outcome State Fault Refusal :=
  liveEng s (fun s => s.receive f 2 (fun f s =>
    let s := s.linkRaise f.link 0x300B 0
    .took (if f.link < 28 then s.declareAbsent (s.link f.link).peer else s)))

def execTeardownFrame (f : RxFrame) (s : State) : Host.Outcome State Fault Refusal := liveEng s (fun s => s.receive f 3 (fun f s => .took (s.takeTeardown f)))

def execUnreachable (f : RxFrame) (chip : BitVec 13) (s : State) : Host.Outcome State Fault Refusal :=
  liveEng s (fun s => s.receive f 0x0B (fun f s => .took (s.unreachable f.link chip.toNat)))

def execConfirmFrame (f : RxFrame) (s : State) : Host.Outcome State Fault Refusal := liveEng s (fun s => s.confirm f)

def execPathSetup (f : RxFrame) (fid : BitVec 32) (digest device : List (BitVec 8)) (chainOk : Bool) (pub : List (BitVec 8)) (s : State) : Host.Outcome State Fault Refusal :=
  liveEng s (fun s => s.receive f 9 (fun f s => s.pathSetup f fid digest device chainOk pub))

def execPathReply (f : RxFrame) (fid : BitVec 32) (digest device : List (BitVec 8)) (chainOk : Bool) (pub : List (BitVec 8)) (s : State) : Host.Outcome State Fault Refusal :=
  liveEng s (fun s => s.receive f 0x0A (fun f s => .took (s.pathReply f fid digest device chainOk pub)))

def execRekeyLimit (peer : BitVec 13) (part : BitVec 5) (s : State) : Host.Outcome State Fault Refusal :=
  liveEng s (fun s => s.rekeyLimit peer.toNat part.toNat)

def execRekeyOffer (f : RxFrame) (pub : List (BitVec 8)) (s : State) : Host.Outcome State Fault Refusal :=
  liveEng s (fun s => s.receive f 6 (fun f s => .took (s.rekeyOffer f.src.toNat f.part.toNat pub)))

def execRekeyAccept (f : RxFrame) (pub : List (BitVec 8)) (s : State) : Host.Outcome State Fault Refusal :=
  liveEng s (fun s => s.receive f 7 (fun f s => .took (s.rekeyAccept f.src.toNat f.part.toNat pub)))

def execRekeyDone (f : RxFrame) (s : State) : Host.Outcome State Fault Refusal :=
  liveEng s (fun s => s.receive f 8 (fun f s => .took (s.rekeyDone f.src.toNat f.part.toNat)))

def execRekeyTimeout (peer : BitVec 13) (part : BitVec 5) (s : State) : Host.Outcome State Fault Refusal :=
  liveEng s (fun s => s.rekeyTimeout peer.toNat part.toNat)

/-! Fabric time. -/

def execTimeReqSend (pos : Fin 8) (s : State) : Host.Outcome State Fault Refusal := liveEng s (fun s => s.timeReqSend pos)

/-- TIME_REQ (R492): answered with t2; t3 is stamped as the answer leaves. -/
def execTimeReq (f : RxFrame) (s : State) : Host.Outcome State Fault Refusal :=
  liveEng s (fun s => s.receive f 4 (fun f s => .took (s.replyOn f.link 5 0 0 f.src.toNat (BitVec.ofNat 64 s.clock.now) (leBytes 8 0))))

def execTimeRsp (f : RxFrame) (s : State) : Host.Outcome State Fault Refusal := liveEng s (fun s => s.receive f 5 (fun f s => .took (s.timeRsp f)))

def execTimeUnlocked (lost : Bool) (s : State) : Host.Outcome State Fault Refusal := liveEng s (fun s => s.timeUnlocked lost)

/-- SYNC_PPS (R728 to R730): `high` tells an assertion from a release. -/
def execSyncPps (high : Bool) (s : State) : Host.Outcome State Fault Refusal :=
  liveEng s (fun s => if high then s.pinOn 3 500000000 State.ppsPulse else s.pinOff 3)

/-! Operation frames (R525, R526). -/

def execPutLines (f : RxFrame) (s : State) : Host.Outcome State Fault Refusal := liveEng s (fun s => s.receive f 0x10 (fun f s => s.takePutLines f))

def execPutBytes (f : RxFrame) (s : State) : Host.Outcome State Fault Refusal := liveEng s (fun s => s.receive f 0x11 (fun f s => s.takePutBytes f))

def execSignalFrame (f : RxFrame) (s : State) : Host.Outcome State Fault Refusal := liveEng s (fun s => s.receive f 0x12 (fun f s => s.takeSignal f))

def execGetReq (f : RxFrame) (ev : List MemEvent) (s : State) : Host.Outcome State Fault Refusal :=
  liveEng s (fun s => s.receive f 0x13 (fun f s => s.takeGet f ev))

def execGetData (f : RxFrame) (s : State) : Host.Outcome State Fault Refusal :=
  liveEng s (fun s => s.receive f 0x14 (fun f s => .took (s.takeReply f 0x14 (State.landGet f.payload))))

def execAtomicReq (f : RxFrame) (s : State) : Host.Outcome State Fault Refusal := liveEng s (fun s => s.receive f 0x15 (fun f s => s.takeAtomic f))

def execAtomicRsp (f : RxFrame) (s : State) : Host.Outcome State Fault Refusal :=
  liveEng s (fun s => s.receive f 0x16 (fun f s => .took ((s.brimReply f).getD (s.takeReply f 0x16 (State.landAtomic f.payload)))))

def execAck (f : RxFrame) (s : State) : Host.Outcome State Fault Refusal :=
  liveEng s (fun s => s.receive f 0x17 (fun f s => .took (s.takeReply f 0x17 (fun _ s _ _ => s))))

/-! Frames of Crown, Brim and the reductions. -/

def execCrownFrame (f : RxFrame) (msg : LendMsg) (s : State) : Host.Outcome State Fault Refusal :=
  liveEng s (fun s => s.receive f 0x0D (fun f s => .took (s.lendMsg (f.src.toNat % 8) msg)))

def execBrimFrame (f : RxFrame) (s : State) : Host.Outcome State Fault Refusal :=
  liveEng s (fun s => s.receive f 0x0E (fun f s => .took (s.brimFrame f.part.toNat f.opw)))

def execRedOpen (f : RxFrame) (s : State) : Host.Outcome State Fault Refusal := liveEng s (fun s => s.receive f 0x20 (fun f s => s.takeRedOpen f))

def execRedReady (f : RxFrame) (s : State) : Host.Outcome State Fault Refusal := liveEng s (fun s => s.receive f 0x21 (fun f s => s.takeRedReady f))

def execRedData (f : RxFrame) (residue : Nat) (s : State) : Host.Outcome State Fault Refusal :=
  liveEng s (fun s => s.receive f 0x22 (fun f s => s.takeRedData f residue))

def execRedAbort (f : RxFrame) (s : State) : Host.Outcome State Fault Refusal := liveEng s (fun s => s.receive f 0x23 (fun f s => s.takeRedAbort f))

end Sys2Proof.Machine
end

