-- ==== Sys2Proof/Machine/ExecPower.lean ====
section
/-!
DEFINITION. Commands of clocks, Seams, pins, power, the rail sequencer and the Visor (R708 to R735, R752 to R759, R794 to R796).
-/
namespace Sys2Proof.Machine
namespace State

/-! The Visor (R753 to R759). -/

def vUnit (s : State) (u : Nat) : VisorUnit := Sparse.get VisorUnit.reset s.visor.units u
def setUnit (s : State) (u : Nat) (x : VisorUnit) : State := { s with visor := { s.visor with units := Sparse.set VisorUnit.reset s.visor.units u x } }

/-- Path-delay monitors of a unit (R752). -/
def monitors (u : Nat) : Nat := if u < 16 then 12 else if u = 16 then 24 else 8

def points (u : Nat) : List Nat := if u < 16 then List.range 15 else [0]

/-- V_start (R723, R754). -/
def vStart (u k : Nat) : Nat := if u < 16 then startMv k else if u = 16 then 750 else 800

/-- A planned voltage in mV, before the bound of R755: Δ and ρ in fs (R754). None goes below V_start. (DESIGN CHOICE, log entry 9) -/
def planFor (delta : Int) (num days period u k : Nat) : Nat :=
  vStart u k + 5 * ceilDiv ((delta * days + num * period).toNat * Config.sensitivity u k) (days * 5000000)

/-- Growth of a unit's Δ per day since its last plan, as a fraction; 0 where it is negative or there is no earlier plan (R754). (DEDUCED, log entry 118) -/
def growth (x : VisorUnit) (days : Nat) : Nat × Nat :=
  match x.planned with
  | some p => if days ≤ x.planDay then (x.rateNum, x.rateDays) else ((x.delta - p).toNat, days - x.planDay)
  | none => (0, 1)

/-- One unit's new plan (R754, R755). (DESIGN CHOICE, log entry 117; DEDUCED, log entry 118) -/
def planUnit (s : State) (u : Nat) : State × List (Nat × Nat × Nat) :=
  let x := s.vUnit u
  let rate := growth x s.visor.days
  let s := s.setUnit u { x with planned := some x.delta, planDay := s.visor.days, rateNum := rate.1, rateDays := rate.2, overSince := none }
  let period := s.regField (ctl 6 0) 7 0
  (points u).foldl (fun acc k =>
    let v := planFor x.delta rate.1 rate.2 period u k
    let most := vStart u k + 75
    if most < v then
      let s := (acc.1.raise 6 0x700C u v k).pushEvent 0 [u, k, 0x700C]
      let s := { s with visor := { s.visor with retired := s.visor.retired.filter (· ≠ (u, k)) ++ [(u, k)] } }
      (if u < 16 then s.lowerFmax u (k - 1) else s, acc.2 ++ [(u, k, most)])
    else (acc.1, acc.2 ++ [(u, k, v)])) (s, [])

/-- A re-plan of some units (R756); causes: 1 period, 2 alarm, 3 RUN, 4 boot. (DESIGN CHOICE, log entry 117) -/
def replan (s : State) (us : List Nat) (cause : Nat) : State :=
  let t := us.foldl (fun acc u => let x := acc.1.planUnit u; (x.1, acc.2 ++ x.2)) (s, [])
  let s := t.1.raise 6 0x700B 0 0 0
  let old := match s.visor.fresh with | some f => f.1.filter (fun (e : Nat × Nat × Nat) => !us.contains e.1) | none => []
  let s := { s with visor := { s.visor with fresh := some (old ++ t.2, cause) } }
  if us.length = 18 then { s with visor := { s.visor with days := 0, units := s.visor.units.map (fun (u : Nat × VisorUnit) => (u.1, { u.2 with planDay := 0 })) } } else s

/-- A unit's Δ against its plan's allowance (R757), all in fs. (DEDUCED, log entry 118) -/
def margin (s : State) (u : Nat) : State :=
  let x := s.vUnit u
  let alarm := 1000 * s.regField (ctl 6 0) 12 8
  let period := s.regField (ctl 6 0) 7 0
  match x.planned with
  | none => s
  | some p =>
    let exceeds (k : Nat) : Bool := decide ((p + (k * alarm : Nat)) * x.rateDays + (x.rateNum * period : Nat) ≤ x.delta * x.rateDays)
    if !exceeds 1 then s.setUnit u { x with overSince := none }
    else
      let s := if u < 16 && exceeds 2 then s.onRegPwr u (fun g => { g with alarm := true }) else s
      match x.overSince with
      | none => s.setUnit u { x with overSince := some s.clock.now }
      | some t => if s.clock.now < t + 1000000000 then s else (s.raise 6 0x700A u (x.delta.toNat / 100) 0).replan [u] 2

/-- Voltage, temperature and point of a unit, by which its monitors' readings are normalised (R753). (DESIGN CHOICE, log entry 117) -/
def visorPlace (s : State) (u : Nat) : Nat × Nat × Nat :=
  if u < 16 then let g := s.regPwr u; (g.mv, g.temp, g.point) else (s.planMv u 0, s.pwr.logic, 0)

/-- A monitor's degradation (R753): its normalised reading less its fused value. -/
def monitorDelta (s : State) (u m reading : Nat) : Int :=
  let x := s.visorPlace u
  Config.normalDelay u m reading x.1 x.2.1 x.2.2 - Config.fusedDelay u m

/-- One monitor against its unit's ring oscillators (R753): excluded once it has been more than 5 ps away for a whole hour. -/
def doubt (s : State) (u m : Nat) (far : Bool) : State :=
  if !far then { s with visor := { s.visor with doubts := s.visor.doubts.filter (fun d => d.1 ≠ (u, m)) } }
  else
    match s.visor.doubts.find? (fun d => d.1 = (u, m)) with
    | none => { s with visor := { s.visor with doubts := s.visor.doubts ++ [((u, m), s.clock.now)] } }
    | some d =>
      if s.clock.now < d.2 + 3600000000000 then s
      else { s.raise 6 0x700F u m 0 with visor := { s.visor with excluded := s.visor.excluded ++ [(u, m)], doubts := s.visor.doubts.filter (fun d => d.1 ≠ (u, m)) } }

/-- One unit's readings (R753): monitors that disagree, the greatest Δ over the valid ones, its mean over the last second, the bound of a region with few
monitors, and the margin (R757). -/
def unitSample (s : State) (u : Nat) (readings rings : List (Nat × Nat)) : State :=
  let place := s.visorPlace u
  let implied := Config.ringDelta u rings place.1 place.2.1 place.2.2
  let ds := (readings.filter (fun r => r.1 < monitors u)).map (fun r => (r.1, s.monitorDelta u r.1 r.2))
  let s := ds.foldl (fun s d => if s.visor.excluded.contains (u, d.1) || rings.isEmpty then s else s.doubt u d.1 (decide (5000 < (d.2 - implied).natAbs))) s
  let valid : Nat := monitors u - (s.visor.excluded.filter (fun b => b.1 = u)).length
  let x := { s.vUnit u with valid := valid }
  let x := match (ds.filter (fun d => !s.visor.excluded.contains (u, d.1))).map Prod.snd with
    | [] => x
    | d :: rest =>
      let samples := newest 100 (x.samples ++ [rest.foldl max d])
      { x with samples := samples, delta := samples.foldl (· + ·) 0 / samples.length }
  let s := s.setUnit u x
  let s := if decide (u < 16) && decide (valid < 6) then s.lowerFmax u 12 else s
  s.margin u

/-- VISOR_SAMPLE (R753): readings of path-delay monitors in ps and counts of ring oscillators (unit, which, value); powered days since the last plan, as AON
counts them (R756). (DESIGN CHOICE, log entry 117) -/
def visorSample (s : State) (days : Nat) (readings rings : List (Nat × Nat × Nat)) : State :=
  let s := { s with visor := { s.visor with days := min days 255 } }
  let s : State := (List.range 18).foldl (fun (s : State) u =>
    let of (l : List (Nat × Nat × Nat)) : List (Nat × Nat) := (l.filter (fun r => r.1 = u)).map Prod.snd
    if (of readings).isEmpty then s else s.unitSample u (of readings) (of rings)) s
  if s.visor.starting ∧ s.visor.fresh.isNone ∧ s.boot.ready then s.replan (List.range 18) 4 else s

/-- VISOR_PERIOD (R756). -/
def visorPeriod (s : State) (days : Nat) : State :=
  if days < s.regField (ctl 6 0) 7 0 then s
  else ({ s with visor := { s.visor with days := min days 255 } }).replan (List.range 18) 1

/-- `VISOR.CTRL.RUN` (R756, R762). -/
def visorRun (s : State) (who : Writer) : State :=
  match who with
  | .host => s.refuse who (ctl 6 0) 0x700E
  | .boot => s.refuse who (ctl 6 0) 0x700E
  | _ => s.replan (List.range 18) 3

/-- VISOR_PLAN_APPLY (R756, R758, R759): unit by unit the voltage alone moves; the plan goes to flash, where the write may fail, and a report is made. (DEDUCED, log entries 118 and 132) -/
def planApply (s : State) (flashOk : Bool) : State :=
  match s.visor.fresh with
  | none => s
  | some (es, cause) =>
    let us := (es.map Prod.fst).eraseDups
    let n := s.visor.report + 1
    let s := { s with visor := { s.visor with fresh := none, plan := s.visor.plan.filter (fun (e : Nat × Nat × Nat) => !us.contains e.1) ++ es, starting := false, report := n,
                                              reportTime := s.clock.now, reportCause := cause } }
    let s := s.planStore flashOk
    let s := us.foldl (fun s u => if u < 16 then s.onRegPwr u (fun g => { g with alarm := false, mv := s.planMv u g.point }) else s) s
    s.pushEvent 10 [n]

/-- What the Visor's report says (R759): number, time, cause, then each unit's Δ and ρ and valid monitors, the plan, the retired points. -/
def visorReport (s : State) : List Nat :=
  [s.visor.report, s.visor.reportTime, s.visor.reportCause] ++
  (List.range 18).flatMap (fun u => let x := s.vUnit u; [x.delta.toNat / 100, x.rateNum / max x.rateDays 1, x.valid]) ++
  s.visor.plan.flatMap (fun e => [e.1, e.2.1, e.2.2]) ++ s.visor.retired.flatMap (fun e => [e.1, e.2])

/-! A region's regulator and the crystal. -/

/-- VR_FAULT (R716). -/
def vrFault (s : State) (r mv : Nat) : State := (s.raise 5 0x7008 r mv (s.regPwr r).point).holdRegion r 0x7008

/-- XTAL_FAIL (R708). -/
def xtalFail (s : State) : State := (s.onPwr (fun p => { p with backup := true })).beginHalt 4 0x6006 1 0 0

/-- PERST# (R675, R728). -/
def perstPin (s : State) (low : Bool) : State :=
  if low then s.pinOn 2 0 (fun s => s.pcieReset) else s.pinOff 2

/-- THROTTLE_N (R728). -/
def throttlePin (s : State) (low : Bool) : State :=
  let s := if low then s.pinOn 4 1000000 id else s.pinOff 4
  (List.range 16).foldl (fun s r => s.dvfs r) s

end State

/-- What keeps running after a halt (R408). -/
def aon (s : State) (f : State → State) : Host.Outcome State Fault Refusal := .next (f s)

/-- PLL_LOCK (R709). -/
def execPllLock (d : Fin 26) (mhz : Nat) (s : State) : Host.Outcome State Fault Refusal := live s (fun s => s.pllLock d mhz)

/-- PLL_UNLOCK (R709). -/
def execPllUnlock (d : Fin 26) (mhz : Nat) (s : State) : Host.Outcome State Fault Refusal := liveEng s (fun s => s.pllUnlock d mhz)

/-- XTAL_FAIL (R708). -/
def execXtalFail (s : State) : Host.Outcome State Fault Refusal := live s (fun s => s.xtalFail)

/-- SEAM_STALL (R715). -/
def execSeamStall (near far : Fin 26) (s : State) : Host.Outcome State Fault Refusal := liveEng s (fun s => s.seamStall near far)

/-- SEAM_RELEASE (R713). -/
def execSeamRelease (d : Fin 26) (s : State) : Host.Outcome State Fault Refusal := live s (fun s => s.seamRelease d)

/-- VR_FAULT (R716). -/
def execVrFault (rg : BitVec 4) (mv : Nat) (s : State) : Host.Outcome State Fault Refusal := liveEng s (fun s => s.vrFault rg.toNat mv)

/-- DVFS_CHANGE (R722, R724). -/
def execDvfsChange (rg : BitVec 4) (s : State) : Host.Outcome State Fault Refusal := live s (fun s => s.dvfs rg.toNat)

/-- POWER_SAMPLE (R726): mV and mA of rails 0 to 10. -/
def execPowerSample (readings : List (Nat × Nat)) (s : State) : Host.Outcome State Fault Refusal := live s (fun s => s.powerSample (readings.take 11))

/-- THERMAL_SAMPLE (R727): tenths of a degree of the regions, LD, SMD and the stacks. -/
def execThermalSample (regions : List Nat) (ld smd : Nat) (dramStacks : List Nat) (s : State) : Host.Outcome State Fault Refusal :=
  aon s (fun s => s.thermalSample (regions.take 16) ld smd (dramStacks.take 8))

/-- COLD_RST_N (R718). -/
def execColdRstN (low : Bool) (s : State) : Host.Outcome State Fault Refusal := aon s (fun s => s.coldPin low)

/-- PWRGD (R728). -/
def execPwrgd (low : Bool) (s : State) : Host.Outcome State Fault Refusal := aon s (fun s => s.pwrgdPin low)

/-- PERST# (R728). -/
def execPerst (low : Bool) (s : State) : Host.Outcome State Fault Refusal := live s (fun s => s.perstPin low)

/-- THROTTLE_N (R728). -/
def execThrottleN (low : Bool) (s : State) : Host.Outcome State Fault Refusal := live s (fun s => s.throttlePin low)

/-- INPUT_STUCK (R729). -/
def execInputStuck (pin : Fin 5) (s : State) : Host.Outcome State Fault Refusal := live s (fun s => s.pinStuck pin)

/-- VISOR_SAMPLE (R753, R757). -/
def execVisorSample (days : Nat) (readings rings : List (Nat × Nat × Nat)) (s : State) : Host.Outcome State Fault Refusal :=
  aon s (fun s => s.visorSample days readings rings)

/-- VISOR_PERIOD (R756). -/
def execVisorPeriod (days : Nat) (s : State) : Host.Outcome State Fault Refusal := aon s (fun s => s.visorPeriod days)

/-- VISOR_RUN (R756). -/
def execVisorRun (who : Writer) (s : State) : Host.Outcome State Fault Refusal := aon s (fun s => s.visorRun who)

/-- VISOR_PLAN_APPLY (R756). -/
def execVisorPlanApply (flashOk : Bool) (s : State) : Host.Outcome State Fault Refusal := aon s (fun s => s.planApply flashOk)

/-- POWER_UP (R794). -/
def execPowerUp (s : State) : Host.Outcome State Fault Refusal := aon s (fun s => s.powerUp)

/-- RAIL_IN_RANGE (R794). -/
def execRailInRange (s : State) : Host.Outcome State Fault Refusal := aon s (fun s => s.railInRange)

/-- RAIL_FAULT (R796). -/
def execRailFault (rail : Fin 11) (mv : Nat) (s : State) : Host.Outcome State Fault Refusal := aon s (fun s => s.railFault rail mv)

/-- RAIL_FALL (R795). -/
def execRailFall (s : State) : Host.Outcome State Fault Refusal := aon s (fun s => s.railFall)

/-- AON_POWER_LOSS (R491, R803). -/
def execAonPowerLoss (s : State) : Host.Outcome State Fault Refusal := aon s (fun s => s.aonLoss)

end Sys2Proof.Machine
end

