-- ==== Sys2Proof/Machine/ExecUpdate.lean ====
section
/-!
DEFINITION. Commands of the update engine (R275 to R301).
-/
namespace Sys2Proof.Machine
namespace State

/-- A command of the window acts where it is ready; otherwise nothing changes. -/
def ueDo (s : State) (r k : Nat) (ok : UeCmd → Bool) (f : State → UeCmd → State) : State :=
  match s.ueReady r k ok with
  | some c => f s c
  | none => s

/-- A write of UE_CTRL (R92, R301). -/
def ueCtrl (s : State) (r : Nat) (who : Writer) (f : UpdateEngine → UpdateEngine) : State :=
  if outside who then s.refuse who (ctl (regionBlock r) 0x700) 0x1006 else s.onUe r f

end State

/-- UE_SLOT_CONSUME (R276). -/
def execUeSlotConsume (rg : BitVec 4) (part : BitVec 5) (s : State) : Host.Outcome State Fault Refusal :=
  liveEng s (fun s => s.ueConsume rg.toNat part.toNat)

/-- REGISTER (R279 to R283): entry `k` of the window. -/
def execUeRegister (rg : BitVec 4) (k : BitVec 6) (s : State) : Host.Outcome State Fault Refusal :=
  liveEng s (fun s => s.ueDo rg.toNat k.toNat (fun c => c.op = 1) (fun s c => s.ueRegister rg.toNat c))

/-- RELEASE (R284). -/
def execUeRelease (rg : BitVec 4) (k : BitVec 6) (s : State) : Host.Outcome State Fault Refusal :=
  liveEng s (fun s => s.ueDo rg.toNat k.toNat (fun c => c.op = 2) (fun s c => s.ueRelease rg.toNat c))

/-- ACCUM (R285, R286). -/
def execUeAccum (rg : BitVec 4) (k : BitVec 6) (s : State) : Host.Outcome State Fault Refusal :=
  liveEng s (fun s => s.ueDo rg.toNat k.toNat (fun c => c.op = 3) (fun s c => s.ueAccum rg.toNat c))

/-- STEP (R287 to R291). -/
def execUeStep (rg : BitVec 4) (k : BitVec 6) (s : State) : Host.Outcome State Fault Refusal :=
  liveEng s (fun s => s.ueDo rg.toNat k.toNat (fun c => c.op = 4) (fun s c => s.ueStep rg.toNat c))

/-- MODE (R295). -/
def execUeMode (rg : BitVec 4) (k : BitVec 6) (s : State) : Host.Outcome State Fault Refusal :=
  liveEng s (fun s => s.ueDo rg.toNat k.toNat (fun c => c.op = 5) (fun s c => s.ueMode rg.toNat c))

/-- A slot with an undefined OP (R278). -/
def execUeUndefinedOp (rg : BitVec 4) (k : BitVec 6) (s : State) : Host.Outcome State Fault Refusal :=
  liveEng s (fun s => s.ueDo rg.toNat k.toNat (fun c => decide (c.op = 0 ∨ 6 ≤ c.op)) (fun s c => s.ueRefuse rg.toNat c 0x1107))

/-- GROUP_WRITE_BACK (R299, R300): `bad` tells of a residue mismatch. -/
def execGroupWriteBack (rg : BitVec 4) (k : BitVec 6) (bad : Bool) (s : State) : Host.Outcome State Fault Refusal :=
  liveEng s (fun s => s.groupWriteBack rg.toNat k.toNat bad)

/-- UE_CTRL.ENABLE (R301). -/
def execUeEnable (rg : BitVec 4) (who : Writer) (on : Bool) (s : State) : Host.Outcome State Fault Refusal :=
  live s (fun s => s.ueCtrl rg.toNat who (fun u => { u with enable := on }))

/-- UE_CTRL.DRAIN (R301). -/
def execUeDrain (rg : BitVec 4) (who : Writer) (s : State) : Host.Outcome State Fault Refusal :=
  live s (fun s => s.ueCtrl rg.toNat who (fun u => if u.enable && decide (u.state = 0) then { u with state := 3 } else u))

/-- UE_DRAIN_COMPLETE (R301): the window is empty. -/
def execUeDrainComplete (rg : BitVec 4) (s : State) : Host.Outcome State Fault Refusal :=
  live s (fun s => s.onUe rg.toNat (fun u => if u.state = 3 ∧ u.window = [] then { u with state := 0, enable := false } else u))

end Sys2Proof.Machine
end

