-- ==== Sys2Proof/Machine/RegRules.lean ====
section
/-!
DEFINITION. How each register of the control space takes a write (R12 to R15, R650, R815 to R819): its bits, who may write it, which values are
undefined for it, and the code of a refusal.
-/
namespace Sys2Proof.Machine

/-- Bits [hi:lo]. -/
def bitsMask (hi lo : Nat) : Nat := 2 ^ (hi + 1) - 2 ^ lo

/-- How one register takes writes: its RW, W1C, SC and RO bits, the rest being reserved; whether it is BL; whether management and the host may write it.
Crown and partition-0 firmware may wherever `fw` says so. -/
structure RegRule where
  rw : Nat
  w1c : Nat
  sc : Nat
  ro : Nat
  boot : Bool := false
  crown : Bool := false
  fw : Bool := false
  mgmt : Bool := false
  host : Bool := false
  processor : Bool := false

def roReg : RegRule := { rw := 0, w1c := 0, sc := 0, ro := 2 ^ 32 - 1 }
def blReg (mask : Nat) : RegRule := { rw := mask, w1c := 0, sc := 0, ro := 0, boot := true }
def fwReg (rw sc ro : Nat) : RegRule := { rw := rw, w1c := 0, sc := sc, ro := ro, crown := true, fw := true }
def fmReg (rw sc ro : Nat) : RegRule := { fwReg rw sc ro with mgmt := true }
def fhReg (rw sc ro : Nat) : RegRule := { fwReg rw sc ro with host := true }
/-- An ERR register whose SEEN field has `n` bits. -/
def errReg (n : Nat) : RegRule := { fwReg 0 0 (bitsMask 31 16) with w1c := bitsMask (n - 1) 0 }

/-- Offset within a run of `count` groups that stand `stride` apart. -/
def within (o base stride count : Nat) : Option Nat := if base ≤ o ∧ o < base + stride * count then some ((o - base) % stride) else none

/-- Whether an offset is one of `count` words that stand `stride` apart. -/
def oneOf (o base stride count : Nat) : Bool := within o base stride count == some 0

namespace RegRule

def prot (o : Nat) : Option RegRule :=
  if o = 0 ∨ o = 8 ∨ o = 0xC then some (blReg 1)
  else if o = 4 then some (blReg (bitsMask 20 0))
  else if o = 0x10 then some (blReg (bitsMask 8 0))
  else if oneOf o 0x40 4 12 then some (blReg (bitsMask 31 0))
  else none

def hostBlock (o : Nat) : Option RegRule :=
  if o = 0 then some (errReg 16)
  else if o = 4 ∨ o = 8 ∨ o = 0xC then some roReg
  else if o = 0x10 then some (fhReg 0 1 0)
  else match within o 0x100 0x20 8 with
    | some 0 => some (fhReg 0 2 1)
    | some 4 => some (fhReg (bitsMask 24 0) 0 0)
    | some 8 => some roReg
    | some 0xC => some (fhReg (bitsMask 31 0) 0 0)
    | some 0x10 => some (fhReg (bitsMask 31 0) 0 0)
    | some 0x14 => some roReg
    | some 0x18 => some roReg
    | some _ => none
    | none =>
      if o = 0x200 ∨ o = 0x204 ∨ o = 0x214 ∨ o = 0x218 then some (fhReg (bitsMask 31 0) 0 0)
      else if o = 0x208 then some (fhReg (bitsMask 5 0) 0 0)
      else if o = 0x20C then some (fhReg (bitsMask 29 0) 0 0)
      else if o = 0x210 then some roReg
      else match within o 0x420 0x20 31 with
        | some 0 => some (fhReg 1 0 0)
        | some 4 => some (fhReg (bitsMask 31 0) 0 0)
        | some 8 => some (fhReg (bitsMask 31 0) 0 0)
        | some 0xC => some (fhReg (bitsMask 31 0) 0 0)
        | some 0x10 => some (fhReg (bitsMask 31 0) 0 0)
        | some 0x14 => some (fhReg (bitsMask 29 0) 0 0)
        | _ => none

def pwr (o : Nat) : Option RegRule :=
  if o = 0 then some { fmReg (bitsMask 11 0) 0 0 with crown := false, fw := false }
  else if o = 0x14 then some { errReg 16 with mgmt := true, crown := false }
  else if oneOf o 4 4 6 || oneOf o 0x100 4 16 || oneOf o 0x200 4 11 then some roReg
  else if oneOf o 0x140 4 16 then some (fwReg (bitsMask 3 0) 0 0)
  else none

def visor (o : Nat) : Option RegRule :=
  if o = 0 then some { fmReg (bitsMask 12 0) (bitsMask 13 13) 0 with crown := false }
  else if o = 8 then some { errReg 6 with crown := false }
  else if o = 4 ∨ o = 0x64 ∨ oneOf o 0x10 4 18 = true then some roReg
  else if o = 0x60 then some { fmReg (bitsMask 8 0) 0 0 with crown := false }
  else none

def crownBlock (o : Nat) : Option RegRule :=
  match o with
  | 0 => some (fmReg (bitsMask 2 0) 0 0)
  | 4 => some roReg
  | 8 => some (fmReg (bitsMask 9 0) 0 0)
  | 0xC => some (fmReg (bitsMask 15 0) 0 0)
  | 0x10 => some (fmReg (bitsMask 27 0) 0 0)
  | 0x14 => some (fmReg (bitsMask 15 0) 0 0)
  | 0x18 => some (fmReg (bitsMask 20 0) 0 0)
  | 0x1C => some (fmReg (bitsMask 20 0) 0 0)
  | 0x20 => some roReg
  | 0x24 => some roReg
  | 0x28 => some (errReg 8)
  | _ => none

def prt (o : Nat) : Option RegRule :=
  match o with
  | 0 => some (fwReg (bitsMask 4 0 + bitsMask 31 16) 0 0)
  | 4 => some roReg
  | 8 => some roReg
  | 0xC => some (fwReg 0 (bitsMask 16 16) (bitsMask 5 0 + bitsMask 13 8))
  | 0x10 => some (errReg 3)
  | 0x14 => some roReg
  | _ => none

/-- The management processor writes the W1C bits (R705). -/
def management (o : Nat) : Option RegRule :=
  if o = 4 then some { errReg 16 with crown := false, fw := false, processor := true }
  else if oneOf o 0 4 8 then some roReg
  else none

def ckpt (o : Nat) : Option RegRule :=
  if o = 0 then some (fmReg (bitsMask 9 0) 0 0)
  else if o = 4 then some (errReg 16)
  else match within o 0x100 0x40 8 with
    | some k => if k < 0x20 ∧ k % 4 = 0 then some roReg else none
    | none => none

def keys (o : Nat) : Option RegRule :=
  if o = 4 then some (fmReg (bitsMask 4 0) (bitsMask 5 5) 0)
  else if o = 8 then some (errReg 16)
  else if o = 0 ∨ o = 0xC ∨ o = 0x10 ∨ o = 0x14 ∨ oneOf o 0x200 4 32 = true then some roReg
  else match within o 0x100 0x20 8 with
    | some 0x18 => some (fmReg 0 1 0)
    | some k => if k < 0x18 ∧ k % 4 = 0 then some roReg else none
    | none => none

def reduce (o : Nat) : Option RegRule :=
  if o = 4 then some (errReg 16)
  else if o = 0 ∨ o = 8 ∨ o = 0xC ∨ o = 0x10 ∨ oneOf o 0x100 4 128 = true then some roReg
  else none

def esvcom (o : Nat) : Option RegRule :=
  match o with
  | 0 => some (blReg (bitsMask 12 0))
  | 4 => some (fmReg (bitsMask 15 0) 0 0)
  | 0x10 => some (fmReg 1 0 0)
  | 0x24 => some (errReg 16)
  | 0x100 => some (fmReg (bitsMask 31 0) 0 0)
  | 0x104 => some (errReg 8)
  | _ => if oneOf o 8 4 2 || oneOf o 0x14 4 4 || oneOf o 0x108 4 6 || oneOf o 0x200 4 64 || oneOf o 0x400 4 3 then some roReg else none

def link (o : Nat) : Option RegRule :=
  match o with
  | 0 => some (fmReg 1 6 0)
  | 0x28 => some (errReg 16)
  | 0x2C => some (fmReg (bitsMask 10 0) 0 (bitsMask 12 11))
  | _ => if oneOf o 4 4 14 then some roReg else none

def cuff (o last : Nat) : Option RegRule :=
  if o = 0xC then some { fwReg 0 0 (bitsMask 3 3 + bitsMask 31 16) with w1c := bitsMask 2 0 }
  else if o % 4 = 0 ∧ o ≤ last then some roReg
  else none

def region (o : Nat) : Option RegRule :=
  match o with
  | 0x600 => some (fwReg (bitsMask 15 0) (bitsMask 16 16) 0)
  | 0x700 => some (fwReg 1 2 0)
  | 0x800 => some (fwReg (bitsMask 7 0) (bitsMask 8 8) 0)
  | 0x910 => some (errReg 8)
  | 0xA00 => some (fwReg (bitsMask 31 0) 0 0)
  | 0xB04 => some (fwReg (bitsMask 4 0) (bitsMask 5 5) (bitsMask 7 6 + bitsMask 31 16))
  | _ =>
    if oneOf o 0x604 4 3 || oneOf o 0x704 4 5 || oneOf o 0x804 4 6 || oneOf o 0x900 4 4 || oneOf o 0xA04 4 4 || o == 0xB00 then some roReg
    else match within o 0x4000 0x200 32 with
      | some k => if k < 0x180 ∧ k % 4 = 0 then some (fwReg (bitsMask 31 0) 0 0) else none
      | none => match within o 0x8000 0x200 32 with
        | some 0 => some (fwReg 5 2 0)
        | some 8 => some (fwReg (bitsMask 27 0) 0 0)
        | some 0x10 => some (fwReg (bitsMask 7 0) 0 0)
        | some 0x14 => some (errReg 5)
        | some k => if k ≤ 0x34 ∧ k % 4 = 0 then some roReg else none
        | none => none

end RegRule

/-- Whether a block is assigned (R815, R816). -/
def blockAssigned (b : Nat) : Bool :=
  decide (b ≤ 0x43 ∧ b ≠ 7 ∧ b ≠ 0xB ∧ b ≠ 0xF ∨ b = 0x48 ∨ b = 0x4A ∨ (0x50 ≤ b ∧ b ≤ 0x65))

/-- The register at a control address: none where the address is unassigned (R816). -/
def regRule (addr : Nat) : Option RegRule :=
  let b := blockOf addr
  let o := offOf addr
  if !blockAssigned b then none
  else if isRegion b then RegRule.region o
  else if 0x20 ≤ b ∧ b ≤ 0x43 then RegRule.link o
  else if 0x50 ≤ b ∧ b ≤ 0x65 then RegRule.cuff o 0x1C
  else match b with
    | 0 => if oneOf o 0 4 4 then some roReg else none
    | 1 => RegRule.prot o
    | 2 => RegRule.hostBlock o
    | 3 => RegRule.management o
    | 4 => if oneOf o 0 4 6 || oneOf o 0x100 4 25 then some roReg else none
    | 5 => RegRule.pwr o
    | 6 => RegRule.visor o
    | 8 => RegRule.crownBlock o
    | 9 => RegRule.prt o
    | 0xA => RegRule.ckpt o
    | 0xC => RegRule.keys o
    | 0xD => RegRule.reduce o
    | 0xE => RegRule.esvcom o
    | 0x48 => if oneOf o 0 4 5 then some roReg else none
    | 0x4A => if o = 0 then some roReg else none
    | _ => none

/-- The code of a refused write (R15). -/
def denyCode (who : Writer) (addr : Nat) : Nat :=
  let b := blockOf addr
  let o := offOf addr
  if isRegion b then
    if 0x800 ≤ o ∧ o ≤ 0x81B then 0x2009
    else if (0x900 ≤ o ∧ o ≤ 0x913) ∨ (0x4000 ≤ o ∧ o < 0x8000) then 0x4006
    else 0x1006
  else if 0x20 ≤ b ∧ b ≤ 0x43 then 0x300D
  else if 0x50 ≤ b ∧ b ≤ 0x65 then 0x2109
  else match b with
    | 2 => (match who with | .mgmt _ _ => 0x0201 | _ => 0x0202)
    | 3 => 0x0308
    | 4 => 0x6007
    | 5 => 0x7007
    | 6 => 0x700E
    | 8 => 0x0801
    | 9 => 0x2009
    | 0xA => 0x500A
    | 0xC => 0x220E
    | 0xD => 0x320E
    | 0xE => if 0x400 ≤ o ∧ o ≤ 0x40B then 0x4006 else 0x300D
    | 0x48 => 0x0201
    | _ => 0x010B

/-- The code of a write to an unassigned address (R816): 0 where it raises none. -/
def unassignedCode (who : Writer) (addr : Nat) : Nat :=
  match who with
  | .host => 0x0202
  | .mgmt _ _ => 0x0303
  | _ => if blockAssigned (blockOf addr) then denyCode who addr else 0

/-- Whether a writer may write a register at all. (DEDUCED, log entry 24) -/
def RegRule.allows (r : RegRule) (who : Writer) : Bool :=
  decide (r.rw + r.w1c + r.sc ≠ 0) && (match who with
    | .host => r.host
    | .mgmt _ _ => r.mgmt
    | .boot => r.boot
    | .crown => r.crown
    | .firmware => r.fw
    | .processor => r.processor)

/-- A bit that the register reserves (R13, R14). -/
def RegRule.reserved (r : RegRule) (v : Nat) : Bool := decide (v &&& (r.rw ||| r.w1c ||| r.sc ||| r.ro) ≠ v)

/-- Values undefined for a register's fields, whatever the state (R14). -/
def valueBad (addr v : Nat) : Bool :=
  let b := blockOf addr
  let o := offOf addr
  let f (hi lo : Nat) : Nat := bitsNat v hi lo
  if isRegion b then
    if o = 0xA00 then decide (f 7 0 = 0 ∨ f 15 8 = 0 ∨ f 19 16 = 0 ∨ f 23 20 = 0 ∨ f 31 24 = 0)
    else if within o 0x8000 0x200 32 = some 0x10 then decide (f 7 0 < 8)
    else false
  else if 0x20 ≤ b ∧ b ≤ 0x43 then decide (o = 0x2C ∧ (5 < f 2 0 ∨ f 10 3 = 0))
  else match b with
    | 1 => decide (o = 0x10 ∧ (f 4 0 = 0 ∨ 16 < f 4 0))
    | 2 =>
      if o = 0x208 then decide (f 5 1 < 20 ∨ 30 < f 5 1)
      else if o = 0x200 then decide (f 11 0 ≠ 0)
      else if o = 0x214 ∨ within o 0x100 0x20 8 = some 0xC then decide (f 2 0 ≠ 0)
      else match within o 0x420 0x20 31 with
        | some 4 => decide (f 11 0 ≠ 0)
        | some 0xC => decide (f 11 0 ≠ 0)
        | some 0x14 => decide (2 ^ 29 < v)
        | _ => false
    | 5 => if o = 0 then decide (v < 900 ∨ 2100 < v) else decide (oneOf o 0x140 4 16 = true ∧ v = 15)
    | 6 => if o = 0 then decide (f 7 0 = 0 ∨ f 12 8 = 0) else decide (o = 0x60 ∧ (17 < f 4 0 ∨ 14 < f 8 5 ∨ (16 ≤ f 4 0 ∧ f 8 5 ≠ 0)))
    | 8 => if o = 8 then decide (256 < v) else if o = 0xC then decide (v = 0) else decide (o = 0x10 ∧ (f 15 8 = 0 ∨ f 27 16 = 0 ∨ 512 < f 27 16))
    | 9 => decide (o = 0 ∧ (f 4 1 = 0 ∨ f 31 16 = 0))
    | 0xA => decide (o = 0 ∧ (v = 0 ∨ 1000 < v))
    | 0xE => decide (o = 0x100 ∧ (f 11 0 = 0 ∨ 4000 < f 11 0 ∨ f 31 24 = 0 ∨ 100 < f 31 24))
    | _ => false

end Sys2Proof.Machine
end

