-- ==== Sys2Proof/Machine/Test.lean ====
section
/-!
DEFINITION. Production and field test: loopback runs, the core diagnostic, the test access port, the debug token, field BIST (R764 to R786).
-/
namespace Sys2Proof.Machine
namespace State

def onTest (s : State) (f : Test → Test) : State := { s with test := f s.test }
def regTest (s : State) (r : Nat) : RegTest := Sparse.get RegTest.reset s.test.regions r
def setRegTest (s : State) (r : Nat) (t : RegTest) : State := s.onTest (fun x => { x with regions := Sparse.set RegTest.reset x.regions r t })

/-! Loopback runs of a link (R765 to R768). -/

/-- The key of a MODE 3 run lies in slot 0 of the link's Cuff, drawn afresh for each run and zeroised after it (R767). (DEDUCED, log entry 119) -/
def loopKey (s : State) (j : Nat) (on : Bool) : State :=
  if on then (s.drawKeys (cuffKind (22 + j)) 0).setSlot (22 + j) 0 true
  else (s.dropKeys (cuffKind (22 + j)) 0).setSlot (22 + j) 0 false

/-- MODE 0 ends a run (R768) and lets a latched ENABLE take effect (R765). (DEDUCED, log entry 119) -/
def loopStop (s : State) (j seconds : Nat) : State :=
  let l := s.link j
  let running := decide (l.loop.mode ≠ 0) && !l.loop.done
  let s := if running && decide (l.loop.mode = 3) then s.loopKey j false else s
  let s := if l.loop.latched then s.setReg (ctl (0x20 + j) 0) 1 else s
  s.onLink j (fun l => { l with loop := ⟨0, seconds, running, false, 0, 0, false⟩ })

/-- A write of `LINKj.LOOP` (R765, R768, R783). (DEDUCED, log entry 119) -/
def loopWrite (s : State) (j : Nat) (who : Writer) (mode seconds : Nat) : State :=
  let a := ctl (0x20 + j) 0x2C
  let l := s.link j
  if who = .host ∨ 5 < mode ∨ seconds = 0 ∨ 255 < seconds then s.refuse who a 0x300D
  else if mode = 0 then s.loopStop j seconds
  else if (s.reg (ctl (0x20 + j) 0)).toNat.testBit 0 ∨ (l.run ≠ .off ∧ l.loop.mode = 0) then s.refuse who a 0x300D
  else
    let s := if l.loop.mode = 3 ∧ !l.loop.done then s.loopKey j false else s
    let s := if mode = 3 then s.loopKey j true else s
    s.onLink j (fun l => { l with loop := ⟨mode, seconds, false, false, 0, 0, l.loop.latched⟩ })

/-- The verdict of a run (R766). -/
def loopPass (mode cnt err : Nat) : Bool := if mode = 1 then decide (err * 1000000000 ≤ cnt) else decide (err = 0)

/-- A run has lasted SECONDS (R768); MODE 4 has no end of its own, and these are its counts so far. (DEDUCED, log entry 119) -/
def loopEnd (s : State) (j cnt err : Nat) : State :=
  let l := s.link j
  if l.loop.mode = 0 ∨ l.loop.done then s
  else if l.loop.mode = 4 then s.onLink j (fun l => { l with loop := { l.loop with cnt := cnt % 2 ^ 64, err := satAdd 32 0 err } })
  else
    let s := if l.loop.mode = 3 then s.loopKey j false else s
    s.onLink j (fun l => { l with loop := { l.loop with done := true, pass := loopPass l.loop.mode cnt err, cnt := cnt % 2 ^ 64, err := satAdd 32 0 err } })

/-! The core diagnostic (R780). -/

/-- GO in `REGIONn.DIAG`. -/
def diagStart (s : State) (r core : Nat) (who : Writer) : State :=
  let n := 32 * r + core
  let a := ctl (regionBlock r) 0xB04
  if outside who || !(s.core n).ctl.quar || s.placedOn n || (s.regTest r).running.isSome then s.refuse who a 0x1006
  else s.setRegTest r { s.regTest r with core := core, running := some core, done := false, pass := false, failOp := 0 }

/-- The run ends. What it leaves in the core's buffers the manual does not say: they hold free values. (DESIGN CHOICE, log entry 120) -/
def diagEnd (s : State) (r : Nat) (pass : Bool) (failOp : Nat) : State :=
  let t := s.regTest r
  match t.running with
  | none => s
  | some core =>
    let n := 32 * r + core
    let s := s.setRegTest r { t with running := none, done := true, pass := pass, failOp := if pass then 0 else failOp }
    let b := s.drawBytes 1048576
    let w := b.2.drawWords 24576
    let s := w.2.mapCore n (fun c => ({ c with sqb := Sparse.run 0 0 b.1, acc := Sparse.run 0 0 (w.1.take 16384), v := Sparse.run 0 0 (w.1.drop 16384) }).withCtl
      (fun k => { k with diagPassed := pass }))
    if pass then s else s.raise (regionBlock r) 0x1015 n (s.core n).ctl.pc failOp

/-! The chip falls silent (R774, R778). -/

/-- Links stop, their channels to other chips with them; the host link is disabled (R485, R488, R675). (DEDUCED, log entry 121) -/
def lanesOff (s : State) : State :=
  let s := (List.range 36).foldl (fun s j =>
    let was := s.linkUsable j
    let s := (s.onLink j (fun l => { l with run := .off })).moveFrames j (fun _ => true)
    if was then s.absentIfDead j else s) s
  s.pcieReset

/-- Board test is in force until cold reset (R774). (DEDUCED, log entry 121) -/
def boardTest (s : State) : State := if s.test.bscan then s else (s.onTest (fun t => { t with bscan := true })).lanesOff

/-! The test access port (R773). -/

def boundaryCells : Nat := 2836

/-- The boundary register takes what is shifted in. -/
def shiftCells (s : State) (bits : List Bool) : State :=
  s.onTest (fun t => { t with cells := ((bits ++ List.replicate boundaryCells false).take boundaryCells) })

def tapOut (s : State) (instr : Nat) (bits : List Nat) : State := (s.onTest (fun t => { t with tap := instr })).emit (.tap instr bits)

/-- A pin-driving instruction (R774): BYPASS while a session is held. -/
def tapDrive (s : State) (instr : Nat) (f : State → State) : State :=
  if s.sessionsHeld then (s.bootRaise 0x0110 s.boot.slot 0).tapOut 0xFF []
  else f (s.boardTest.onTest (fun t => { t with tap := instr }))

/-- An instruction that drives the pins from the boundary register and captures them. -/
def tapScan (s : State) (instr : Nat) (pins shift : List Bool) : State :=
  s.tapDrive instr (fun s => (s.shiftCells shift).tapOut instr (pins.map b2n))

/-! The debug token (R775 to R779). -/

def debugReg (s : State) : BitVec 32 :=
  BitVec.ofNat 32 (b2n s.test.opened + s.test.scope.toNat * 2 + b2n s.test.bscan * 64 + b2n s.test.nonce.isSome * 128)

/-- A nonce replaces any earlier one (R776). (DESIGN CHOICE, log entry 8) -/
def challenge (s : State) : State :=
  let n := (List.range 16).map (fun i => Config.entropy (s.free + i))
  ({ s with free := s.free + 16 }.onTest (fun t => { t with nonce := some n })).tapOut 0x20 (n.map BitVec.toNat)

/-- The checks of R777 on a token and its signature. -/
def tokenOk (s : State) (b : Bytes) (sigOk : Bool) : Bool :=
  !(s.reg (ctl 1 0xC)).toNat.testBit 0 && !s.sessionsHeld &&
  decide (b.length = 192 ∧ field_ b 0 4 = 0x4742444B ∧ field_ b 4 2 = 0x0100 ∧ 0 < field_ b 6 2 ∧ field_ b 6 2 < 32) && allZeroBytes ((b.drop 72).take 24) &&
  decide ((b.drop 8).take 48 = s.boot.deviceId) && (s.test.nonce == some ((b.drop 56).take 16)) && sigOk
where
  allZeroBytes (bs : Bytes) : Bool := bs.all (· = 0)

/-- Every key of the chip is zeroised (R778). (DEDUCED, log entry 121) -/
def zeroiseAll (s : State) : State :=
  { s with keySlots := [],
           keys := { s.keys with secure := [], slotKeys := [], store := [], flipped := [], storeFlipped := [], control := 0,
                                 sessions := s.keys.sessions.map (fun (e : Nat × Session) => (e.1, { e.2 with seed := none, pairs := [], shares := [], escrow := [], ckKnown := false })) },
           ckpt := { s.ckpt with sess := s.ckpt.sess.map (fun (e : Nat × CkptSess) => (e.1, { e.2 with cks := [] })) },
           net := { s.net with paths := [] } }

/-- Every plaintext store is written with zeros (R778). -/
def clearStores (s : State) : State :=
  let s := { s with cores := s.cores.map (fun (e : Nat × Core) => (e.1, { e.2 with sqb := [], acc := [], v := [] })) }
  let s := (List.range 16).foldl (fun s r => s.onRegion r (fun g => { g with rb := [], fills := [], cuff := { g.cuff with merge := [] } })) s
  { s with host := { s.host with exports := [] },
           red := { s.red with jobs := s.red.jobs.map (fun j => { j with flight := j.flight.map (fun b => { b with sums := [], waitG := [], waitF := [] }) }) } }

/-- An accepted token opens the chip (R778). (DEDUCED, log entry 121) -/
def openChip (s : State) (scope : Nat) : State :=
  let s := (s.bootRaise 0x010F s.boot.slot 0).lanesOff
  s.zeroiseAll.clearStores.onTest (fun t => { t with opened := true, scope := BitVec.ofNat 5 scope })

/-- DBG_TOKEN (R776 to R778): the nonce is spent whatever comes of it. -/
def debugToken (s : State) (b : Bytes) (sigOk : Bool) : State :=
  let good := s.tokenOk b sigOk
  let s := s.onTest (fun t => { t with nonce := none, tap := 0x21 })
  if good then s.openChip (field_ b 6 2) else s.bootRaise 0x010E s.boot.slot 0

/-! Field BIST (R771, R772, R775). -/

/-- Every cell has been written with the patterns; a channel that fails takes its region down. (DEDUCED, log entry 121) -/
def fieldBist (s : State) (rows : List (Nat × Nat × Nat)) : State :=
  if !s.test.opened || !s.test.scope.toNat.testBit 3 then s
  else
    (s.onMem (fun m => { m with dram := [], seals := [], flips := [] })).bist rows

end State
end Sys2Proof.Machine
end

