-- ==== Sys2Proof/Machine/RegFile.lean ====
section
/-!
DEFINITION. Every register of the control space as it reads, and a write of any of them (R12 to R15, R688, R815 to R819).
-/
namespace Sys2Proof.Machine
namespace State

/-! Reads. -/

/-- A counter, or the upper half of the 64-bit one that begins four bytes below. -/
def countOf (s : State) (addr : Nat) : Nat := Sparse.get 0 s.counts addr
def countHi (s : State) (addr : Nat) : Nat := s.countOf (addr - 4) / 2 ^ 32
def errOf (s : State) (addr : Nat) : Nat := (Sparse.get (0 : BitVec 32) s.errs addr).toNat

/-- SLOTS of a Cuff (R413). -/
def slotsOf (s : State) (cuff : Nat) (hi : Bool) : Nat :=
  let w := (Sparse.get (0 : BitVec 64) s.keySlots cuff).toNat
  if hi then w / 2 ^ 32 else w

/-- HALT of a Cuff's ERR (R413). -/
def haltBit (s : State) (b : Nat) : Nat := match s.halt with | some h => if h.2 = b then 8 else 0 | none => 0

def readGlobal (s : State) (o : Nat) : Nat :=
  match o with
  | 0 => 0xB1 + 0x5120 * 2 ^ 8 + b2n s.boot.fused * 2 ^ 24
  | 4 => s.boot.phase + b2n s.boot.ready * 8 + s.boot.slot * 16 + b2n s.boot.fallback * 32 + s.boot.lastCode * 2 ^ 16
  | 8 => s.boot.held.toNat
  | 0xC => s.debugReg.toNat
  | _ => 0

def readHost (s : State) (o : Nat) : Nat :=
  match o with
  | 0 => s.errOf (ctl 2 0)
  | 4 => (s.werr.map Prod.fst).getD 0
  | 8 => (s.werr.map Prod.snd).getD 0
  | 0xC => s.countOf (ctl 2 0xC)
  | 0x10 => 0
  | 0x210 => s.host.egrTail
  | _ =>
    let r := s.ingRing ((o - 0x100) / 0x20)
    match within o 0x100 0x20 8 with
    | some 0 => b2n r.stopped
    | some 8 => r.head
    | some 0x14 => s.countOf (ctl 2 o)
    | some 0x18 => s.countOf (ctl 2 o)
    | _ => (s.reg (ctl 2 o)).toNat

def readMgmt (s : State) (o : Nat) : Nat :=
  match o with
  | 0 => b2n s.mgmt.phyUp + b2n s.mgmt.addrOk * 2 + s.mgmt.conns.length * 4 + b2n s.mgmt.i3cAddr * 32 + b2n (s.keys.secure.any (fun x => x.transport = 2 && x.finished)) * 64
  | 4 => s.errOf (ctl 3 4)
  | 8 => s.mgmt.flogSeq
  | 0x10 => s.mgmt.stage.state + s.mgmt.stage.slot * 4 + s.mgmt.stage.svn * 8
  | 0x14 => s.mgmt.bmcPlimit
  | _ => s.countOf (ctl 3 o)

/-- DESIGN CHOICE, log entry 116. -/
def readClk (s : State) (o : Nat) : Nat :=
  match o with
  | 0 => s.pwr.running.toNat
  | 4 => s.pwr.pllPend.toNat
  | 8 => s.errOf (ctl 4 8)
  | 0xC => s.countOf (ctl 4 0xC)
  | 0x10 => b2n (s.pinIgnored 3 500000000) + b2n (s.pinIgnored 4 1000000) * 2 + b2n s.pwr.backup * 4
  | 0x14 => s.countOf (ctl 4 0x14) + s.countOf (ctl 4 0x18) * 2 ^ 16
  | _ => Sparse.get 0 s.pwr.freq ((o - 0x100) / 4 + 1)

/-- `PWR.RAILi` (R793, R813): INRANGE is judged from the reading. -/
def readRail (s : State) (i : Nat) : Nat :=
  let r := Sparse.get Rail.off s.pwr.rails i
  min r.mv 4095 + min (r.ma / 1000) 1023 * 2 ^ 12 + b2n (r.good && railRange i r.mv) * 2 ^ 22 + b2n (i = 0 || s.pwr.enables.toNat.testBit (i - 1)) * 2 ^ 23

def readRegionState (s : State) (r : Nat) : Nat :=
  let g := s.regPwr r
  g.st.code + g.point * 8 + b2n g.pend * 128 + g.cause % 256 * 2 ^ 8 + min g.temp 2047 * 2 ^ 16

def readPwr (s : State) (o : Nat) : Nat :=
  match o with
  | 4 => s.powerLimit
  | 8 => min s.pwr.avg 4095 + min s.pwr.peak 4095 * 2 ^ 16
  | 0xC => s.pwr.chipPoint + b2n s.pwr.throttled * 16 + b2n ((s.pin 4).active && !(s.pin 4).stuck) * 32
  | 0x10 => min s.pwr.logic 2047 + min s.pwr.dram 2047 * 2 ^ 11
  | 0x14 => s.errOf (ctl 5 0x14)
  | 0x18 => s.countOf (ctl 5 0x18)
  | _ =>
    if 0x200 ≤ o then s.readRail ((o - 0x200) / 4)
    else if 0x100 ≤ o ∧ o < 0x140 then s.readRegionState ((o - 0x100) / 4)
    else (s.reg (ctl 5 o)).toNat

/-- `VISOR.AGEu` (R762). What the copy in flash holds, ρ here, shows from the end of boot on (R758). (DEDUCED, log entry 29) -/
def readAge (s : State) (u : Nat) : Nat :=
  let x := s.vUnit u
  min (x.delta.toNat / 100) 1023 + (if s.boot.ready then min (x.rateNum / max x.rateDays 1) 1023 * 2 ^ 10 else 0) + min x.valid 31 * 2 ^ 20

/-- The Visor's registers (R762). (DEDUCED, log entry 29) -/
def readVisor (s : State) (o : Nat) : Nat :=
  let v := s.visor
  match o with
  | 4 => (if v.fresh.isSome then 1 else if v.starting then 2 else 0) + (if s.boot.ready then min v.days 255 * 4 else 0) + v.report % 2 ^ 16 * 2 ^ 16
  | 8 => s.errOf (ctl 6 8)
  | 0x64 =>
    let u := s.regField (ctl 6 0x60) 4 0
    let k := s.regField (ctl 6 0x60) 8 5
    if s.boot.ready then min (s.planMv u k) 1023 + b2n (v.retired.contains (u, k)) * 2 ^ 10 else 0
  | _ => if o = 0 ∨ o = 0x60 then (s.reg (ctl 6 o)).toNat else s.readAge ((o - 0x10) / 4)

def readCrown (s : State) (o : Nat) : Nat :=
  match o with
  | 4 => s.usableCores + s.crown.wakePend.toNat * 2 ^ 10
  | 0x20 => s.crown.loans.length
  | 0x24 => s.countOf (ctl 8 0x24)
  | 0x28 => s.errOf (ctl 8 0x28)
  | _ => (s.reg (ctl 8 o)).toNat

def readPrt (s : State) (o : Nat) : Nat :=
  let used (half : Nat) : Nat := (s.mem.prt.filter (fun e => e.2.valid && decide (pageRegion e.1 / 8 = half))).length
  match o with
  | 4 => used 0
  | 8 => used 1
  | 0xC => min s.mem.chainMax0 63 + min s.mem.chainMax1 63 * 2 ^ 8
  | 0x10 => s.errOf (ctl 9 0x10)
  | 0x14 => s.mem.errIndex + s.mem.errGroups * 2 ^ 21
  | _ => (s.reg (ctl 9 o)).toNat

def readCkpt (s : State) (o : Nat) : Nat :=
  if o = 0 then (s.reg (ctl 0xA 0)).toNat
  else if o = 4 then s.errOf (ctl 0xA 4)
  else
    let i := (o - 0x100) / 0x40
    let k := s.ckptSess i
    let coord := k.cfg.isSome && decide (s.coordinator i = some s.chip)
    let acting := coord && decide ((s.ckptMembers i).head? ≠ some s.chip)
    match (o - 0x100) % 0x40 with
    | 0 => k.run.code + b2n coord * 8 + b2n acting * 16 + b2n ((k.cfg.map CkptCfg.everyStep).getD false) * 32 + k.settleLeft % 2 ^ 16 * 64
    | 4 => k.plan.n
    | 8 => k.plan.next
    | 0xC => k.plan.next / 2 ^ 32
    | 0x10 => min k.pause 65535 + min k.hold 65535 * 2 ^ 16
    | 0x14 => k.plan.t % 2 ^ 16
    | 0x18 => k.restores
    | _ => k.deferred

def readPart (s : State) (p : Nat) : Nat :=
  let x := s.part p
  let slots := s.slotsOf 0 false + s.slotsOf 0 true * 2 ^ 32
  x.state.code + x.session * 8 + b2n x.exhausted * 64 + b2n (slots.testBit (2 * p)) * 128 + b2n (slots.testBit (2 * p + 1)) * 256 + x.gen * 2 ^ 16

def readKeys (s : State) (o : Nat) : Nat :=
  match o with
  | 0 => (s.sessionsIn.filter (fun x => x.2.state ≠ .none)).length + ((List.range 32).filter (fun p => (s.part p).state = .rotating)).length * 16
  | 4 => (s.reg (ctl 0xC 4)).toNat
  | 8 => s.errOf (ctl 0xC 8)
  | 0xC => s.countOf (ctl 0xC 0xC)
  | 0x10 => s.countOf (ctl 0xC 0x10)
  | 0x14 => s.keys.svnFuses
  | _ =>
    if 0x200 ≤ o then s.readPart ((o - 0x200) / 4)
    else
      let i := (o - 0x100) / 0x20
      let y := s.session i
      let id := (y.charter.map Charter.sessionId).getD []
      match (o - 0x100) % 0x20 with
      | 0 => y.state.code + ((y.charter.map Charter.owners).getD []).length * 8 + y.shares.length * 2 ^ 8
      | 4 => if y.state = .none then 0 else ((s.partsOf i).map (fun p => 2 ^ p)).foldl (· + ·) 0
      | 0x18 => 0
      | k => leNat ((id.drop (k - 8)).take 4)

def readReduce (s : State) (o : Nat) : Nat :=
  match o with
  | 0 => s.red.jobs.length
  | 4 => s.errOf (ctl 0xD 4)
  | 8 => s.red.adds
  | 0xC => s.red.adds / 2 ^ 32
  | 0x10 => s.countOf (ctl 0xD 0x10)
  | _ =>
    match s.redEntry ((o - 0x100) / 0x10), o % 0x10 with
    | some j, 0 => j.run.code + j.job * 8 + j.part * 2 ^ 11 + j.round % 2 ^ 16 * 2 ^ 16
    | some j, 4 => (j.flight.map RedBucket.n).foldl min j.started + j.flight.length * 2 ^ 16
    | none, 0 => 0
    | none, 4 => 0
    | _, _ => s.countOf (ctl 0xD o)

/-- OFFSET in ns, signed and saturating (R496). -/
def offsetReg (s : State) : Nat := (BitVec.ofInt 32 (max (-2147483648) (min 2147483647 s.clock.offset))).toNat

/-- DEDUCED, log entry 29. -/
def readEsvcom (s : State) (o : Nat) : Nat :=
  match o with
  | 8 => s.clock.now
  | 0xC => s.clock.hi
  | 0x14 => s.clock.source + s.clock.peer * 4 + b2n s.clock.locked * 32
  | 0x18 => s.offsetReg
  | 0x1C => s.net.absent.toNat
  | 0x20 => (s.net.paths.filter (fun p => p.peer / 8 ≠ s.chip / 8)).length
  | 0x24 => s.errOf (ctl 0xE 0x24)
  | 0x104 => s.errOf (ctl 0xE 0x104)
  | 0x400 =>
    let die := (s.brim.nodes.filter (fun b => 1 ≤ b.id.scope)).length
    die + die * 2 ^ 10 + (s.brim.nodes.filter (fun b => 2 ≤ b.id.scope)).length * 2 ^ 20
  | _ =>
    if 0x200 ≤ o ∧ o < 0x300 then
      let x := s.part ((o - 0x200) / 8)
      if o % 8 = 0 then min x.inflight 65535 + min (x.tokens / 2 ^ 20) 1024 * 2 ^ 16 else s.countOf (ctl 0xE o)
    else if 0x104 ≤ o then s.countOf (ctl 0xE o)
    else (s.reg (ctl 0xE o)).toNat

def readLink (s : State) (j o : Nat) : Nat :=
  let l := s.link j
  let a := ctl (0x20 + j) o
  match o with
  | 0 => (s.reg a).toNat
  | 4 => (if l.loop.mode ≠ 0 then 0 else l.run.code) + b2n (28 ≤ j) * 8 + l.peer * 16 + l.peerLink * 2 ^ 20
  | 0x14 => s.slotsOf (22 + j) false
  | 0x18 => s.slotsOf (22 + j) true
  | 0x1C => l.txCtr
  | 0x20 => l.txCtr / 2 ^ 32
  | 0x28 => s.errOf a
  | 0x2C => l.loop.mode + l.loop.seconds * 8 + b2n l.loop.done * 2 ^ 11 + b2n l.loop.pass * 2 ^ 12
  | 0x30 => l.loop.cnt
  | 0x34 => l.loop.cnt / 2 ^ 32
  | 0x38 => l.loop.err
  | _ => s.countOf a

def readPcie (s : State) (o : Nat) : Nat :=
  match o with
  | 0 => s.host.speed + s.host.width * 8 + b2n s.host.flit * 2 ^ 8 + b2n s.host.ideSecure * 2 ^ 9 + b2n s.host.keyset * 2 ^ 10
  | 4 => s.slotsOf 58 false
  | 8 => s.slotsOf 58 true
  | _ => s.countOf (ctl 0x48 o)

def readMcuff (s : State) (r o : Nat) : Nat :=
  let c := (s.region r).cuff
  let a := ctl (0x50 + r) o
  match o with
  | 0 => c.trackers.length + (c.merge.filter MergeEntry.pinned).length * 32 + (c.scrubQ.length) * 2 ^ 15
  | 4 => s.slotsOf r false
  | 8 => s.slotsOf r true
  | 0xC => s.errOf a + s.haltBit (0x50 + r)
  | _ => s.countOf a

def readDcuff (s : State) (n o : Nat) : Nat :=
  let d := Sparse.get D2d.reset s.d2d n
  let a := ctl (0x60 + n) o
  match o with
  | 0 => b2n d.up + d.replay.length * 2
  | 4 => s.slotsOf (16 + n) false
  | 8 => s.slotsOf (16 + n) true
  | 0xC => s.errOf a + s.haltBit (0x60 + n)
  | 0x18 => d.txCtr
  | 0x1C => d.txCtr / 2 ^ 32
  | _ => s.countOf a

/-- STATE of an update engine (R301): 0 off, 1 idle, 2 running, 3 draining, 4 stopped, 5 held for a checkpoint. -/
def ueState (s : State) (r : Nat) : Nat :=
  let u := (s.region r).ue
  if 3 ≤ u.state then u.state
  else if !u.enable then 0
  else if u.rings.any (fun x => s.ckpt.atRest.toNat.testBit x.part) then 5
  else if u.window.isEmpty then 1 else 2

def readCore (s : State) (n o : Nat) : Nat :=
  let c := s.core n
  let k := c.ctl
  match o with
  | 0 => b2n k.enable + b2n k.quar * 4
  | 4 =>
    let map := c.poisonMap
    k.run.code + c.tilesInFlight * 8 + c.mover.length * 2 ^ 8 + b2n (decide (map ≠ 0)) * 2 ^ 15 + map * 2 ^ 16
  | 8 => k.iwinBase.toNat + k.iwinLinesM1.toNat * 2 ^ 14
  | 0xC => k.pc % 2 ^ 17
  | 0x10 => k.moverBoost.toNat
  | 0x14 => k.errFlags.toNat + k.lastCode * 2 ^ 16
  | 0x18 => k.residueCnt + k.parityCnt * 2 ^ 16
  | 0x1C => k.errLine + b2n k.errProduced * 2 ^ 14
  | 0x20 => k.busy
  | 0x24 => k.busy / 2 ^ 32
  | 0x28 => k.maccyc
  | 0x2C => k.maccyc / 2 ^ 32
  | 0x30 => k.sqbStall
  | 0x34 => k.sbFull
  | _ => 0

def readRegion (s : State) (r o : Nat) : Nat :=
  let g := s.region r
  let a := ctl (regionBlock r) o
  let t := s.regTest r
  match o with
  | 0x604 => g.lateCnt
  | 0x608 => g.worstSlot
  | 0x60C => g.worstWait + g.worstCore * 2 ^ 27
  | 0x700 => b2n g.ue.enable
  | 0x704 => s.ueState r + g.ue.window.length * 8 + g.ue.lastCode * 2 ^ 16
  | 0x708 => g.ue.table.length
  | 0x70C => g.ue.residueCnt + g.ue.refusedCnt * 2 ^ 16
  | 0x710 => g.ue.params
  | 0x714 => g.ue.params / 2 ^ 32
  | 0x80C => s.countHi a
  | 0x814 => s.countHi a
  | 0x900 => (s.brim.nodes.filter (fun b => b.id.scope = 0 && b.id.region = r)).length
  | 0x904 => Sparse.get 0 s.brim.dirtyCore r
  | 0x908 => (Sparse.get (0 : BitVec 48) s.brim.dirty r).toNat
  | 0x90C => (Sparse.get (0 : BitVec 48) s.brim.dirty r).toNat / 2 ^ 32
  | 0x910 => s.errOf a
  | 0xA04 => g.errCore + g.errLast * 2 ^ 16
  | 0xA08 => (s.quarMap >>> (32 * r)).toNat
  | 0xA0C => (s.mem.retired.filter (fun p => pageRegion p = r)).length + g.rbOff.length * 2 ^ 18
  | 0xB00 => t.bistFail.toNat + t.repaired * 2 ^ 16
  | 0xB04 => t.core + b2n t.done * 64 + b2n t.pass * 128 + t.failOp * 2 ^ 16
  | _ =>
    if 0x8000 ≤ o then s.readCore (32 * r + (o - 0x8000) / 0x200) (o % 0x200)
    else if 0x4000 ≤ o then
      let b := (s.core (32 * r + (o - 0x4000) / 0x200)).brimSlot (o % 0x200 / 8)
      if o % 8 = 0 then b.lo.toNat else b.hi.toNat
    else if o = 0x600 ∨ o = 0x800 ∨ o = 0xA00 then (s.reg a).toNat
    else s.countOf a

/-- What a control address reads as: zero where nothing is assigned (R816). (DEDUCED, log entry 29) -/
def readReg (s : State) (addr : Nat) : BitVec 32 :=
  let b := blockOf addr
  let o := offOf addr
  BitVec.ofNat 32 (match regRule addr with
    | none => 0
    | some _ =>
      if isRegion b then s.readRegion (b - 0x10) o
      else if 0x20 ≤ b ∧ b ≤ 0x43 then s.readLink (b - 0x20) o
      else if 0x50 ≤ b ∧ b ≤ 0x5F then s.readMcuff (b - 0x50) o
      else if 0x60 ≤ b ∧ b ≤ 0x65 then s.readDcuff (b - 0x60) o
      else match b with
        | 0 => s.readGlobal o
        | 1 => (s.reg addr).toNat
        | 2 => s.readHost o
        | 3 => s.readMgmt o
        | 4 => s.readClk o
        | 5 => s.readPwr o
        | 6 => s.readVisor o
        | 8 => s.readCrown o
        | 9 => s.readPrt o
        | 0xA => s.readCkpt o
        | 0xC => s.readKeys o
        | 0xD => s.readReduce o
        | 0xE => s.readEsvcom o
        | 0x48 => s.readPcie o
        | 0x4A => s.boot.flashMode + s.boot.flashMhz * 4 + b2n s.boot.sfdp * 2 ^ 10
        | _ => 0)

/-- A read: TIME_LO latches TIME_HI (R496). -/
def readLatch (s : State) (addr : Nat) : State :=
  if addr = ctl 0xE 8 then { s with clock := { s.clock with hi := s.clock.now / 2 ^ 32 } } else s

/-! Writes. -/

/-- W1C bits of an ERR register. -/
def clearErr (s : State) (addr : Nat) (bits : Nat) : State :=
  { s with errs := Sparse.update 0 s.errs addr (fun w => w &&& ~~~(BitVec.ofNat 32 bits)) }

/-- HOST registers (R660, R664, R665, R667, R670, R680). -/
def writeHost (s : State) (who : Writer) (o : Nat) (v : BitVec 32) : State :=
  let a := ctl 2 o
  let plain (s : State) : State := s.hostWrite who a false (fun s => s.setReg a v)
  let only (free : Bool) (s : State) : State := if free then plain s else s.hostWrite who a false (fun s => s.refuse who a 0x0202)
  if o = 0 then s.clearErr a (v.toNat % 2 ^ 16)
  else if o = 0x10 then (if v.toNat.testBit 0 then s.werrClear who else s)
  else if o = 0x200 ∨ o = 0x204 then only (!(s.reg (ctl 2 0x208)).toNat.testBit 0) s
  else if o = 0x20C then s.egressHead who v
  else match within o 0x100 0x20 8, within o 0x420 0x20 31 with
    | some 0, _ => if v.toNat.testBit 1 then s.ringReset ((o - 0x100) / 0x20) who else s
    | some 4, _ => s.doorbell ((o - 0x100) / 0x20) who v
    | none, some k => if k = 0 then plain s else only (!(s.reg (ctl 2 (o - k))).toNat.testBit 0) s
    | _, _ => plain s

/-- CORE_CTRL (R92, R741): QUAR, then ENABLE and DRAIN. (DEDUCED, log entry 26) -/
def writeCoreCtrl (s : State) (n : Nat) (who : Writer) (v : Nat) : State :=
  let cr := BitVec.ofNat 9 n
  if v.testBit 2 then s.writeQuar cr who true
  else
    let lifts := (s.core n).ctl.quar
    let t := s.writeQuar cr who false
    if lifts && (t.core n).ctl.quar then t
    else
      let t := t.mapCore n (fun c => if v.testBit 0 then c.enable else c.stopIssue)
      if v.testBit 1 ∧ v.testBit 0 then t.mapCore n Core.drain else t

def writeCore (s : State) (n : Nat) (who : Writer) (o : Nat) (v : BitVec 32) : State :=
  match o with
  | 0 => s.writeCoreCtrl n who v.toNat
  | 8 => s.writeIwin (BitVec.ofNat 9 n) who v
  | 0x10 => s.mapCore n (fun c => c.withCtl (fun k => { k with moverBoost := v.setWidth 8 }))
  | 0x14 => s.mapCore n (fun c => c.withCtl (fun k => { k with errFlags := k.errFlags &&& ~~~(v.setWidth 5) }))
  | _ => s

/-- A region's registers; DRAIN with ENABLE 0 in `UE_CTRL` only clears ENABLE (R301). (DEDUCED, log entry 26) -/
def writeRegion (s : State) (r : Nat) (who : Writer) (o : Nat) (v : BitVec 32) : State :=
  let a := ctl (regionBlock r) o
  let n := v.toNat
  match o with
  | 0x600 =>
    let s := s.setReg a (v &&& 0xFFFF#32)
    if n.testBit 16 then s.onRegion r (fun g => { g with lateCnt := 0, worstSlot := 0, worstWait := 0, worstCore := 0 }) else s
  | 0x700 =>
    s.ueCtrl r who (fun u =>
      let u := { u with enable := n.testBit 0 }
      if n.testBit 1 && u.enable && decide (u.state = 0) then { u with state := 3 } else u)
  | 0x800 =>
    let s := s.setReg a (v &&& 0xFF#32)
    if n.testBit 8 then s.onRegion r (fun g => { g with patrol := true }) else s
  | 0x910 => s.clearErr a (n % 2 ^ 8)
  | 0xA00 => s.setReg a v
  | 0xB04 => if n.testBit 5 then s.diagStart r (n % 32) who else s.setRegTest r { s.regTest r with core := n % 32 }
  | _ =>
    if 0x8000 ≤ o then s.writeCore (32 * r + (o - 0x8000) / 0x200) who (o % 0x200) v
    else if 0x4000 ≤ o then s.writeSlot (BitVec.ofNat 9 (32 * r + (o - 0x4000) / 0x200)) who (o % 0x200 / 8) (o % 8 = 4) v
    else s

/-- DEDUCED, log entry 26. -/
def writeLink (s : State) (j : Nat) (who : Writer) (o : Nat) (v : BitVec 32) : State :=
  let n := v.toNat
  match o with
  | 0 =>
    let s := s.linkEnable j (n.testBit 0)
    if n.testBit 2 then s.linkTrain j else if n.testBit 1 then s.fastRetrain j else s
  | 0x28 => s.clearErr (ctl (0x20 + j) o) (n % 2 ^ 16)
  | 0x2C => s.loopWrite j who (bitsNat n 2 0) (bitsNat n 10 3)
  | _ => s

/-- The highest point of a region that is not at or above a retired one (R755). (DEDUCED, log entry 27) -/
def pointCap (s : State) (r : Nat) : Nat := ((s.visor.retired.filter (fun e => e.1 = r)).map (fun e => e.2 - 1)).foldl min 14

/-- Values that the state of the device makes undefined for a register (R755). (DEDUCED, log entry 27) -/
def stateBad (s : State) (addr v : Nat) : Bool :=
  decide (blockOf addr = 5) && oneOf (offOf addr) 0x140 4 16 && decide (s.pointCap ((offOf addr - 0x140) / 4) < v)

/-- A write that its register takes, its value legal. -/
def applyWrite (s : State) (who : Writer) (addr : Nat) (r : RegRule) (v : BitVec 32) : State :=
  let b := blockOf addr
  let o := offOf addr
  let n := v.toNat
  if isRegion b then s.writeRegion (b - 0x10) who o v
  else if 0x20 ≤ b ∧ b ≤ 0x43 then s.writeLink (b - 0x20) who o v
  else if b = 2 then s.writeHost who o v
  else
    let s := if r.w1c ≠ 0 then s.clearErr addr (n &&& r.w1c) else s
    let s := if r.rw ≠ 0 ∧ !(b = 0xC ∧ n.testBit 5) then s.setReg addr (BitVec.ofNat 32 (n &&& r.rw)) else s
    if b = 6 ∧ o = 0 ∧ n.testBit 13 then s.visorRun who
    else if b = 9 ∧ o = 0xC ∧ n.testBit 16 then s.onMem (fun m => { m with chainMax0 := 0, chainMax1 := 0 })
    else if b = 0xC ∧ o = 4 ∧ n.testBit 5 then s.rotateGo (n % 32) who
    else if b = 0xC ∧ oneOf o 0x118 0x20 8 = true ∧ n.testBit 0 then s.beginTeardown ((o - 0x100) / 0x20) State.causeCtrl
    else s

/-- A write of a control-space register (R14, R15, R650, R816). (DEDUCED, log entries 22, 24 and 25) -/
def regWrite (s : State) (who : Writer) (addr : Nat) (v : BitVec 32) : State :=
  match regRule addr with
  | none => if unassignedCode who addr = 0 then s else s.refuse who addr (unassignedCode who addr)
  | some r =>
    if r.boot then
      if who ≠ .boot ∨ (s.reg (ctl 1 0)).toNat.testBit 0 then s.refuse who addr 0x010B
      else if r.reserved v.toNat || valueBad addr v.toNat then s.refuse who addr (denyCode who addr)
      else s.setReg addr v
    else if !r.allows who || r.reserved v.toNat || valueBad addr v.toNat || s.stateBad addr v.toNat then s.refuse who addr (denyCode who addr)
    else if who = .host ∧ !s.host.ideSecure then s.refuse who addr (denyCode who addr)
    else s.applyWrite who addr r v

end State

/-- REGISTER_WRITE (R14, R15). -/
def execRegisterWrite (who : Writer) (addr : BitVec 32) (value : BitVec 32) (s : State) : Host.Outcome State Fault Refusal :=
  liveEng s (fun s => s.regWrite who addr.toNat value)

end Sys2Proof.Machine
end

