-- ==== Sys2Proof/Machine/Mgmt.lean ====
section
/-!
DEFINITION. The management processor: Stolulter, telemetry, the fault log, staging, and the board management controller (R683 to R706).
-/
namespace Sys2Proof.Machine
namespace State

def onMgmt (s : State) (f : Mgmt → Mgmt) : State := { s with mgmt := f s.mgmt }
def setStage (s : State) (x : Stage) : State := s.onMgmt (fun m => { m with stage := x })

/-! Connections (R683 to R686). -/

/-- A refused connection: its code is recorded and told to the client. (DEDUCED, log entry 105) -/
def connRefuse (s : State) (conn code : Nat) : State := (s.raise 3 code conn 0 0).emit (.refused (.mgmt conn 0) 0 code)

/-- A TLS client (R684 to R686): `chainOk` says that its chain ends at the anchor with the settings of R684, `inDate` that fabric time lies within
every validity period. (DEDUCED, log entry 105) -/
def connect (s : State) (key : Bytes) (chainOk inDate : Bool) : State :=
  let used := s.mgmt.conns.map MgmtConn.id
  let conn := ((List.range 4).find? (fun i => !used.contains i)).getD 0
  if !s.mgmt.phyUp || !s.mgmt.addrOk then s
  else if !chainOk || (s.clock.locked && !inDate) then (s.count (ctl 3 0x18) 1).connRefuse conn 0x0301
  else if s.sessionsIn.any (fun x => ((x.2.charter.map Charter.ownerKeys).getD []).contains key) then s.connRefuse conn 0x0302
  else if 4 ≤ s.mgmt.conns.length then s.connRefuse conn 0x030B
  else s.onMgmt (fun m => { m with conns := m.conns ++ [⟨conn, key, 0, []⟩] })

/-! Requests and responses (R687). -/

/-- A request on a connection that stands. -/
def onConn (s : State) (conn : Nat) (f : State → State) : State := if s.mgmt.conns.any (fun c => c.id = conn) then f s else s

def respond (s : State) (conn type code id : Nat) (body : List Nat) : State := s.emit (.stol conn type code id body)

/-- A request refused by a management code. -/
def mgmtRefuse (s : State) (conn type code id : Nat) : State := (s.raise 3 code conn type id).respond conn type code id []

/-- The code of a refusal reported to a writer among new outputs. -/
def refusalIn (who : Writer) : List Out → Nat
  | [] => 0
  | .refused w _ code :: rest => if w = who then code else refusalIn who rest
  | _ :: rest => refusalIn who rest

/-- A request that acts as a register write: the response carries the code that the write was refused with (R688). -/
def writeFor (s : State) (conn type id : Nat) (f : State → State) : State :=
  let who : Writer := .mgmt conn id
  let t := f s
  let news := t.out.drop s.out.length
  let kept := news.filter (fun o => match o with | .refused w _ _ => decide (w ≠ who) | _ => true)
  { t with out := s.out ++ kept }.respond conn type (refusalIn who news) id []

/-- INFO (R687). -/
def infoBody (s : State) : List Nat :=
  [s.readGlobal 0, s.readGlobal 4, s.chip] ++ s.boot.deviceId.map BitVec.toNat ++ ((List.range 8).flatMap (fun k => ((s.measurement (k + 1)).getD []).map BitVec.toNat))

/-- READ_REG (R688). (DEDUCED, log entry 30) -/
def readRegs (s : State) (conn id addr n : Nat) : State :=
  if n = 0 ∨ 64 < n ∨ addr % 4 ≠ 0 ∨ 0x66 ≤ blockOf (addr + 4 * n - 4) then s.mgmtRefuse conn 0x10 0x0303 id
  else
    let t := (List.range n).foldl (fun acc i => let s := acc.1.readLatch (addr + 4 * i); (s, acc.2 ++ [(s.readReg (addr + 4 * i)).toNat])) (s, ([] : List Nat))
    t.1.respond conn 0x10 0 id t.2

/-- Blocks whose registers take a write after an integrity halt (R408): those of SMD's always-on and management part. (DEDUCED, log entry 106) -/
def aliveBlock (b : Nat) : Bool := decide (b = 0 ∨ b = 1 ∨ b = 3 ∨ b = 4 ∨ b = 5 ∨ b = 6 ∨ b = 0x4A)

/-- WRITE_REG (R688). -/
def writeReg (s : State) (conn id addr : Nat) (v : BitVec 32) : State :=
  if 0x66 ≤ blockOf addr ∨ addr % 4 ≠ 0 then s.mgmtRefuse conn 0x11 0x0303 id
  else if s.halt.isSome && !aliveBlock (blockOf addr) then s.respond conn 0x11 (denyCode (.mgmt conn id) addr) id []
  else s.writeFor conn 0x11 id (fun s => s.regWrite (.mgmt conn id) addr v)

/-! Telemetry (R691). -/

/-- The counts of which a record gives the growth (R691): symbols corrected, replays, residue retries, checkpoint pauses. (DESIGN CHOICE, log entry 109) -/
def telemCounts (s : State) : List Nat :=
  let sum (xs : List Nat) : Nat := xs.foldl (· + ·) 0
  let regions (o : Nat) : Nat := sum ((List.range 16).map (fun r => s.countOf (ctl (regionBlock r) o)))
  let links (o : Nat) : Nat := sum ((List.range 36).map (fun j => s.countOf (ctl (0x20 + j) o)))
  let edges (o : Nat) : Nat := sum ((List.range 6).map (fun n => s.countOf (ctl (0x60 + n) o)))
  [regions 0x804 + links 8, links 0x10 + edges 0x10, sum (s.cores.map (fun c => c.2.ctl.residueCnt)), sum ((List.range 8).map (fun i => (s.ckptSess i).begun))]

/-- A connection takes a period, or where its counts stand. -/
def telemConn (s : State) (conn : Nat) (f : MgmtConn → MgmtConn) : State :=
  s.onMgmt (fun m => { m with conns := m.conns.map (fun c => if c.id = conn then { f c with base := s.telemCounts } else c) })

def telemSet (s : State) (conn id period : Nat) : State :=
  if period = 0 ∨ (10 ≤ period ∧ period ≤ 60000 ∧ period % 10 = 0) then
    (s.telemConn conn (fun c => { c with telem := period })).respond conn 0x20 0 id []
  else s.mgmtRefuse conn 0x20 0x0303 id

/-- A telemetry record: what stands in the state, the growth of the counts since the last one, then the rates measured over the period. (DESIGN CHOICE, log entry 109) -/
def telemBody (s : State) (base measured : List Nat) : List Nat :=
  let asleep := (List.range 16).filter (fun r => (s.regPwr r).st = .slow ∨ (s.regPwr r).st = .stop)
  [s.clock.now, s.pwr.avg, s.powerLimit, s.pwr.logic, s.pwr.dram] ++ (List.range 16).map (fun r => Sparse.get 0 s.pwr.freq (regDomain r)) ++
  [(asleep.map (fun r => 2 ^ r)).foldl (· + ·) 0, s.boot.held.toNat] ++ (List.range 36).map (fun j => s.readLink j 4 % 8) ++
  [s.usableCores, 512 - (List.range 512).countP (fun n => !s.quarMap.toNat.testBit n), (s.sessionsIn.filter (fun x => x.2.state ≠ .none)).length, s.readGlobal 4,
   b2n s.halt.isSome] ++ s.telemCounts.zipWith (· - ·) (base ++ List.replicate 4 0) ++ measured

def telem (s : State) (conn : Nat) (measured : List Nat) : State :=
  match s.mgmt.conns.find? (fun c => c.id = conn && decide (c.telem ≠ 0)) with
  | some c => (s.respond conn 0x21 0 0 (s.telemBody c.base measured)).telemConn conn id
  | none => s

/-! The fault log (R693 to R695). -/

def flogBody (e : FlogEntry) : List Nat := [e.seq, e.time, e.code, e.block, e.boot, e.a0, e.a1, e.a2]

/-- The entries that can be read, oldest first: those of flash that SRAM no longer holds, then SRAM. -/
def flogAll (s : State) : List FlogEntry :=
  let kept := s.mgmt.sram.map FlogEntry.seq
  s.mgmt.flash.filter (fun e => !kept.contains e.seq) ++ s.mgmt.sram

/-- DESIGN CHOICE, log entry 109. -/
def flogRead (s : State) (conn id seq : Nat) : State :=
  s.respond conn 0x30 0 id (((s.flogAll.filter (fun e => seq ≤ e.seq)).take 512).flatMap flogBody)

/-- Whether an entry reaches flash before the rate applies: it began the halt, or stopped boot (R694). (DEDUCED, log entry 108) -/
def flogFirst (s : State) (e : FlogEntry) : Bool :=
  (match s.halt with | some h => decide (e.code = h.1 ∧ e.block = h.2) | none => false) || decide (s.boot.phase = 6 ∧ e.block = 0 ∧ e.code = s.boot.lastCode)

/-- An entry is appended to the log in flash, whose next sector of 2 048 entries is erased as the write point reaches it (R694). (DEDUCED, log entry 108) -/
def flashAppend (m : Mgmt) (e : FlogEntry) : Mgmt :=
  { m with flash := (if m.flashed % 2048 = 0 then newest 30720 m.flash else m.flash) ++ [e], flashed := m.flashed + 1 }

/-- The entries of one second go to flash, 100 of them beside those that go first; the others are lost to it (R694). (DEDUCED, log entry 108) -/
def flogFlash (s : State) : State :=
  let first := s.mgmt.toFlash.filter s.flogFirst
  let rest := s.mgmt.toFlash.filter (fun e => !s.flogFirst e)
  let go := s.mgmt.toFlash.filter (fun e => first.contains e || (rest.take 100).contains e)
  (s.onMgmt (fun m => { go.foldl flashAppend m with toFlash := [] })).count (ctl 3 0xC) (rest.length - 100)

/-! Staging (R696 to R699). -/

/-- STAGE_BEGIN. (DEDUCED, log entry 106) -/
def stageBegin (s : State) (conn id slot total : Nat) : State :=
  let g := s.mgmt.stage
  if (g.state = 1 ∨ g.state = 2) ∧ g.conn ≠ some conn then s.mgmtRefuse conn 0x50 0x0305 id
  else if slot ≠ 1 - s.boot.slot ∨ total = 0 ∨ imageMax < total then s.mgmtRefuse conn 0x50 0x0303 id
  else
    let a := imageBase slot
    let s := { s with boot := { s.boot with flash := s.boot.flash.filter (fun e => decide (e.1 < a ∨ a + imageMax ≤ e.1)) } }
    (s.setStage ⟨1, slot, 0, some conn, total⟩).respond conn 0x50 0 id []

/-- STAGE_DATA. Where the write fails, the bytes there are free values. (DEDUCED, log entry 106; DESIGN CHOICE, log entry 107) -/
def stageData (s : State) (conn id off : Nat) (data : Bytes) (flashOk : Bool) : State :=
  let g := s.mgmt.stage
  if g.state ≠ 1 ∨ g.conn ≠ some conn ∨ 65536 < data.length ∨ g.total < off + data.length then s.mgmtRefuse conn 0x51 0x0303 id
  else if flashOk then (s.flashWrite (imageBase g.slot + off) data).respond conn 0x51 0 id []
  else
    let d := s.drawBytes data.length
    (d.2.flashWrite (imageBase g.slot + off) d.1).mgmtRefuse conn 0x51 0x0307 id

/-- A selection record (R641). -/
def selectionBytes (slot counter : Nat) : Bytes :=
  let b := leBytes 4 0x4C45534B ++ leBytes 1 slot ++ leBytes 3 0 ++ leBytes 4 counter ++ List.replicate 48 0
  b ++ leBytes 4 (crc32 b)

/-- The copy that a commit writes and its COUNTER: a copy that is not valid counts as the lower. (DEDUCED, log entry 106) -/
def nextSelection (s : State) : Nat × Nat :=
  match s.selection 0, s.selection 1 with
  | some a, some b => (if a.1 < b.1 then 0 else 1, max a.1 b.1 + 1)
  | some a, none => (1, a.1 + 1)
  | none, some b => (0, b.1 + 1)
  | none, none => (1, 1)

/-- STAGE_COMMIT: `unread` to `iSig` tell how the slot reads back and how its signatures verify, `flashOk` of the record's write. (DEDUCED, log entry 106; DESIGN CHOICE, log entry 107) -/
def stageCommit (s : State) (conn id : Nat) (unread kSig iSig flashOk : Bool) : State :=
  let g := s.mgmt.stage
  let all (b : Bool) : BitVec 2 := if b then 3 else 0
  if g.state ≠ 1 ∨ g.conn ≠ some conn then s.mgmtRefuse conn 0x52 0x0303 id
  else
    let facts : BootFacts := ⟨all unread, all kSig, all iSig, s.boot.deviceId, 0, true, 0, [], none, 0⟩
    match s.imageCode facts g.slot with
    | some code => s.respond conn 0x52 code id []
    | none =>
      if !flashOk then s.mgmtRefuse conn 0x52 0x0307 id
      else
        let n := s.nextSelection
        let svn := (s.readImage g.slot).svn
        let s := s.flashWrite (0x1000 * n.1) (selectionBytes g.slot n.2)
        ((s.setStage { g with state := 3, svn := svn }).pushEvent 11 [g.slot, svn]).respond conn 0x52 0 id []

/-- No message for 60 s (R699). -/
def stageTimeout (s : State) : State := if s.mgmt.stage.state = 1 ∨ s.mgmt.stage.state = 2 then s.setStage Stage.idle else s

/-! Sessions, SPDM, time, records (R687 to R689, R700). -/

/-- The code of a session request after an integrity halt. (DEDUCED, log entry 106) -/
def haltedCode : Nat := 0x2209

def charterOver (s : State) (conn id : Nat) (c : Charter) (encOk sigsOk operOk : Bool) : State :=
  if s.halt.isSome then s.respond conn 0x40 haltedCode id []
  else let t := s.charterTake 8 c encOk sigsOk operOk; t.1.respond conn 0x40 t.2.1 id (if t.2.1 = 0 then [t.2.2] else [])

def sessionsBody (s : State) : List Nat :=
  s.sessionsIn.flatMap (fun x => [x.1, x.2.state.code] ++ ((x.2.charter.map Charter.sessionId).getD []).map BitVec.toNat ++ ((x.2.charter.map Charter.digest).getD []).map BitVec.toNat)

def sessionEnd (s : State) (conn id slot : Nat) : State :=
  if s.halt.isSome then s.respond conn 0x42 haltedCode id [] else (s.beginTeardown slot causeCtrl).respond conn 0x42 0 id []

def rotateOver (s : State) (conn id part : Nat) : State :=
  if s.halt.isSome then s.respond conn 0x43 haltedCode id [] else s.writeFor conn 0x43 id (fun s => s.rotateGo part (.mgmt conn id))

/-- One SPDM message over Stolulter: the response carries the reply. -/
def spdmOver (s : State) (conn id : Nat) (q : SpdmReq) : State :=
  let t := s.spdmDo 0 q
  let reply := (t.out.drop s.out.length).flatMap (fun o => match o with | .spdm _ r e body => [r, b2n e] ++ body | _ => [])
  { t with out := s.out }.respond conn 0x60 0 id reply

/-- PPS_SECOND (R700): between 100 ms and 900 ms after the previous pulse. (DEDUCED, log entry 111) -/
def ppsOver (s : State) (conn id sec : Nat) : State :=
  match (s.pin 3).accepted with
  | some t =>
    if t + 100000000 ≤ s.clock.now ∧ s.clock.now ≤ t + 900000000 then (s.onMgmt (fun m => { m with ppsSecond := some sec })).respond conn 0x70 0 id []
    else s.mgmtRefuse conn 0x70 0x0306 id
  | none => s.mgmtRefuse conn 0x70 0x0306 id

/-- Up to 256 records of the chip ring (R369), from the given place in it. (DESIGN CHOICE, log entry 109) -/
def placementOver (s : State) (conn id start : Nat) : State :=
  s.respond conn 0x80 0 id (((s.crown.records.drop start).take 256).flatMap (fun r => [r.kind, r.part, r.step, r.time, r.a, r.b, r.c, r.d]))

/-! The board management controller (R701, R702). -/

/-- MCTP control (R701): endpoint ID, version and message types; any other command is not supported. (PRESUMED, log entries 68 and 110) -/
def mctpControl (s : State) (cmd eid : Nat) : State :=
  if !s.mgmt.i3cAddr then s
  else match cmd with
    | 1 => (s.onMgmt (fun m => { m with eid := eid % 256 })).emit (.mctp 0 1 [0, eid % 256])
    | 2 => s.emit (.mctp 0 2 [0, s.mgmt.eid])
    | 4 => s.emit (.mctp 0 4 [0, 1])
    | 5 => s.emit (.mctp 0 5 [0, 0x00, 0x05, 0x06, 0x7E])
    | c => s.emit (.mctp 0 c [5])

/-- Vendor messages stand inside the BMC's secure session only. -/
def inBmc (s : State) (f : State → State) : State := if s.keys.secure.any (fun x => x.transport = 2 && x.finished) then f s else s

def health (s : State) : State :=
  s.emit (.mctp 0x7E 1 [s.readGlobal 4, b2n s.halt.isSome, s.pwr.logic, s.pwr.dram, s.pwr.avg, s.powerLimit])

def bmcFlog (s : State) : State :=
  let all := s.flogAll
  s.emit (.mctp 0x7E 2 ((newest 16 all).flatMap flogBody))

/-- PRESUMED, log entry 110. -/
def bmcCap (s : State) (watts : Nat) : State :=
  if watts = 0 ∨ (900 ≤ watts ∧ watts ≤ 2100) then (s.onMgmt (fun m => { m with bmcPlimit := watts })).emit (.mctp 0x7E 3 [0])
  else (s.raise 3 0x030A 0 3 0).emit (.mctp 0x7E 3 [0x030A])

end State
end Sys2Proof.Machine
end

