-- ==== Sys2Proof/Machine/ExecMgmt.lean ====
section
/-!
DEFINITION. Commands of management (R683 to R706). The management processor serves them through a halt and a failed boot (R408, R653).
-/
namespace Sys2Proof.Machine

/-- A request that comes on a Stolulter connection. -/
def mgmtDo (s : State) (conn : Fin 4) (f : State → State) : Host.Outcome State Fault Refusal := ok (s.onConn conn f)

/-- MGMT_CONNECT (R684 to R686). -/
def execMgmtConnect (key : List (BitVec 8)) (chainOk inDate : Bool) (s : State) : Host.Outcome State Fault Refusal := ok (s.connect key chainOk inDate)

/-- MGMT_DISCARD (R683). -/
def execMgmtDiscard (s : State) : Host.Outcome State Fault Refusal := ok (if s.mgmt.phyUp then s.count (ctl 3 0x1C) 1 else s)

/-- INFO (R687). -/
def execMgmtInfo (conn : Fin 4) (id : BitVec 32) (s : State) : Host.Outcome State Fault Refusal :=
  mgmtDo s conn (fun s => s.respond conn 0x01 0 id.toNat s.infoBody)

/-- READ_REG (R688). -/
def execReadReg (conn : Fin 4) (id addr : BitVec 32) (n : Nat) (s : State) : Host.Outcome State Fault Refusal :=
  mgmtDo s conn (fun s => s.readRegs conn id.toNat addr.toNat n)

/-- WRITE_REG (R688). -/
def execWriteReg (conn : Fin 4) (id addr value : BitVec 32) (s : State) : Host.Outcome State Fault Refusal :=
  mgmtDo s conn (fun s => s.writeReg conn id.toNat addr.toNat value)

/-- TELEM_SET (R691). -/
def execTelemSet (conn : Fin 4) (id : BitVec 32) (period : Nat) (s : State) : Host.Outcome State Fault Refusal :=
  mgmtDo s conn (fun s => s.telemSet conn id.toNat period)

/-- TELEM (R691): a period has passed; `measured` gives the traffic over it, of the bonded DRAM, of Esvor and of PCIe. -/
def execTelemPush (conn : Fin 4) (measured : List Nat) (s : State) : Host.Outcome State Fault Refusal := ok (s.telem conn measured)

/-- FLOG_READ (R695). -/
def execFlogRead (conn : Fin 4) (id seq : BitVec 32) (s : State) : Host.Outcome State Fault Refusal :=
  mgmtDo s conn (fun s => s.flogRead conn id.toNat seq.toNat)

/-- CHARTER (R689). -/
def execMgmtCharter (conn : Fin 4) (id : BitVec 32) (c : Charter) (encOk sigsOk operOk : Bool) (s : State) : Host.Outcome State Fault Refusal :=
  mgmtDo s conn (fun s => s.charterOver conn id.toNat c encOk sigsOk operOk)

/-- SESSIONS (R687). -/
def execMgmtSessions (conn : Fin 4) (id : BitVec 32) (s : State) : Host.Outcome State Fault Refusal :=
  mgmtDo s conn (fun s => s.respond conn 0x41 0 id.toNat s.sessionsBody)

/-- SESSION_END (R687). -/
def execSessionEnd (conn : Fin 4) (id : BitVec 32) (slot : Fin 8) (s : State) : Host.Outcome State Fault Refusal :=
  mgmtDo s conn (fun s => s.sessionEnd conn id.toNat slot)

/-- ROTATE (R687). -/
def execMgmtRotate (conn : Fin 4) (id : BitVec 32) (part : BitVec 5) (s : State) : Host.Outcome State Fault Refusal :=
  mgmtDo s conn (fun s => s.rotateOver conn id.toNat part.toNat)

/-- STAGE_BEGIN (R696, R699). -/
def execStageBegin (conn : Fin 4) (id : BitVec 32) (slot : Fin 2) (total : BitVec 32) (s : State) : Host.Outcome State Fault Refusal :=
  mgmtDo s conn (fun s => s.stageBegin conn id.toNat slot total.toNat)

/-- STAGE_DATA (R696, R697). -/
def execStageData (conn : Fin 4) (id off : BitVec 32) (data : List (BitVec 8)) (flashOk : Bool) (s : State) : Host.Outcome State Fault Refusal :=
  mgmtDo s conn (fun s => s.stageData conn id.toNat off.toNat data flashOk)

/-- STAGE_COMMIT (R696, R697). -/
def execStageCommit (conn : Fin 4) (id : BitVec 32) (unread kSig iSig flashOk : Bool) (s : State) : Host.Outcome State Fault Refusal :=
  mgmtDo s conn (fun s => s.stageCommit conn id.toNat unread kSig iSig flashOk)

/-- STAGE_TIMEOUT (R699). -/
def execStageTimeout (s : State) : Host.Outcome State Fault Refusal := ok s.stageTimeout

/-- SPDM over Stolulter (R687). -/
def execMgmtSpdm (conn : Fin 4) (id : BitVec 32) (q : SpdmReq) (s : State) : Host.Outcome State Fault Refusal :=
  mgmtDo s conn (fun s => s.spdmOver conn id.toNat q)

/-- PPS_SECOND (R700). -/
def execPpsSecond (conn : Fin 4) (id : BitVec 32) (sec : BitVec 64) (s : State) : Host.Outcome State Fault Refusal :=
  mgmtDo s conn (fun s => s.ppsOver conn id.toNat sec.toNat)

/-- PLACEMENT (R687). -/
def execPlacementRead (conn : Fin 4) (id : BitVec 32) (start : Nat) (s : State) : Host.Outcome State Fault Refusal :=
  mgmtDo s conn (fun s => s.placementOver conn id.toNat start)

/-- VISOR (R687, R759). -/
def execVisorReport (conn : Fin 4) (id : BitVec 32) (s : State) : Host.Outcome State Fault Refusal :=
  mgmtDo s conn (fun s => s.respond conn 0x90 0 id.toNat s.visorReport)

/-- A message with an undefined TYPE or a malformed body (R687). -/
def execMgmtMsgIllegal (conn : Fin 4) (type : BitVec 16) (id : BitVec 32) (s : State) : Host.Outcome State Fault Refusal :=
  mgmtDo s conn (fun s => s.mgmtRefuse conn type.toNat 0x0303 id.toNat)

/-- FLOG_FLASH_WRITE (R694): the entries of one second. -/
def execFlogFlashWrite (s : State) : Host.Outcome State Fault Refusal := ok s.flogFlash

/-- MGMT_RESTART (R703). -/
def execMgmtRestart (s : State) : Host.Outcome State Fault Refusal := ok s.mgmtRestart

/-- MCTP_CONTROL (R701): the control command, and the endpoint ID that it sets. -/
def execMctpControl (cmd eid : BitVec 8) (s : State) : Host.Outcome State Fault Refusal := ok (s.mctpControl cmd.toNat eid.toNat)

/-- HEALTH (R702). -/
def execBmcHealth (s : State) : Host.Outcome State Fault Refusal := ok (s.inBmc State.health)

/-- FLOG (R702). -/
def execBmcFlog (s : State) : Host.Outcome State Fault Refusal := ok (s.inBmc State.bmcFlog)

/-- CAP (R702). -/
def execBmcCap (watts : BitVec 16) (s : State) : Host.Outcome State Fault Refusal := ok (s.inBmc (fun s => s.bmcCap watts.toNat))

/-- ENTDAA or SETDASA (R701). (PRESUMED, log entry 110) -/
def execEntdaa (s : State) : Host.Outcome State Fault Refusal := ok (s.onMgmt (fun m => { m with i3cAddr := true }))

/-- MGMT_CONNECTION_CLOSE (R699). -/
def execMgmtConnectionClose (conn : Fin 4) (s : State) : Host.Outcome State Fault Refusal := mgmtDo s conn (fun s => s.connClose conn)

/-- SGMII_LINK (R683): the link, and whether an address is assigned. -/
def execSgmiiLink (up addr : Bool) (s : State) : Host.Outcome State Fault Refusal :=
  ok (s.onMgmt (fun m => { m with phyUp := up, addrOk := up && addr }))

end Sys2Proof.Machine
end

