-- ==== Sys2Proof/Machine/ExecMove.lean ====
section
/-!
DEFINITION. Move and remote instructions at issue (R137 to R141): one meaning for each. What an operation does after it
has left its slot stands with the commands of the mover.
-/
namespace Sys2Proof.Machine

/-- GET (R138, R139, R140): it takes a mover slot. -/
def execGet (cr : BitVec 9) (w : Waits) (f : BitVec 56) (s : State) : Host.Outcome State Fault Refusal :=
  ok (s.onInstr cr (State.opWord 0xC0 f) (Core.issueMove 0xC0 f w))

/-- PUT (R138, R139, R140): it takes a mover slot. -/
def execPut (cr : BitVec 9) (w : Waits) (f : BitVec 56) (s : State) : Host.Outcome State Fault Refusal :=
  ok (s.onInstr cr (State.opWord 0xC1 f) (Core.issueMove 0xC1 f w))

/-- PUT_SIGNAL (R138, R139, R140): it takes a mover slot. -/
def execPutSignal (cr : BitVec 9) (w : Waits) (f : BitVec 56) (s : State) : Host.Outcome State Fault Refusal :=
  ok (s.onInstr cr (State.opWord 0xC2 f) (Core.issueMove 0xC2 f w))

/-- ATOMIC_ADD (R138, R139, R140): it takes a mover slot. -/
def execAtomicAdd (cr : BitVec 9) (w : Waits) (f : BitVec 56) (s : State) : Host.Outcome State Fault Refusal :=
  ok (s.onInstr cr (State.opWord 0xC3 f) (Core.issueMove 0xC3 f w))

/-- ATOMIC_CAS (R138, R139, R140): it takes a mover slot. -/
def execAtomicCas (cr : BitVec 9) (w : Waits) (f : BitVec 56) (s : State) : Host.Outcome State Fault Refusal :=
  ok (s.onInstr cr (State.opWord 0xC4 f) (Core.issueMove 0xC4 f w))

/-- REDUCE_PUT (R138, R139, R140): it takes a mover slot. -/
def execReducePut (cr : BitVec 9) (w : Waits) (f : BitVec 56) (s : State) : Host.Outcome State Fault Refusal :=
  ok (s.onInstr cr (State.opWord 0xC5 f) (Core.issueMove 0xC5 f w))

/-- FENCE (R138, R139, R140): it takes a mover slot. -/
def execFence (cr : BitVec 9) (w : Waits) (f : BitVec 56) (s : State) : Host.Outcome State Fault Refusal :=
  ok (s.onInstr cr (State.opWord 0xC6 f) (Core.issueMove 0xC6 f w))

end Sys2Proof.Machine
end

