-- ==== Sys2Proof/Machine/ExecMover.lean ====
section
/-!
DEFINITION. Commands of the mover (R140, R514, R522, R524) and the re-fill of a square-buffer slot (R85).
-/
namespace Sys2Proof.Machine
namespace Core

/-- Work held back for a re-fill is done; its entry keeps its number and place (R85). -/
def redoOne (c : Core) (u : Unretired) (seed : Bytes) : CoreRes :=
  match u.redo with
  | none => c.quiet
  | some job =>
    let order := c.unret
    let c := { c with unret := c.unret.filter (fun x => x.id ≠ u.id) }
    let r : CoreRes := match job with
      | .tile j =>
        if readsAcc j && c.poisoned j.acc then ⟨c.enter true u.product u.epilogue u.foot true none none u.index, []⟩
        else let e := runTile c j seed none; finishTile e.1 j u.epilogue u.product u.index e.2
      | .vec j => ⟨(runVec c j seed 32).enter false none false u.foot false none none u.index, []⟩
    match r.core.unret.getLast? with
    | some new => { r with core := { r.core with unret := order.map (fun x => if x.id = u.id then { new with id := u.id } else x) } }
    | none => r

/-- Whether held-back work may be done once the re-fill of slot `k` has landed: it awaited that slot, or it follows such work into a tile of which
nothing earlier is held back any more. -/
def redoDue (c : Core) (k : Nat) (u : Unretired) : Bool :=
  u.await == some k || (u.await == none && !c.unret.any (fun x => decide (x.id < u.id) && x.redo.isSome && x.product == u.product))

/-- The work held back for the re-fill of a slot is done, in order. -/
def redoAll (c : Core) (k : Nat) (seed : Bytes) : CoreRes :=
  (c.unret.filter (fun u => u.redo.isSome)).foldl (fun r u =>
    if r.core.redoDue k u then let t := r.core.redoOne u seed; ⟨t.core, r.log ++ t.log⟩ else r) c.quiet

/-- The re-fill of a slot waits only for other instructions that write its lines (R85). -/
def refillClear (c : Core) (k : Nat) : Bool :=
  c.unret.all (fun u => u.redo.isSome || u.held || (u.foot.writeLines ++ u.foot.spill).all (fun x => !rangesMeet x (32 * k, 32)))

/-- The place in the window of the instruction that consumes a slot whose line failed: the first held back for it, the issued operation of the mover that
reads it, or the one at the pc (R85). (DEDUCED, log entry 136) -/
def consumer (c : Core) (k : Nat) : Nat :=
  match c.unret.find? (fun u => u.await = some k) with
  | some u => u.index
  | none => match c.mover.find? (fun m => (m.stage == .waiting) && !m.isGet && !m.isAtomic && rangesMeet m.lines (32 * k, 32)) with
    | some m => m.index
    | none => c.ctl.pc

/-- The work held back for a slot that is lost is held from retirement. -/
def holdAll (c : Core) (k : Nat) : Core :=
  (c.unret.filter (fun u => u.redo.isSome)).foldl (fun c u =>
    if c.redoDue k u then
      { c with unret := c.unret.map (fun (x : Unretired) => if x.id = u.id then { x with redo := none, await := none, held := true } else x) }
    else c) c

/-- The re-fill has failed or the slot has been written: it counts as produced (R85). -/
def refillLost (c : Core) (k : Nat) : CoreRes :=
  let index := c.consumer k
  let c := { c.holdAll k with refills := c.refills.erase k, clean := c.clean.filter (fun e => e.1 ≠ k) }
  let line := if c.ctl.errLine / 32 = k then c.ctl.errLine else 32 * k
  parityLost (c.withCtl (fun x => { x with errLine := line, errProduced := true })) index line

/-- Whether a send would read a line that a parity error has lost (R83, R85). (DEDUCED, log entry 135) -/
def sendLost (c : Core) (m : MoverOp) : Bool :=
  !m.isGet && !m.isAtomic && c.ctl.errProduced && (c.ctl.stopping.isSome || c.ctl.run == .stopped) && rangesMeet m.lines (c.ctl.errLine, 1)

/-- A send meets a parity error in its source (R83, R85): it waits for the re-fill, or issue stops at it. -/
def sendParity (c : Core) (m : MoverOp) (line : Nat) : CoreRes :=
  let p := c.noteParity line
  if p.2 then (p.1.askRefill line).quiet else p.1.parityLost m.index line

/-- The line of a send's source that a parity error befalls, among the faults told. -/
def sendFault (m : MoverOp) (ev : List MemEvent) : Option Nat :=
  ev.findSome? (fun e => match e with
    | .sqb line => if !m.isGet && !m.isAtomic && !m.isFence && rangesMeet m.lines (line, 1) then some line else none
    | _ => none)

end Core
namespace State

/-- An operation leaves its slot where nothing holds it (R140, R507); none does while the session is quiesced (R529) or a re-fill is asked for (R85). `ev` is
what the checks of its first piece and of its source find. (DEDUCED, log entry 37) -/
def moverStart (s : State) (n slot : Nat) (ev : List MemEvent) : State :=
  match s.moverOp n slot with
  | none => s
  | some m =>
    let c := s.core n
    if (m.stage ≠ .waiting ∧ ¬ (m.op = 0xC5 ∧ (m.stage = .passed ∨ m.stage = .sent))) ∨ !c.refills.isEmpty ∨ !moverClear c m ∨ moverHeld c s.chip m ∨
        c.sendLost m ∨ (s.ckpt.atRest.toNat.testBit c.spec.part.toNat ∧ m.progress = 0) then s
    else if m.isFence then
      if !fenceOpen c m then s else s.onOp n slot (fun x => { x with stage := if m.dtype = 0 ∧ m.chip ≠ s.chip then .quota else .done })
    else
      match (if m.progress = 0 then Core.sendFault m ev else none) with
      | some line => s.putCore n (c.sendParity m line)
      | none =>
        match (if m.progress = 0 ∧ m.owed = 0 then s.firstCheck c.spec.part.toNat m else none) with
        | some f => s.refuseOp n m f.1 f.2
        | none =>
          if m.chip ≠ s.chip ∨ m.inHost then s.onOp n slot (fun m => { m with stage := .quota })
          else if m.op = 0xC5 then s.redPut n m ev
          else if m.inExport then s.takeExports n m
          else runLocal (m.len / 64 + 8) s n slot ev

/-- Whether a frame carries an operation of core `n` (R525). -/
def frameOf (n : Nat) (m : MoverOp) (f : Frame) : Bool :=
  let w := f.opw.toNat
  decide (f.dst = m.chip ∧ f.part = m.part) && match f.type with
  | 0x10 => decide (bitsNat w 47 39 = n ∧ bitsNat w 53 48 = m.slot)
  | 0x13 => decide (bitsNat w 47 39 = n ∧ bitsNat w 53 48 = m.slot)
  | 0x11 => decide (bitsNat w 53 45 = n ∧ bitsNat w 59 54 = m.slot)
  | 0x12 => decide (bitsNat w 53 45 = n ∧ bitsNat w 59 54 = m.slot)
  | 0x15 => decide (bitsNat w 53 45 = n ∧ bitsNat w 59 54 = m.slot)
  | _ => false

/-- Frames of an operation that wait in the links' queues. -/
def unsent (s : State) (n : Nat) (m : MoverOp) : Nat := ((List.range 36).map (fun j => ((s.link j).queue.filter (frameOf n m)).length)).foldl (· + ·) 0

/-- Frames of an operation are withdrawn from the links' queues (R524). -/
def withdrawOp (s : State) (n : Nat) (m : MoverOp) : State :=
  (List.range 36).foldl (fun s j => s.onLink j (fun l => { l with queue := l.queue.filter (fun f => !frameOf n m f) })) s

/-- How the read of a re-fill ends: with bytes, not yet, or with a status that lands nothing. -/
inductive Refill where
  | got (s : State) (b : Bytes)
  | wait (s : State)
  | failed (s : State)

/-- A re-fill's pieces on this chip (R85, R505): (window offset, bytes); a page on loan answers as `far` tells. -/
def refillPieces (s : State) (n : Nat) (m : MoverOp) (far : Option Bytes) : List (Nat × Nat) → Bytes → Refill
  | [], acc => .got s acc
  | x :: xs, acc =>
    let a := s.access (.region (n / 32)) m.part (x.1 / pageSize) false
    let lines := (List.range ((x.1 % pageSize + x.2 + 63) / 64 - x.1 % pageSize / 64)).map (x.1 % pageSize / 64 + ·)
    match a.2 with
    | .served p =>
      let t := a.1.regionRead (n / 32) p lines
      if t.2 then refillPieces t.1 n m far xs (acc ++ t.1.mem.read p (x.1 % pageSize) x.2) else .wait t.1
    | .loan _ _ => match far with
      | some b => refillPieces a.1 n m far xs (acc ++ ((b ++ List.replicate 2048 0).drop acc.length).take x.2)
      | none => .failed a.1
    | .wait => .wait s
    | .refused _ code => .failed (a.1.raiseOp n m code)

/-- The bytes that a re-fill brings (R85), as one GET of a slot: from this chip's memory, or from another chip as the environment tells. -/
def refillBytes (s : State) (n : Nat) (src : BitVec 64) (far : Option Bytes) : Refill :=
  let m := MoverOp.plain 0xC0 src 2048
  match s.firstCheck (s.core n).spec.part.toNat m with
  | some f => .failed (s.raiseOp n m f.2)
  | none =>
    if m.chip ≠ s.chip ∨ m.inHost then
      match far with
      | some b => .got s ((b ++ List.replicate 2048 0).take 2048)
      | none => .failed s
    else s.refillPieces n m far ((pieces m.off 2048).map (fun x => (m.off + x.1, x.2))) []

/-- The first re-fill that is asked for ends (R85). -/
def refillLanded (s : State) (n : Nat) (far : Option Bytes) : State :=
  let c := s.core n
  match c.refills.head? with
  | none => s
  | some k =>
    match assocGet c.clean k with
    | none => s.putCore n (c.refillLost k)
    | some src =>
      if !c.refillClear k then s
      else
        match s.refillBytes n src far with
        | .wait s => s
        | .failed s => s.putCore n (c.refillLost k)
        | .got s bs =>
          let index := c.consumer k
          let c := ({ c with sqb := Sparse.setRun 0 c.sqb (2048 * k) bs, refills := c.refills.erase k }).note 0x1003
          let r := c.redoAll k (s.seedOf c.spec.part.toNat)
          s.putCore n { r with log := (0x1003, index, c.ctl.errLine) :: r.log }

end State

/-- SQB_REFILL_LANDED (R85): `far` is what a source outside this chip's own memory answers, none for a status other than OK. -/
def execSqbRefillLanded (cr : BitVec 9) (far : Option (List (BitVec 8))) (s : State) : Host.Outcome State Fault Refusal :=
  liveEng s (fun s => s.refillLanded cr.toNat far)

/-- MOVER_OP_START (R140, R502 to R510): sent again where the operation had to wait, it goes on from there. -/
def execMoverOpStart (cr : BitVec 9) (slot : BitVec 6) (ev : List MemEvent) (s : State) : Host.Outcome State Fault Refusal :=
  liveEng s (fun s => (s.mapCore cr.toNat (fun c => c.withCtl (fun k => { k with boosted := if k.boosted = some slot.toNat then none else k.boosted }))).moverStart
    cr.toNat slot.toNat ev)

/-- QUOTA_STAGE_PASS (R522), `ns` nanoseconds after tokens were last added. -/
def execQuotaStagePass (cr : BitVec 9) (slot : BitVec 6) (ns : Nat) (s : State) : Host.Outcome State Fault Refusal :=
  liveEng s (fun s => s.quotaPass cr.toNat slot.toNat ns)

/-- RMO_QUOTA (R522): QWAIT_US have passed at the quota stage. -/
def execRmoQuota (cr : BitVec 9) (slot : BitVec 6) (s : State) : Host.Outcome State Fault Refusal :=
  liveEng s (fun s => match s.moverOp cr.toNat slot.toNat with
    | some m => if m.stage = .quota ∧ m.part ≠ 0 then s.refuseOp cr.toNat m 2 0x3101 else s
    | none => s)

/-- RMO_LIFETIME (R524): LIFE_MS have passed and nothing of the operation has left; frames of it that wait are withdrawn. -/
def execRmoLifetime (cr : BitVec 9) (slot : BitVec 6) (s : State) : Host.Outcome State Fault Refusal :=
  liveEng s (fun s => match s.moverOp cr.toNat slot.toNat with
    | some m =>
      if m.isFence ∨ m.inHost ∨ m.chip = s.chip then s
      else if m.stage = .waiting ∨ m.stage = .quota ∨ m.stage = .passed then
        if s.unsent cr.toNat m < m.reqs.length then s else (s.withdrawOp cr.toNat m).refuseOp cr.toNat m 3 0x3106
      else s
    | none => s)

/-- MOVER_OP_COMPLETE (R514), `us` microseconds after issue; `blocks` are the host's answers where the operation reads the host window. -/
def execMoverOpComplete (cr : BitVec 9) (slot : BitVec 6) (us : Nat) (blocks : List HostBlock) (s : State) : Host.Outcome State Fault Refusal :=
  liveEng s (fun s => (s.hostTransfer cr.toNat slot.toNat blocks).complete cr.toNat slot.toNat us)

end Sys2Proof.Machine
end

