-- ==== Sys2Proof/Machine/ExecReduce.lean ====
section
/-!
DEFINITION. Commands of gradient reduction (R537 to R547, R564, R565, R781); its frames stand with the frames.
-/
namespace Sys2Proof.Machine
namespace State

/-- The next bucket of a job starts: it is full, a context is free, and nothing keeps the job still (R547, R569). -/
def bucketFull (s : State) (t : Nat) : RedEnd :=
  match s.redEntry t with
  | none => .done s
  | some j =>
    let n := j.started
    let still := j.flight = [] ∧ s.ckpt.atRest.toNat.testBit j.part
    if (j.run = .idle ∨ j.run = .active) ∧ ¬ still ∧ n < j.buckets ∧ j.landedOf n = 2 * j.bucketSize n ∧ j.flight.length < j.inflight then s.redStart t
    else .done s

/-- A step of the engine that met a missing page fails its job (R542, R567); one that must wait leaves the state as it was. -/
def redOutcome (s : State) (t : Nat) (code : Nat) (e : RedEnd) : State :=
  match e with
  | .done s' => s'
  | .wait f => f s
  | .miss => s.redFail t code ((s.redEntry t).elim 0 (fun j => j.started))

/-- One block of TEST_HOP (R781). -/
def hopBlock (s : State) (stream step phase pos X elem : Nat) (got : RedBlock) (own : List FVal) : RedBlock × Bool :=
  let k := streamKey (s.seedOf 0) stream
  let sums := List.zipWith (fun x y => val32 (rne32 (x.add y))) got.values own
  redCode (decide (X ≠ 0)) X (some got) sums (fun t i => draw k step (redDraw (elem + i) phase pos t))

/-- TEST_HOP (R781): its slot is consumed once its two pages have been read. -/
def testHop (s : State) (slotOff : Nat) (c : Bytes) : State :=
  let f (o n : Nat) : Nat := leNat ((c.drop o).take n)
  let signal := f 48 8
  let form := decide (f 1 1 = 1)
  let count := f 12 1
  let refuse (code : Nat) : State := ((s.redConsume 0).raise 0x000D code 0 0 0).slotDone none 0 slotOff code signal
  if s.sessionsHeld ∨ 1 < f 1 1 ∨ 1023 < f 2 2 ∨ 1 < f 8 1 ∨ (form ∧ (f 9 1 = 0 ∨ 251 < f 9 1)) ∨ (¬ form ∧ f 9 1 ≠ 0) ∨ count = 0 ∨
      (if form then 120 else 64) < count ∨ f 13 3 ≠ 0 ∨ 2 ^ 48 ≤ f 32 8 ∨ f 40 8 ≠ 0 then refuse 0x320B
  else
    match s.engineReads none 0 [(f 16 4 * pageSize, pageSize), (f 20 4 * pageSize, pageSize)] with
    | .wait g => g s
    | .missing _ _ => refuse 0x320B
    | .got t pages =>
      let inp := pages.take pageSize
      let loc := pages.drop pageSize
      let mask := if form then leNat (inp.take 16) else 2 ^ count - 1
      let size (i : Nat) : Nat := if mask.testBit i then 64 else 34
      let offs := (List.range count).foldl (fun (a : List Nat × Nat) i => (a.1 ++ [a.2], a.2 + size i)) ([], if form then 16 else 0)
      let blocks := (List.zip (List.range count) offs.1).map (fun x =>
        let bs := (inp.drop x.2).take (size x.1)
        if mask.testBit x.1 then some (RedBlock.half (halfFrom bs)) else (vwbFrom bs).map RedBlock.vwb)
      if mask ≥ 2 ^ count ∨ blocks.any (fun b => b.isNone) then refuse 0x320B
      else
        let out := (List.zip (List.range count) (blocks.filterMap id)).map (fun x =>
          (x.1, s.hopBlock (f 10 2) (f 32 8) (f 8 1) (f 2 2) (if form then f 9 1 else 0) (f 28 4 + 32 * x.1) x.2
            (RedBlock.half (halfFrom ((loc.drop (64 * x.1)).take 64))).values))
        let s := out.foldl (fun s x => if x.2.2 then s.raise 0x000D 0x320D 0 0 0 else s) (t.redConsume 0)
        let s := s.onRed (fun q => { q with adds := (q.adds + 32 * count) % 2 ^ 64 })
        ((s.enginePut none 0 (f 24 4 * pageSize) (redPayload form (out.map (fun x => (x.1, x.2.1))))).1).slotDone none 0 slotOff 0 signal

end State

/-- OPEN (R539, R540): the next slot of a partition's reduction ring; a slot with an undefined OP is refused here. -/
def execOpenJob (part : BitVec 5) (s : State) : Host.Outcome State Fault Refusal :=
  liveEng s (fun s =>
    let t := s.redSlot part.toNat
    match t.2 with
    | none => t.1
    | some (off, c) =>
      let op := leNat (c.take 1)
      if op = 1 then (t.1.redConsume part.toNat).redOpen part.toNat off c
      else if op = 2 ∨ (op = 3 ∧ part = 0) then t.1
      else ((t.1.redConsume part.toNat).raise 0x000D 0x320B 0 0 0).slotDone none part.toNat off 0x320B (leNat ((c.drop 48).take 8)))

/-- CLOSE (R539, R541). -/
def execCloseJob (part : BitVec 5) (s : State) : Host.Outcome State Fault Refusal :=
  liveEng s (fun s =>
    let t := s.redSlot part.toNat
    match t.2 with
    | some (off, c) => if leNat (c.take 1) = 2 then (t.1.redConsume part.toNat).redClose part.toNat off c else t.1
    | none => t.1)

/-- RED_CLOSE_DONE (R541). -/
def execRedCloseDone (entry : Fin 32) (s : State) : Host.Outcome State Fault Refusal := liveEng s (fun s => s.redCloseDone entry)

/-- TEST_HOP (R781). -/
def execTestHop (s : State) : Host.Outcome State Fault Refusal :=
  liveEng s (fun s =>
    let t := s.redSlot 0
    match t.2 with
    | some (off, c) => if leNat (c.take 1) = 3 then t.1.testHop off c else t.1
    | none => t.1)

/-- BUCKET_FULL (R547). -/
def execBucketFull (entry : Fin 32) (s : State) : Host.Outcome State Fault Refusal :=
  liveEng s (fun s => s.redOutcome entry 0x2001 (s.bucketFull entry))

/-- BUCKET_COMPLETE (R564, R565). -/
def execBucketComplete (entry : Fin 32) (s : State) : Host.Outcome State Fault Refusal := liveEng s (fun s => s.redBucketDone entry)

end Sys2Proof.Machine
end

