-- ==== Sys2Proof/Machine/ExecScalar.lean ====
section
/-!
DEFINITION. Control instructions (R104 to R110): one meaning for each.
-/
namespace Sys2Proof.Machine

/-- Undefined opcode (R101): a trap, where the word's opcode is indeed undefined. -/
def execUndefinedOpcode (cr : BitVec 9) (w : Waits) (word : BitVec 64) (s : State) : Host.Outcome State Fault Refusal :=
  if definedOpcode (bitsNat word.toNat 63 56) then ok s
  else ok (s.onInstr cr word (fun c => c.issue w true [(true, cIllegalOpcode)] true Core.quiet))

/-- NOP (R105). -/
def execNop (cr : BitVec 9) (w : Waits) (f : BitVec 56) (s : State) : Host.Outcome State Fault Refusal :=
  ok (s.onInstr cr (State.opWord 0x00 f) (fun c => c.issue w true [(Opnd.unusedSet f [], cIllegalField)] true Core.quiet))

/-- END (R109): issue stops, the pc staying on it until its waits are over (R145); END_COMPLETE follows. -/
def execEndStream (cr : BitVec 9) (w : Waits) (f : BitVec 56) (s : State) : Host.Outcome State Fault Refusal :=
  ok (s.onInstr cr (State.opWord 0x01 f) (fun c => c.issue w true [(Opnd.unusedSet f [], cIllegalField)] true (fun c =>
    (c.beginEnd).quiet)))

/-- TRAP (R105): SOFT_TRAP, with IMM32[15:0] recorded. -/
def execTrapS (cr : BitVec 9) (w : Waits) (f : BitVec 56) (s : State) : Host.Outcome State Fault Refusal :=
  ok (s.onInstr cr (State.opWord 0x02 f) (fun c =>
    if !c.mayIssue then c.quiet
    else if c.windowLen ≤ c.ctl.pc then c.trap cOverrun 0
    else
      match w.parity with
      | some line => c.parityAtIssue line
      | none =>
        if c.refills.contains (c.fetchLine / 32) then c.quiet
        else if Opnd.unusedSet f [(15, 0)] then c.trap cIllegalField 0
        else c.trap cSoftTrap (Opnd.imm32 f % 65536)))

/-- JMP (R105, R107, R108). -/
def execJmp (cr : BitVec 9) (w : Waits) (f : BitVec 56) (s : State) : Host.Outcome State Fault Refusal :=
  ok (s.onInstr cr (State.opWord 0x03 f) (fun c => c.branch (fun _ => true) id [(31, 0)] [] f w))

/-- BR (R105, R106, R107, R108). COND 6 and 7 are undefined. -/
def execBr (cr : BitVec 9) (w : Waits) (f : BitVec 56) (s : State) : Host.Outcome State Fault Refusal :=
  let a := bitsNat f.toNat 55 51
  let b := bitsNat f.toNat 50 46
  let cond := Opnd.cond f
  ok (s.onInstr cr (State.opWord 0x04 f) (fun c => c.branch (fun c => Core.condHolds cond (c.getS a) (c.getS b)) id [(55, 43), (31, 0)]
    [(decide (6 ≤ cond), cIllegalField)] f w))

/-- LOOP (R105, R107, R108). -/
def execLoop (cr : BitVec 9) (w : Waits) (f : BitVec 56) (s : State) : Host.Outcome State Fault Refusal :=
  let a := bitsNat f.toNat 55 51
  ok (s.onInstr cr (State.opWord 0x05 f) (fun c => c.branch (fun c => c.getS a - 1 != 0) (fun c => c.setS a (c.getS a - 1)) [(55, 51), (31, 0)] [] f w))

/-- ADD (R105): sD ← sA + sB. -/
def execAdd (cr : BitVec 9) (w : Waits) (f : BitVec 56) (s : State) : Host.Outcome State Fault Refusal :=
  ok (s.onInstr cr (State.opWord 0x08 f) (Core.crBinary (fun x y => x + y) f w))

/-- SUB (R105): sD ← sA - sB. -/
def execSub (cr : BitVec 9) (w : Waits) (f : BitVec 56) (s : State) : Host.Outcome State Fault Refusal :=
  ok (s.onInstr cr (State.opWord 0x09 f) (Core.crBinary (fun x y => x - y) f w))

/-- MUL (R105): sD ← low 64 bits of sA × sB. -/
def execMul (cr : BitVec 9) (w : Waits) (f : BitVec 56) (s : State) : Host.Outcome State Fault Refusal :=
  ok (s.onInstr cr (State.opWord 0x0A f) (Core.crBinary (fun x y => x * y) f w))

/-- AND (R105): sD ← sA & sB. -/
def execAndS (cr : BitVec 9) (w : Waits) (f : BitVec 56) (s : State) : Host.Outcome State Fault Refusal :=
  ok (s.onInstr cr (State.opWord 0x0B f) (Core.crBinary (fun x y => x &&& y) f w))

/-- OR (R105): sD ← sA | sB. -/
def execOrS (cr : BitVec 9) (w : Waits) (f : BitVec 56) (s : State) : Host.Outcome State Fault Refusal :=
  ok (s.onInstr cr (State.opWord 0x0C f) (Core.crBinary (fun x y => x ||| y) f w))

/-- XOR (R105): sD ← sA ^ sB. -/
def execXorS (cr : BitVec 9) (w : Waits) (f : BitVec 56) (s : State) : Host.Outcome State Fault Refusal :=
  ok (s.onInstr cr (State.opWord 0x0D f) (Core.crBinary (fun x y => x ^^^ y) f w))

/-- SHL (R105): sD ← sA << sB[5:0]. -/
def execShl (cr : BitVec 9) (w : Waits) (f : BitVec 56) (s : State) : Host.Outcome State Fault Refusal :=
  ok (s.onInstr cr (State.opWord 0x0E f) (Core.crBinary (fun x y => x <<< (y.toNat % 64)) f w))

/-- SHR (R105): sD ← sA >> sB[5:0], logical. -/
def execShr (cr : BitVec 9) (w : Waits) (f : BitVec 56) (s : State) : Host.Outcome State Fault Refusal :=
  ok (s.onInstr cr (State.opWord 0x0F f) (Core.crBinary (fun x y => x >>> (y.toNat % 64)) f w))

/-- SRA (R105): sD ← sA >> sB[5:0], arithmetic. -/
def execSra (cr : BitVec 9) (w : Waits) (f : BitVec 56) (s : State) : Host.Outcome State Fault Refusal :=
  ok (s.onInstr cr (State.opWord 0x10 f) (Core.crBinary (fun x y => x.sshiftRight (y.toNat % 64)) f w))

/-- MIN (R105): sD ← signed minimum. -/
def execMinS (cr : BitVec 9) (w : Waits) (f : BitVec 56) (s : State) : Host.Outcome State Fault Refusal :=
  ok (s.onInstr cr (State.opWord 0x14 f) (Core.crBinary (fun x y => if x.slt y then x else y) f w))

/-- MAX (R105): sD ← signed maximum. -/
def execMaxS (cr : BitVec 9) (w : Waits) (f : BitVec 56) (s : State) : Host.Outcome State Fault Refusal :=
  ok (s.onInstr cr (State.opWord 0x15 f) (Core.crBinary (fun x y => if x.slt y then y else x) f w))

/-- ADDI (R105): sD ← sA + IMM32. -/
def execAddi (cr : BitVec 9) (w : Waits) (f : BitVec 56) (s : State) : Host.Outcome State Fault Refusal :=
  ok (s.onInstr cr (State.opWord 0x11 f) (fun c => c.issue w true [(Opnd.unusedSet f [(55, 46), (31, 0)], cIllegalField)] true (fun c =>
    (c.setS (Opnd.crD f) (c.getS (Opnd.crA f) + Core.immS f)).quiet)))

/-- LI (R105): sD ← IMM48, sign-extended. -/
def execLi (cr : BitVec 9) (w : Waits) (f : BitVec 56) (s : State) : Host.Outcome State Fault Refusal :=
  ok (s.onInstr cr (State.opWord 0x12 f) (fun c => c.issue w true [(Opnd.unusedSet f [(55, 51), (47, 0)], cIllegalField)] true (fun c =>
    (c.setS (Opnd.crD f) (BitVec.ofInt 64 (signed 48 (Opnd.imm48 f)))).quiet)))

/-- LIH (R105): sD[63:48] ← IMM48[15:0]. -/
def execLih (cr : BitVec 9) (w : Waits) (f : BitVec 56) (s : State) : Host.Outcome State Fault Refusal :=
  ok (s.onInstr cr (State.opWord 0x13 f) (fun c => c.issue w true [(Opnd.unusedSet f [(55, 51), (15, 0)], cIllegalField)] true (fun c =>
    (c.setS (Opnd.crD f) (BitVec.ofNat 64 ((c.getS (Opnd.crD f)).toNat % 2 ^ 48 + Opnd.imm48 f % 65536 * 2 ^ 48))).quiet)))

/-- The lines of an 8-byte access at a square-buffer address. -/
def scalarFoot (addr : Nat) (write : Bool) : Footprint :=
  if write then { Footprint.none with writeLines := [(addr / 64, 1)] } else { Footprint.none with readLines := [(addr / 64, 1)] }

/-- LDS (R105, R110). -/
def execLds (cr : BitVec 9) (w : Waits) (f : BitVec 56) (s : State) : Host.Outcome State Fault Refusal :=
  ok (s.onInstr cr (State.opWord 0x18 f) (fun c =>
    let addr := c.ldsAddr f
    c.issue w true (c.ldsBreaches f) (c.noHazard none (scalarFoot addr false)) (fun c =>
      (c.setS (Opnd.crD f) (BitVec.ofNat 64 (leNat (c.readSqb addr 8)))).quiet)))

/-- STS (R105, R110). -/
def execSts (cr : BitVec 9) (w : Waits) (f : BitVec 56) (s : State) : Host.Outcome State Fault Refusal :=
  ok (s.onInstr cr (State.opWord 0x19 f) (fun c =>
    let addr := c.ldsAddr f
    c.issue w true (c.ldsBreaches f) (c.noHazard none (scalarFoot addr true)) (fun c =>
      (c.writeSqb addr (leBytes 8 (c.getS (Opnd.crD f)).toNat)).quiet)))

/-- MOVA (R105): aD ← sA. -/
def execMova (cr : BitVec 9) (w : Waits) (f : BitVec 56) (s : State) : Host.Outcome State Fault Refusal :=
  ok (s.onInstr cr (State.opWord 0x1A f) (Core.crUnary true false (fun c => c.setA (Opnd.crD f) (c.getS (Opnd.crA f))) f w))

/-- MOVS (R105): sD ← aA. -/
def execMovs (cr : BitVec 9) (w : Waits) (f : BitVec 56) (s : State) : Host.Outcome State Fault Refusal :=
  ok (s.onInstr cr (State.opWord 0x1B f) (Core.crUnary false true (fun c => c.setS (Opnd.crD f) (c.getA (Opnd.crA f))) f w))

/-- ADDA (R105): aD ← aA + IMM32. -/
def execAdda (cr : BitVec 9) (w : Waits) (f : BitVec 56) (s : State) : Host.Outcome State Fault Refusal :=
  ok (s.onInstr cr (State.opWord 0x1C f) (fun c => c.issue w true [(Opnd.unusedSet f [(55, 46), (31, 0)], cIllegalField), narrow (Opnd.crD f),
    narrow (Opnd.crA f)] true (fun c => (c.setA (Opnd.crD f) (c.getA (Opnd.crA f) + Core.immS f)).quiet)))

/-- TDSET (R105, R111): tdD ← sA. -/
def execTdset (cr : BitVec 9) (w : Waits) (f : BitVec 56) (s : State) : Host.Outcome State Fault Refusal :=
  ok (s.onInstr cr (State.opWord 0x1D f) (Core.crUnary false false (fun c => c.setTd (Opnd.crD f) (c.getS (Opnd.crA f))) f w))

/-- TDGET (R105): sD ← tdA. -/
def execTdget (cr : BitVec 9) (w : Waits) (f : BitVec 56) (s : State) : Host.Outcome State Fault Refusal :=
  ok (s.onInstr cr (State.opWord 0x1E f) (Core.crUnary false false (fun c => c.setS (Opnd.crD f) (c.getTd (Opnd.crA f))) f w))

/-- TDADV (R105): tdD.BASE advances. -/
def execTdadv (cr : BitVec 9) (w : Waits) (f : BitVec 56) (s : State) : Host.Outcome State Fault Refusal :=
  ok (s.onInstr cr (State.opWord 0x1F f) (fun c => c.issue w true [(Opnd.unusedSet f [(55, 51)], cIllegalField)] true (fun c =>
    (c.setTd (Opnd.crD f) (c.getTd (Opnd.crD f)).advance).quiet)))

/-- MFS (R97, R105). CYCLE reads the count at issue. -/
def execMfs (cr : BitVec 9) (w : Waits) (f : BitVec 56) (s : State) : Host.Outcome State Fault Refusal :=
  let i := Opnd.imm32 f
  ok (s.onInstr cr (State.opWord 0x20 f) (fun c => c.issue w true [(Opnd.unusedSet f [(55, 51), (5, 0)], cIllegalField), (decide (10 < i), cIllegalField)] true
    (fun c => (c.setS (Opnd.crD f) (c.readSpecial cr.toNat i)).quiet)))

/-- MTS (R97, R105). -/
def execMts (cr : BitVec 9) (w : Waits) (f : BitVec 56) (s : State) : Host.Outcome State Fault Refusal :=
  let i := Opnd.imm32 f
  ok (s.onInstr cr (State.opWord 0x21 f) (fun c => c.issue w true [(Opnd.unusedSet f [(50, 46), (5, 0)], cIllegalField),
      (Core.specialIllegal i (c.getS (Opnd.crA f)).toNat, cIllegalField)] true
    (fun c => (c.writeSpecial i (c.getS (Opnd.crA f))).quiet)))

end Sys2Proof.Machine
end

