-- ==== Sys2Proof/Machine/ExecSync.lean ====
section
/-!
DEFINITION. Sync instructions (R142 to R146, R583 to R586), the end of a stream (R109), and the events of the Brim network.
-/
namespace Sys2Proof.Machine
namespace State

/-- The arguments that R822 gives a Brim code: slot and generation. -/
def brimArgs (slot gen : Nat) (r : CoreRes) : CoreRes :=
  { r with log := r.log.map (fun e => if e.1 / 256 = 0x40 then (e.1, slot, gen) else e) }

/-- A sync instruction on a barrier slot (R144, R582, R591). During a quiesce no arrival is accepted, so the core waits (R596). -/
def barrierOp (s : State) (op : Nat) (cr : BitVec 9) (w : Waits) (f : BitVec 56) (arrives : Bool) (eff : Core → Core) : State :=
  if s.halt.isSome then s
  else
    let n := cr.toNat
    let slot := Opnd.ySlot f
    let c := s.core n
    let gen := c.slotArrived slot
    let key := s.brimKey n slot
    let r := c.holding (State.opWord op f) (fun c => c.issue w true [(Opnd.unusedSet f [(55, 50)], cIllegalField), Core.slotBad f, c.kindBad f 2,
      (arrives && decide (slot < 48) && c.overrun slot, 0x4003), (s.slotBroken n slot, 0x4005)]
      (!(arrives && s.ckpt.atRest.toNat.testBit c.spec.part.toNat)) (fun c => (eff c).quiet))
    let s := s.putCore n (brimArgs slot gen r)
    if r.core.slotArrived slot ≠ gen then s.brimPut (.arrive key gen) else s

/-- A sync instruction on a flag slot (R144), with the message it sends once it has issued. -/
def flagOp (s : State) (op : Nat) (cr : BitVec 9) (w : Waits) (f : BitVec 56) (used : List (Nat × Nat)) (msg : Core → BrimKey → BrimMsg) : State :=
  if s.halt.isSome then s
  else
    let n := cr.toNat
    let slot := Opnd.ySlot f
    let c := s.core n
    let key := s.brimKey n slot
    let r := c.holding (State.opWord op f) (fun c => c.issue w true [(Opnd.unusedSet f used, cIllegalField), Core.slotBad f, c.kindBad f 1] true Core.quiet)
    let s := s.putCore n r
    if r.core.ctl.pc ≠ c.ctl.pc then s.brimPut (msg c key) else s

end State

/-- BAR (R583): arrive and wait. -/
def execBar (cr : BitVec 9) (w : Waits) (f : BitVec 56) (s : State) : Host.Outcome State Fault Refusal :=
  ok (s.barrierOp 0xE0 cr w f true (fun c => (c.arrive (Opnd.ySlot f)).beginBrimWait (Opnd.ySlot f)))

/-- BARV (R580): arrive without waiting. -/
def execBarv (cr : BitVec 9) (w : Waits) (f : BitVec 56) (s : State) : Host.Outcome State Fault Refusal :=
  ok (s.barrierOp 0xE1 cr w f true (fun c => c.arrive (Opnd.ySlot f)))

/-- BWAIT (R583): wait until SEEN equals ARRIVED. -/
def execBwait (cr : BitVec 9) (w : Waits) (f : BitVec 56) (s : State) : Host.Outcome State Fault Refusal :=
  ok (s.barrierOp 0xE2 cr w f false (fun c => c.beginBrimWait (Opnd.ySlot f)))

/-- FSET (R585). -/
def execFset (cr : BitVec 9) (w : Waits) (f : BitVec 56) (s : State) : Host.Outcome State Fault Refusal :=
  ok (s.flagOp 0xE3 cr w f [(55, 50), (45, 41)] (fun c k => .set k ((c.getS (Opnd.ySv f)).setWidth 32)))

/-- FADD (R585). -/
def execFadd (cr : BitVec 9) (w : Waits) (f : BitVec 56) (s : State) : Host.Outcome State Fault Refusal :=
  ok (s.flagOp 0xE4 cr w f [(55, 50), (31, 0)] (fun _ k => .add k (BitVec.ofNat 32 (Opnd.imm32 f))))

/-- FWAIT (R143, R586). -/
def execFwait (cr : BitVec 9) (w : Waits) (f : BitVec 56) (s : State) : Host.Outcome State Fault Refusal :=
  ok (s.onInstr cr (State.opWord 0xE5 f) (fun c => c.issue w true [(Opnd.unusedSet f [(55, 50), (45, 38)], cIllegalField), Core.slotBad f,
    (decide (3 ≤ Opnd.yCond f), cIllegalField), c.kindBad f 1] (c.flagHolds f) Core.quiet))

/-- CWAIT (R143). -/
def execCwait (cr : BitVec 9) (w : Waits) (f : BitVec 56) (s : State) : Host.Outcome State Fault Refusal :=
  let n := BitVec.ofNat 32 (Opnd.imm32 f)
  ok (s.onInstr cr (State.opWord 0xE6 f) (fun c => c.issue w true [(Opnd.unusedSet f [(49, 46), (31, 0)], cIllegalField), (decide (Opnd.imm32 f = 0), cIllegalField)]
    (!(c.getCc (Opnd.yCc f)).ult n) (fun c => (c.setCc (Opnd.yCc f) (c.getCc (Opnd.yCc f) - n)).quiet)))

/-- CREAD (R143). -/
def execCread (cr : BitVec 9) (w : Waits) (f : BitVec 56) (s : State) : Host.Outcome State Fault Refusal :=
  ok (s.onInstr cr (State.opWord 0xE7 f) (fun c => c.issue w true [(Opnd.unusedSet f [(49, 41)], cIllegalField)] true
    (fun c => (c.setS (Opnd.ySv f) ((c.getCc (Opnd.yCc f)).setWidth 64)).quiet)))

/-- TWAIT (R143). -/
def execTwait (cr : BitVec 9) (w : Waits) (f : BitVec 56) (s : State) : Host.Outcome State Fault Refusal :=
  ok (s.onInstr cr (State.opWord 0xE8 f) (fun c => c.issue w true [(Opnd.unusedSet f [], cIllegalField)] c.tilesDone Core.quiet))

/-- MWAIT (R143). -/
def execMwait (cr : BitVec 9) (w : Waits) (f : BitVec 56) (s : State) : Host.Outcome State Fault Refusal :=
  ok (s.onInstr cr (State.opWord 0xE9 f) (fun c => c.issue w true [(Opnd.unusedSet f [], cIllegalField)] c.mover.isEmpty Core.quiet))

/-- WSLOT (R257, R259): the slot left is closed, the next begins. -/
def execWslot (cr : BitVec 9) (w : Waits) (f : BitVec 56) (s : State) : Host.Outcome State Fault Refusal :=
  if s.halt.isSome then ok s
  else
    let n := cr.toNat
    let c := s.core n
    let r := c.holding (State.opWord 0xEA f) (fun c =>
      c.issue w true [(Opnd.unusedSet f [(31, 0)], cIllegalField), (c.wslotBad f, cWslotSeq)] true Core.quiet)
    let s := s.putCore n r
    if r.core.ctl.pc ≠ c.ctl.pc then
      ok ((s.closeSlot n).mapCore n (fun c =>
        { c with seenWslot := true, slotOpen := true, spec := { c.spec with slotno := BitVec.ofNat 32 (Opnd.imm32 f), slotWait := 0 } }))
    else ok s

/-- END_COMPLETE (R109, R146, R259, R594): the waits of END are over, `wait` cycles after it. Crown sees the stream at its END (R352). -/
def execEndComplete (cr : BitVec 9) (wait : Nat) (s : State) : Host.Outcome State Fault Refusal :=
  live s (fun s =>
    let n := cr.toNat
    let c := s.core n
    if c.ctl.ending && c.tilesDone && c.mover.isEmpty then
      let s := (((s.mapCore n (fun c => c.spendWait wait)).brimCheck n).closeSlot n).mapCore n Core.finishEnd
      { s with crown := { s.crown with parts := s.crown.parts.map (fun (e : Nat × CrownPart) =>
          (e.1, { e.2 with placed := e.2.placed.map (fun p => if p.core = n then { p with ended := true } else p) })) } }
    else s)

/-! The network's events. Which message is next among those on their way is the environment's choice. -/

def execBrimArrival (k : Nat) (s : State) : Host.Outcome State Fault Refusal :=
  liveEng s (fun s => match s.brimTake (fun m => match m with | .arrive _ _ => true | _ => false) k with
    | some (.arrive key gen, s) => s.brimArrive key gen
    | _ => s)

def execBrimLastAdder (k : Nat) (s : State) : Host.Outcome State Fault Refusal :=
  liveEng s (fun s => match s.brimTake (fun m => match m with | .counter _ _ _ _ => true | _ => false) k with
    | some (.counter id fabric odd old, s) => s.brimCounted id fabric odd old
    | _ => s)

/-- A release reaches a slot (R580, R583): SEEN rises, and a wait that it ends completes. -/
def execBrimReleaseDeliver (cr : BitVec 9) (slot : Fin 48) (s : State) : Host.Outcome State Fault Refusal :=
  live s (fun s => match s.brimTake (fun m => decide (m = .release cr.toNat slot)) 0 with
    | some (_, s) => s.mapCore cr.toNat (fun c =>
        let b := c.brimSlot slot
        (c.setBrimSlot slot { b with hi := BitVec.ofNat 32 ((c.slotSeen slot + 1) % 65536) }).endBrimWait)
    | none => s)

def execBrimFlagUpdate (k : Nat) (s : State) : Host.Outcome State Fault Refusal :=
  live s (fun s => match s.brimTake (fun m => match m with | .set _ _ => true | .add _ _ => true | _ => false) k with
    | some (.set key v, s) => s.flagTake key (fun _ => v)
    | some (.add key v, s) => s.flagTake key (fun x => x + v)
    | _ => s)

/-- A new value reaches a slot's copy, in the node's order (R585). -/
def execBrimFlagDeliver (cr : BitVec 9) (slot : Fin 48) (s : State) : Host.Outcome State Fault Refusal :=
  live s (fun s => match s.brimTake (fun m => match m with | .value n i _ => decide (n = cr.toNat ∧ i = slot.val) | _ => false) 0 with
    | some (.value _ _ v, s) => s.mapCore cr.toNat (fun c => c.setBrimSlot slot { c.brimSlot slot with hi := v })
    | _ => s)

/-- BRIM_SLOT_WRITE (R597, R824). -/
def execBrimSlotWrite (cr : BitVec 9) (who : Writer) (slot : Fin 48) (hi : Bool) (value : BitVec 32) (s : State) :
    Host.Outcome State Fault Refusal :=
  live s (fun s => s.writeSlot cr who slot hi value)

end Sys2Proof.Machine
end

