-- ==== Sys2Proof/Machine/ExecTest.lean ====
section
/-!
DEFINITION. Commands of production and field test (R764 to R786). The test access port works in every state of the chip.
-/
namespace Sys2Proof.Machine

/-- CORE_DIAG (R780). -/
def execCoreDiag (rg : BitVec 4) (core : Fin 32) (who : Writer) (s : State) : Host.Outcome State Fault Refusal :=
  live s (fun s => s.diagStart rg.toNat core who)

/-- CORE_DIAG_DONE (R780): whether every vector matched, else the class that failed first. -/
def execCoreDiagDone (rg : BitVec 4) (pass : Bool) (failOp : BitVec 16) (s : State) : Host.Outcome State Fault Refusal :=
  live s (fun s => s.diagEnd rg.toNat pass failOp.toNat)

/-- LINK_LOOP (R765, R768): MODE and SECONDS as written. -/
def execLinkLoop (j : Fin 36) (who : Writer) (mode : BitVec 3) (seconds : BitVec 8) (s : State) : Host.Outcome State Fault Refusal :=
  live s (fun s => s.loopWrite j who mode.toNat seconds.toNat)

/-- LINK_LOOP_END (R766, R768), with the counts of the run. -/
def execLinkLoopEnd (j : Fin 36) (cnt err : Nat) (s : State) : Host.Outcome State Fault Refusal := live s (fun s => s.loopEnd j cnt err)

/-- IDCODE (R773). -/
def execIdcode (s : State) : Host.Outcome State Fault Refusal := ok (s.tapOut 1 [0x25120D6B])

/-- SAMPLE/PRELOAD (R773): the pins are captured, the boundary register is loaded. -/
def execSamplePreload (pins shift : List Bool) (s : State) : Host.Outcome State Fault Refusal := ok ((s.shiftCells shift).tapOut 2 (pins.map b2n))

/-- EXTEST (R774). -/
def execExtest (pins shift : List Bool) (s : State) : Host.Outcome State Fault Refusal := ok (s.tapScan 3 pins shift)

/-- EXTEST_PULSE (R774). -/
def execExtestPulse (pins shift : List Bool) (s : State) : Host.Outcome State Fault Refusal := ok (s.tapScan 4 pins shift)

/-- EXTEST_TRAIN (R774). -/
def execExtestTrain (pins shift : List Bool) (s : State) : Host.Outcome State Fault Refusal := ok (s.tapScan 5 pins shift)

/-- CLAMP (R774): the pins hold what the boundary register gives, the bypass register is selected. -/
def execTapClamp (s : State) : Host.Outcome State Fault Refusal := ok (s.tapDrive 6 (fun s => s.tapOut 6 []))

/-- HIGHZ (R774). -/
def execTapHighz (s : State) : Host.Outcome State Fault Refusal := ok (s.tapDrive 7 (fun s => s.tapOut 7 []))

/-- BYPASS (R773), and every instruction code that is not assigned. -/
def execTapBypass (s : State) : Host.Outcome State Fault Refusal := ok (s.tapOut 0xFF [])

/-- DBG_CHALLENGE (R776). -/
def execDbgChallenge (s : State) : Host.Outcome State Fault Refusal := ok s.challenge

/-- DBG_TOKEN (R776 to R778): its 192 bytes, and whether the signature verifies. -/
def execDbgToken (token : List (BitVec 8)) (sigOk : Bool) (s : State) : Host.Outcome State Fault Refusal := ok (s.debugToken token sigOk)

/-- DBG_STATUS (R773). -/
def execDbgStatus (s : State) : Host.Outcome State Fault Refusal := ok (s.tapOut 0x22 [s.debugReg.toNat])

/-- FIELD_BIST (R771, R772, R775): failing rows of channels (region, channel, rows). -/
def execFieldBist (rows : List (Nat × Nat × Nat)) (s : State) : Host.Outcome State Fault Refusal :=
  liveEng s (fun s => s.fieldBist rows)

end Sys2Proof.Machine
end

