-- ==== Sys2Proof/Machine/ExecTile.lean ====
section
/-!
DEFINITION. Tile instructions (R115 to R128): one meaning for each, over the shared issue and work of a tile instruction.
-/
namespace Sys2Proof.Machine

/-- A tile instruction on a core, with the stream seed of its partition (R192, R193). -/
def tileOn (op : Nat) (cr : BitVec 9) (w : Waits) (f : BitVec 56) (ev : CheckEvent) (s : State) : State :=
  s.onInstr cr (State.opWord op f) (fun c => issueTile op f w (s.seedOf c.spec.part.toNat) ev c)

/-- TMMA: tile product (R117, R39 to R48, R205 to R232). -/
def execTmma (cr : BitVec 9) (w : Waits) (f : BitVec 56) (ev : CheckEvent) (s : State) : Host.Outcome State Fault Refusal :=
  ok (tileOn 0x40 cr w f ev s)

/-- TPRE: preload (R120). -/
def execTpre (cr : BitVec 9) (w : Waits) (f : BitVec 56) (ev : CheckEvent) (s : State) : Host.Outcome State Fault Refusal :=
  ok (tileOn 0x41 cr w f ev s)

/-- TFIN: spill read-back (R236, R237). -/
def execTfin (cr : BitVec 9) (w : Waits) (f : BitVec 56) (ev : CheckEvent) (s : State) : Host.Outcome State Fault Refusal :=
  ok (tileOn 0x42 cr w f ev s)

/-- TACST: accumulator store (R126). -/
def execTacst (cr : BitVec 9) (w : Waits) (f : BitVec 56) (ev : CheckEvent) (s : State) : Host.Outcome State Fault Refusal :=
  ok (tileOn 0x43 cr w f ev s)

/-- TCVT: tile conversion (R126). -/
def execTcvt (cr : BitVec 9) (w : Waits) (f : BitVec 56) (ev : CheckEvent) (s : State) : Host.Outcome State Fault Refusal :=
  ok (tileOn 0x44 cr w f ev s)

/-- TEPI: epilogue (R122). -/
def execTepi (cr : BitVec 9) (w : Waits) (f : BitVec 56) (ev : CheckEvent) (s : State) : Host.Outcome State Fault Refusal :=
  ok (tileOn 0x45 cr w f ev s)

end Sys2Proof.Machine
end

