-- ==== Sys2Proof/Machine/ExecVector.lean ====
section
/-!
DEFINITION. Vector instructions (R129 to R136): one meaning for each, over the shared issue and work of a vector
instruction.
-/
namespace Sys2Proof.Machine

/-- A vector instruction on a core, with the stream seed of its partition (R192, R193). -/
def vecOn (op : Nat) (cr : BitVec 9) (w : Waits) (f : BitVec 56) (ev : CheckEvent) (s : State) : State :=
  s.onInstr cr (State.opWord op f) (fun c => issueVec op f w (s.seedOf c.spec.part.toNat) ev c)

/-- VADD (R132). -/
def execVadd (cr : BitVec 9) (w : Waits) (f : BitVec 56) (ev : CheckEvent) (s : State) : Host.Outcome State Fault Refusal :=
  ok (vecOn 0x80 cr w f ev s)

/-- VSUB (R132). -/
def execVsub (cr : BitVec 9) (w : Waits) (f : BitVec 56) (ev : CheckEvent) (s : State) : Host.Outcome State Fault Refusal :=
  ok (vecOn 0x81 cr w f ev s)

/-- VMUL (R132). -/
def execVmul (cr : BitVec 9) (w : Waits) (f : BitVec 56) (ev : CheckEvent) (s : State) : Host.Outcome State Fault Refusal :=
  ok (vecOn 0x82 cr w f ev s)

/-- VFMA (R132). -/
def execVfma (cr : BitVec 9) (w : Waits) (f : BitVec 56) (ev : CheckEvent) (s : State) : Host.Outcome State Fault Refusal :=
  ok (vecOn 0x83 cr w f ev s)

/-- VMAX (R132). -/
def execVmax (cr : BitVec 9) (w : Waits) (f : BitVec 56) (ev : CheckEvent) (s : State) : Host.Outcome State Fault Refusal :=
  ok (vecOn 0x84 cr w f ev s)

/-- VMIN (R132). -/
def execVmin (cr : BitVec 9) (w : Waits) (f : BitVec 56) (ev : CheckEvent) (s : State) : Host.Outcome State Fault Refusal :=
  ok (vecOn 0x85 cr w f ev s)

/-- VEXP2 (R132). -/
def execVexp2 (cr : BitVec 9) (w : Waits) (f : BitVec 56) (ev : CheckEvent) (s : State) : Host.Outcome State Fault Refusal :=
  ok (vecOn 0x86 cr w f ev s)

/-- VLOG2 (R132). -/
def execVlog2 (cr : BitVec 9) (w : Waits) (f : BitVec 56) (ev : CheckEvent) (s : State) : Host.Outcome State Fault Refusal :=
  ok (vecOn 0x87 cr w f ev s)

/-- VRCP (R132). -/
def execVrcp (cr : BitVec 9) (w : Waits) (f : BitVec 56) (ev : CheckEvent) (s : State) : Host.Outcome State Fault Refusal :=
  ok (vecOn 0x88 cr w f ev s)

/-- VRSQ (R132). -/
def execVrsq (cr : BitVec 9) (w : Waits) (f : BitVec 56) (ev : CheckEvent) (s : State) : Host.Outcome State Fault Refusal :=
  ok (vecOn 0x89 cr w f ev s)

/-- VCMP (R132). -/
def execVcmp (cr : BitVec 9) (w : Waits) (f : BitVec 56) (ev : CheckEvent) (s : State) : Host.Outcome State Fault Refusal :=
  ok (vecOn 0x8A cr w f ev s)

/-- VSEL (R132). -/
def execVsel (cr : BitVec 9) (w : Waits) (f : BitVec 56) (ev : CheckEvent) (s : State) : Host.Outcome State Fault Refusal :=
  ok (vecOn 0x8B cr w f ev s)

/-- VBCAST (R132). -/
def execVbcast (cr : BitVec 9) (w : Waits) (f : BitVec 56) (ev : CheckEvent) (s : State) : Host.Outcome State Fault Refusal :=
  ok (vecOn 0x8C cr w f ev s)

/-- VLD (R132). -/
def execVld (cr : BitVec 9) (w : Waits) (f : BitVec 56) (ev : CheckEvent) (s : State) : Host.Outcome State Fault Refusal :=
  ok (vecOn 0x8D cr w f ev s)

/-- VST (R132). -/
def execVst (cr : BitVec 9) (w : Waits) (f : BitVec 56) (ev : CheckEvent) (s : State) : Host.Outcome State Fault Refusal :=
  ok (vecOn 0x8E cr w f ev s)

/-- VREDSUM (R132). -/
def execVredsum (cr : BitVec 9) (w : Waits) (f : BitVec 56) (ev : CheckEvent) (s : State) : Host.Outcome State Fault Refusal :=
  ok (vecOn 0x8F cr w f ev s)

/-- VREDMAX (R132). -/
def execVredmax (cr : BitVec 9) (w : Waits) (f : BitVec 56) (ev : CheckEvent) (s : State) : Host.Outcome State Fault Refusal :=
  ok (vecOn 0x90 cr w f ev s)

/-- VIADD (R132). -/
def execViadd (cr : BitVec 9) (w : Waits) (f : BitVec 56) (ev : CheckEvent) (s : State) : Host.Outcome State Fault Refusal :=
  ok (vecOn 0x91 cr w f ev s)

/-- VCVT (R132). -/
def execVcvt (cr : BitVec 9) (w : Waits) (f : BitVec 56) (ev : CheckEvent) (s : State) : Host.Outcome State Fault Refusal :=
  ok (vecOn 0x92 cr w f ev s)

/-- PAND (R132). -/
def execPand (cr : BitVec 9) (w : Waits) (f : BitVec 56) (ev : CheckEvent) (s : State) : Host.Outcome State Fault Refusal :=
  ok (vecOn 0x93 cr w f ev s)

/-- POR (R132). -/
def execPor (cr : BitVec 9) (w : Waits) (f : BitVec 56) (ev : CheckEvent) (s : State) : Host.Outcome State Fault Refusal :=
  ok (vecOn 0x94 cr w f ev s)

/-- PNOT (R132). -/
def execPnot (cr : BitVec 9) (w : Waits) (f : BitVec 56) (ev : CheckEvent) (s : State) : Host.Outcome State Fault Refusal :=
  ok (vecOn 0x95 cr w f ev s)

/-- VACQ (R132). -/
def execVacq (cr : BitVec 9) (w : Waits) (f : BitVec 56) (ev : CheckEvent) (s : State) : Host.Outcome State Fault Refusal :=
  ok (vecOn 0x96 cr w f ev s)

/-- VSTQ (R132). -/
def execVstq (cr : BitVec 9) (w : Waits) (f : BitVec 56) (ev : CheckEvent) (s : State) : Host.Outcome State Fault Refusal :=
  ok (vecOn 0x97 cr w f ev s)

end Sys2Proof.Machine
end

