-- ==== Sys2Proof/Machine/Dispatch.lean ====
section
/-!
DEFINITION. One arm per command: each calls its meaning.
-/
namespace Sys2Proof.Machine

def exec (i : Instr) (s : State) : Host.Outcome State Fault Refusal :=
  match i with
  | .registerWrite who addr value => Sys2Proof.Machine.execRegisterWrite who addr value s
  | .coreEnable cr who => Sys2Proof.Machine.execCoreEnable cr who s
  | .coreStop cr who => Sys2Proof.Machine.execCoreStop cr who s
  | .coreDrain cr who => Sys2Proof.Machine.execCoreDrain cr who s
  | .coreDrained cr => Sys2Proof.Machine.execCoreDrained cr s
  | .coreQuar cr who on => Sys2Proof.Machine.execCoreQuar cr who on s
  | .coreIwinWrite cr who value => Sys2Proof.Machine.execCoreIwinWrite cr who value s
  | .tileRetire cr id => Sys2Proof.Machine.execTileRetire cr id s
  | .moverBoost cr slot => Sys2Proof.Machine.execMoverBoost cr slot s
  | .sqbRefillLanded cr far => Sys2Proof.Machine.execSqbRefillLanded cr far s
  | .coreStopOnError cr => Sys2Proof.Machine.execCoreStopOnError cr s
  | .undefinedOpcode cr w word => Sys2Proof.Machine.execUndefinedOpcode cr w word s
  | .nop cr w f => Sys2Proof.Machine.execNop cr w f s
  | .endStream cr w f => Sys2Proof.Machine.execEndStream cr w f s
  | .endComplete cr wait => Sys2Proof.Machine.execEndComplete cr wait s
  | .trapS cr w f => Sys2Proof.Machine.execTrapS cr w f s
  | .jmp cr w f => Sys2Proof.Machine.execJmp cr w f s
  | .br cr w f => Sys2Proof.Machine.execBr cr w f s
  | .loop cr w f => Sys2Proof.Machine.execLoop cr w f s
  | .add cr w f => Sys2Proof.Machine.execAdd cr w f s
  | .sub cr w f => Sys2Proof.Machine.execSub cr w f s
  | .mul cr w f => Sys2Proof.Machine.execMul cr w f s
  | .andS cr w f => Sys2Proof.Machine.execAndS cr w f s
  | .orS cr w f => Sys2Proof.Machine.execOrS cr w f s
  | .xorS cr w f => Sys2Proof.Machine.execXorS cr w f s
  | .shl cr w f => Sys2Proof.Machine.execShl cr w f s
  | .shr cr w f => Sys2Proof.Machine.execShr cr w f s
  | .sra cr w f => Sys2Proof.Machine.execSra cr w f s
  | .addi cr w f => Sys2Proof.Machine.execAddi cr w f s
  | .li cr w f => Sys2Proof.Machine.execLi cr w f s
  | .lih cr w f => Sys2Proof.Machine.execLih cr w f s
  | .minS cr w f => Sys2Proof.Machine.execMinS cr w f s
  | .maxS cr w f => Sys2Proof.Machine.execMaxS cr w f s
  | .lds cr w f => Sys2Proof.Machine.execLds cr w f s
  | .sts cr w f => Sys2Proof.Machine.execSts cr w f s
  | .mova cr w f => Sys2Proof.Machine.execMova cr w f s
  | .movs cr w f => Sys2Proof.Machine.execMovs cr w f s
  | .adda cr w f => Sys2Proof.Machine.execAdda cr w f s
  | .tdset cr w f => Sys2Proof.Machine.execTdset cr w f s
  | .tdget cr w f => Sys2Proof.Machine.execTdget cr w f s
  | .tdadv cr w f => Sys2Proof.Machine.execTdadv cr w f s
  | .mfs cr w f => Sys2Proof.Machine.execMfs cr w f s
  | .mts cr w f => Sys2Proof.Machine.execMts cr w f s
  | .tmma cr w f ev => Sys2Proof.Machine.execTmma cr w f ev s
  | .tpre cr w f ev => Sys2Proof.Machine.execTpre cr w f ev s
  | .tfin cr w f ev => Sys2Proof.Machine.execTfin cr w f ev s
  | .tacst cr w f ev => Sys2Proof.Machine.execTacst cr w f ev s
  | .tcvt cr w f ev => Sys2Proof.Machine.execTcvt cr w f ev s
  | .tepi cr w f ev => Sys2Proof.Machine.execTepi cr w f ev s
  | .vadd cr w f ev => Sys2Proof.Machine.execVadd cr w f ev s
  | .vsub cr w f ev => Sys2Proof.Machine.execVsub cr w f ev s
  | .vmul cr w f ev => Sys2Proof.Machine.execVmul cr w f ev s
  | .vfma cr w f ev => Sys2Proof.Machine.execVfma cr w f ev s
  | .vmax cr w f ev => Sys2Proof.Machine.execVmax cr w f ev s
  | .vmin cr w f ev => Sys2Proof.Machine.execVmin cr w f ev s
  | .vexp2 cr w f ev => Sys2Proof.Machine.execVexp2 cr w f ev s
  | .vlog2 cr w f ev => Sys2Proof.Machine.execVlog2 cr w f ev s
  | .vrcp cr w f ev => Sys2Proof.Machine.execVrcp cr w f ev s
  | .vrsq cr w f ev => Sys2Proof.Machine.execVrsq cr w f ev s
  | .vcmp cr w f ev => Sys2Proof.Machine.execVcmp cr w f ev s
  | .vsel cr w f ev => Sys2Proof.Machine.execVsel cr w f ev s
  | .vbcast cr w f ev => Sys2Proof.Machine.execVbcast cr w f ev s
  | .vld cr w f ev => Sys2Proof.Machine.execVld cr w f ev s
  | .vst cr w f ev => Sys2Proof.Machine.execVst cr w f ev s
  | .vredsum cr w f ev => Sys2Proof.Machine.execVredsum cr w f ev s
  | .vredmax cr w f ev => Sys2Proof.Machine.execVredmax cr w f ev s
  | .viadd cr w f ev => Sys2Proof.Machine.execViadd cr w f ev s
  | .vcvt cr w f ev => Sys2Proof.Machine.execVcvt cr w f ev s
  | .pand cr w f ev => Sys2Proof.Machine.execPand cr w f ev s
  | .por cr w f ev => Sys2Proof.Machine.execPor cr w f ev s
  | .pnot cr w f ev => Sys2Proof.Machine.execPnot cr w f ev s
  | .vacq cr w f ev => Sys2Proof.Machine.execVacq cr w f ev s
  | .vstq cr w f ev => Sys2Proof.Machine.execVstq cr w f ev s
  | .get cr w f => Sys2Proof.Machine.execGet cr w f s
  | .put cr w f => Sys2Proof.Machine.execPut cr w f s
  | .putSignal cr w f => Sys2Proof.Machine.execPutSignal cr w f s
  | .atomicAdd cr w f => Sys2Proof.Machine.execAtomicAdd cr w f s
  | .atomicCas cr w f => Sys2Proof.Machine.execAtomicCas cr w f s
  | .reducePut cr w f => Sys2Proof.Machine.execReducePut cr w f s
  | .fence cr w f => Sys2Proof.Machine.execFence cr w f s
  | .moverOpStart cr slot ev => Sys2Proof.Machine.execMoverOpStart cr slot ev s
  | .quotaStagePass cr slot ns => Sys2Proof.Machine.execQuotaStagePass cr slot ns s
  | .rmoQuota cr slot => Sys2Proof.Machine.execRmoQuota cr slot s
  | .rmoLifetime cr slot => Sys2Proof.Machine.execRmoLifetime cr slot s
  | .moverOpComplete cr slot us blocks => Sys2Proof.Machine.execMoverOpComplete cr slot us blocks s
  | .bar cr w f => Sys2Proof.Machine.execBar cr w f s
  | .barv cr w f => Sys2Proof.Machine.execBarv cr w f s
  | .bwait cr w f => Sys2Proof.Machine.execBwait cr w f s
  | .fset cr w f => Sys2Proof.Machine.execFset cr w f s
  | .fadd cr w f => Sys2Proof.Machine.execFadd cr w f s
  | .fwait cr w f => Sys2Proof.Machine.execFwait cr w f s
  | .cwait cr w f => Sys2Proof.Machine.execCwait cr w f s
  | .cread cr w f => Sys2Proof.Machine.execCread cr w f s
  | .twait cr w f => Sys2Proof.Machine.execTwait cr w f s
  | .mwait cr w f => Sys2Proof.Machine.execMwait cr w f s
  | .wslot cr w f => Sys2Proof.Machine.execWslot cr w f s
  | .waitTimeout cr => Sys2Proof.Machine.execWaitTimeout cr s
  | .weaveLateClear rg who => Sys2Proof.Machine.execWeaveLateClear rg who s
  | .ueSlotConsume rg part => Sys2Proof.Machine.execUeSlotConsume rg part s
  | .ueRegister rg k => Sys2Proof.Machine.execUeRegister rg k s
  | .ueRelease rg k => Sys2Proof.Machine.execUeRelease rg k s
  | .ueAccum rg k => Sys2Proof.Machine.execUeAccum rg k s
  | .ueStep rg k => Sys2Proof.Machine.execUeStep rg k s
  | .ueMode rg k => Sys2Proof.Machine.execUeMode rg k s
  | .ueUndefinedOp rg k => Sys2Proof.Machine.execUeUndefinedOp rg k s
  | .ueEnable rg who on => Sys2Proof.Machine.execUeEnable rg who on s
  | .ueDrain rg who => Sys2Proof.Machine.execUeDrain rg who s
  | .ueDrainComplete rg => Sys2Proof.Machine.execUeDrainComplete rg s
  | .patrolPass rg ev => Sys2Proof.Machine.execPatrolPass rg ev s
  | .patrolRun rg who => Sys2Proof.Machine.execPatrolRun rg who s
  | .heatDecaySweep flips => Sys2Proof.Machine.execHeatDecaySweep flips s
  | .prtRepairComplete => Sys2Proof.Machine.execPrtRepairComplete s
  | .chainMaxClear who => Sys2Proof.Machine.execChainMaxClear who s
  | .rbLineFill rg page line => Sys2Proof.Machine.execRbLineFill rg page line s
  | .mergeReadDone page line ev => Sys2Proof.Machine.execMergeReadDone page line ev s
  | .wholePageWriteDone page => Sys2Proof.Machine.execWholePageWriteDone page s
  | .scrubJobStart rg => Sys2Proof.Machine.execScrubJobStart rg s
  | .scrubZeroFillDone rg => Sys2Proof.Machine.execScrubZeroFillDone rg s
  | .scrubEraseDone rg => Sys2Proof.Machine.execScrubEraseDone rg s
  | .scrubSweepDone rg ev => Sys2Proof.Machine.execScrubSweepDone rg ev s
  | .scrubReencryptDone rg ev => Sys2Proof.Machine.execScrubReencryptDone rg ev s
  | .keySlotLoad cuff slot => Sys2Proof.Machine.execKeySlotLoad cuff slot s
  | .keySlotZeroise cuff slot => Sys2Proof.Machine.execKeySlotZeroise cuff slot s
  | .d2dFlitSend dcuff part kgen cls units route payload => Sys2Proof.Machine.execD2dFlitSend dcuff part kgen cls units route payload s
  | .d2dFlitReceive dcuff flit owner => Sys2Proof.Machine.execD2dFlitReceive dcuff flit owner s
  | .d2dReplayRequest dcuff ctr => Sys2Proof.Machine.execD2dReplayRequest dcuff ctr s
  | .integrityHalt => Sys2Proof.Machine.execIntegrityHalt s
  | .charterSubmit c encOk sigsOk operOk => Sys2Proof.Machine.execCharterSubmit c encOk sigsOk operOk s
  | .doeDiscovery index => Sys2Proof.Machine.execDoeDiscovery index s
  | .getVersion t => Sys2Proof.Machine.execGetVersion t s
  | .getCapabilities t => Sys2Proof.Machine.execGetCapabilities t s
  | .negotiateAlgorithms t offered => Sys2Proof.Machine.execNegotiateAlgorithms t offered s
  | .getDigests t => Sys2Proof.Machine.execGetDigests t s
  | .getCertificate t slot => Sys2Proof.Machine.execGetCertificate t slot s
  | .challenge t slot => Sys2Proof.Machine.execChallenge t slot s
  | .getMeasurements t index => Sys2Proof.Machine.execGetMeasurements t index s
  | .keyExchange t => Sys2Proof.Machine.execKeyExchange t s
  | .spdmFinish t sec good => Sys2Proof.Machine.execSpdmFinish t sec good s
  | .endSession t sec => Sys2Proof.Machine.execEndSession t sec s
  | .seedShare sec owner id share sigOk => Sys2Proof.Machine.execSeedShare sec owner id share sigOk s
  | .ownerAgree sec owner id sigOk pub => Sys2Proof.Machine.execOwnerAgree sec owner id sigOk pub s
  | .ownerRotate sec owner id sigOk part => Sys2Proof.Machine.execOwnerRotate sec owner id sigOk part s
  | .ownerEnd sec owner id sigOk => Sys2Proof.Machine.execOwnerEnd sec owner id sigOk s
  | .escrowShare sec owner id sigOk index share => Sys2Proof.Machine.execEscrowShare sec owner id sigOk index share s
  | .ingestRecord ring header payload tag => Sys2Proof.Machine.execIngestRecord ring header payload tag s
  | .restoreRecord ring header payload => Sys2Proof.Machine.execRestoreRecord ring header payload s
  | .egressPost => Sys2Proof.Machine.execEgressPost s
  | .egrFull cr slot => Sys2Proof.Machine.execEgrFull cr slot s
  | .keysRotateGo part who => Sys2Proof.Machine.execKeysRotateGo part who s
  | .sessCtrlEnd slot who => Sys2Proof.Machine.execSessCtrlEnd slot who s
  | .scheduledRotation slot => Sys2Proof.Machine.execScheduledRotation slot s
  | .rotationComplete part => Sys2Proof.Machine.execRotationComplete part s
  | .notAfterExpiry slot => Sys2Proof.Machine.execNotAfterExpiry slot s
  | .teardownDrained slot => Sys2Proof.Machine.execTeardownDrained slot s
  | .sessionClosed slot => Sys2Proof.Machine.execSessionClosed slot s
  | .teardownStall slot => Sys2Proof.Machine.execTeardownStall slot s
  | .submit part rings => Sys2Proof.Machine.execSubmit part rings s
  | .withdraw part => Sys2Proof.Machine.execWithdraw part s
  | .withdrawTakeEffect part => Sys2Proof.Machine.execWithdrawTakeEffect part s
  | .crownStepBoundary part => Sys2Proof.Machine.execCrownStepBoundary part s
  | .migrationScan => Sys2Proof.Machine.execMigrationScan s
  | .migrationCopyDone k => Sys2Proof.Machine.execMigrationCopyDone k s
  | .regionSleep rg => Sys2Proof.Machine.execRegionSleep rg s
  | .regionSleepEntryDone rg => Sys2Proof.Machine.execRegionSleepEntryDone rg s
  | .regionWake rg core => Sys2Proof.Machine.execRegionWake rg core s
  | .regionWakeDone rg ns => Sys2Proof.Machine.execRegionWakeDone rg ns s
  | .coreEscalation cr => Sys2Proof.Machine.execCoreEscalation cr s
  | .crownEscalationReceive => Sys2Proof.Machine.execCrownEscalationReceive s
  | .streamReplace part stream => Sys2Proof.Machine.execStreamReplace part stream s
  | .slotRestart part stream => Sys2Proof.Machine.execSlotRestart part stream s
  | .borrow => Sys2Proof.Machine.execBorrow s
  | .crownFrame f msg => Sys2Proof.Machine.execCrownFrame f msg s
  | .loanCopyDone k => Sys2Proof.Machine.execLoanCopyDone k s
  | .recall => Sys2Proof.Machine.execRecall s
  | .crownStall => Sys2Proof.Machine.execCrownStall s
  | .linkTrainStart j => Sys2Proof.Machine.execLinkTrainStart j s
  | .linkTrainPhaseDone j peer peerLink good pub => Sys2Proof.Machine.execLinkTrainPhaseDone j peer peerLink good pub s
  | .linkTrainPhaseTimeout j => Sys2Proof.Machine.execLinkTrainPhaseTimeout j s
  | .fastRetrain j => Sys2Proof.Machine.execFastRetrain j s
  | .fastRetrainDone j good => Sys2Proof.Machine.execFastRetrainDone j good s
  | .flitReceive j periods => Sys2Proof.Machine.execFlitReceive j periods s
  | .linkNak j ack => Sys2Proof.Machine.execLinkNak j ack s
  | .frameSend j fseq => Sys2Proof.Machine.execFrameSend j fseq s
  | .classFloor j cls => Sys2Proof.Machine.execClassFloor j cls s
  | .heartbeatSend => Sys2Proof.Machine.execHeartbeatSend s
  | .heartbeat f => Sys2Proof.Machine.execHeartbeat f s
  | .linkSilence j path => Sys2Proof.Machine.execLinkSilence j path s
  | .carrierLost j => Sys2Proof.Machine.execCarrierLost j s
  | .lockLost j => Sys2Proof.Machine.execLockLost j s
  | .retrainTimeout pos => Sys2Proof.Machine.execRetrainTimeout pos s
  | .haltFrame f => Sys2Proof.Machine.execHaltFrame f s
  | .teardownFrame f => Sys2Proof.Machine.execTeardownFrame f s
  | .timeReqSend pos => Sys2Proof.Machine.execTimeReqSend pos s
  | .timeReq f => Sys2Proof.Machine.execTimeReq f s
  | .timeRsp f => Sys2Proof.Machine.execTimeRsp f s
  | .timeUnlocked lost => Sys2Proof.Machine.execTimeUnlocked lost s
  | .syncPps high => Sys2Proof.Machine.execSyncPps high s
  | .rekeyLimit peer part => Sys2Proof.Machine.execRekeyLimit peer part s
  | .rekeyOffer f pub => Sys2Proof.Machine.execRekeyOffer f pub s
  | .rekeyAccept f pub => Sys2Proof.Machine.execRekeyAccept f pub s
  | .rekeyDone f => Sys2Proof.Machine.execRekeyDone f s
  | .rekeyTimeout peer part => Sys2Proof.Machine.execRekeyTimeout peer part s
  | .pathSetup f fid digest device chainOk pub => Sys2Proof.Machine.execPathSetup f fid digest device chainOk pub s
  | .pathReply f fid digest device chainOk pub => Sys2Proof.Machine.execPathReply f fid digest device chainOk pub s
  | .confirmFrame f => Sys2Proof.Machine.execConfirmFrame f s
  | .unreachable f chip => Sys2Proof.Machine.execUnreachable f chip s
  | .pathStoreFull chip part => Sys2Proof.Machine.execPathStoreFull chip part s
  | .linkRetrain j who => Sys2Proof.Machine.execLinkRetrain j who s
  | .linkTrain j who => Sys2Proof.Machine.execLinkTrain j who s
  | .linkEnable j who on => Sys2Proof.Machine.execLinkEnable j who on s
  | .putLines f => Sys2Proof.Machine.execPutLines f s
  | .putBytes f => Sys2Proof.Machine.execPutBytes f s
  | .signalFrame f => Sys2Proof.Machine.execSignalFrame f s
  | .getReq f ev => Sys2Proof.Machine.execGetReq f ev s
  | .getData f => Sys2Proof.Machine.execGetData f s
  | .atomicReq f => Sys2Proof.Machine.execAtomicReq f s
  | .atomicRsp f => Sys2Proof.Machine.execAtomicRsp f s
  | .ack f => Sys2Proof.Machine.execAck f s
  | .openJob part => Sys2Proof.Machine.execOpenJob part s
  | .closeJob part => Sys2Proof.Machine.execCloseJob part s
  | .redCloseDone entry => Sys2Proof.Machine.execRedCloseDone entry s
  | .testHop => Sys2Proof.Machine.execTestHop s
  | .redOpen f => Sys2Proof.Machine.execRedOpen f s
  | .bucketFull entry => Sys2Proof.Machine.execBucketFull entry s
  | .redReady f => Sys2Proof.Machine.execRedReady f s
  | .redData f residue => Sys2Proof.Machine.execRedData f residue s
  | .redAbort f => Sys2Proof.Machine.execRedAbort f s
  | .bucketComplete entry => Sys2Proof.Machine.execBucketComplete entry s
  | .brimArrival k => Sys2Proof.Machine.execBrimArrival k s
  | .brimLastAdder k => Sys2Proof.Machine.execBrimLastAdder k s
  | .brimFrame f => Sys2Proof.Machine.execBrimFrame f s
  | .brimReleaseDeliver cr slot => Sys2Proof.Machine.execBrimReleaseDeliver cr slot s
  | .brimFlagUpdate k => Sys2Proof.Machine.execBrimFlagUpdate k s
  | .brimFlagDeliver cr slot => Sys2Proof.Machine.execBrimFlagDeliver cr slot s
  | .brimSlotWrite cr who slot hi value => Sys2Proof.Machine.execBrimSlotWrite cr who slot hi value s
  | .ckptConfig part place => Sys2Proof.Machine.execCkptConfig part place s
  | .ckptQuiesce slot => Sys2Proof.Machine.execCkptQuiesce slot s
  | .ckptQuiesceTimeout slot => Sys2Proof.Machine.execCkptQuiesceTimeout slot s
  | .ckptCopy slot => Sys2Proof.Machine.execCkptCopy slot s
  | .ckptResume slot => Sys2Proof.Machine.execCkptResume slot s
  | .ckptDrainDone slot => Sys2Proof.Machine.execCkptDrainDone slot s
  | .ckptImageCheck slot odd => Sys2Proof.Machine.execCkptImageCheck slot odd s
  | .ckptCommit slot => Sys2Proof.Machine.execCkptCommit slot s
  | .ckptPlanReceive slot vps => Sys2Proof.Machine.execCkptPlanReceive slot vps s
  | .restoreBegin slot back => Sys2Proof.Machine.execRestoreBegin slot back s
  | .restoreRecordReceive slot => Sys2Proof.Machine.execRestoreRecordReceive slot s
  | .restoreImageFetched slot record => Sys2Proof.Machine.execRestoreImageFetched slot record s
  | .restoreComplete slot => Sys2Proof.Machine.execRestoreComplete slot s
  | .settleEnd slot vps => Sys2Proof.Machine.execSettleEnd slot vps s
  | .coldBoot b => Sys2Proof.Machine.execColdBoot b s
  | .bootReady rings => Sys2Proof.Machine.execBootReady rings s
  | .bootTimeout => Sys2Proof.Machine.execBootTimeout s
  | .ingestDoorbell ring who value => Sys2Proof.Machine.execIngestDoorbell ring who value s
  | .ingestRingReset ring who => Sys2Proof.Machine.execIngestRingReset ring who s
  | .egressHeadWrite who value => Sys2Proof.Machine.execEgressHeadWrite who value s
  | .werrClear who => Sys2Proof.Machine.execWerrClear who s
  | .pcieReset => Sys2Proof.Machine.execPcieReset s
  | .ideIntegrity => Sys2Proof.Machine.execIdeIntegrity s
  | .pcieLoopbackFollower => Sys2Proof.Machine.execPcieLoopbackFollower s
  | .mgmtConnect key chainOk inDate => Sys2Proof.Machine.execMgmtConnect key chainOk inDate s
  | .mgmtDiscard => Sys2Proof.Machine.execMgmtDiscard s
  | .mgmtInfo conn id => Sys2Proof.Machine.execMgmtInfo conn id s
  | .readReg conn id addr n => Sys2Proof.Machine.execReadReg conn id addr n s
  | .writeReg conn id addr value => Sys2Proof.Machine.execWriteReg conn id addr value s
  | .telemSet conn id period => Sys2Proof.Machine.execTelemSet conn id period s
  | .telemPush conn measured => Sys2Proof.Machine.execTelemPush conn measured s
  | .flogRead conn id seq => Sys2Proof.Machine.execFlogRead conn id seq s
  | .mgmtCharter conn id c encOk sigsOk operOk => Sys2Proof.Machine.execMgmtCharter conn id c encOk sigsOk operOk s
  | .mgmtSessions conn id => Sys2Proof.Machine.execMgmtSessions conn id s
  | .sessionEnd conn id slot => Sys2Proof.Machine.execSessionEnd conn id slot s
  | .mgmtRotate conn id part => Sys2Proof.Machine.execMgmtRotate conn id part s
  | .stageBegin conn id slot total => Sys2Proof.Machine.execStageBegin conn id slot total s
  | .stageData conn id off data flashOk => Sys2Proof.Machine.execStageData conn id off data flashOk s
  | .stageCommit conn id unread kSig iSig flashOk => Sys2Proof.Machine.execStageCommit conn id unread kSig iSig flashOk s
  | .stageTimeout => Sys2Proof.Machine.execStageTimeout s
  | .mgmtSpdm conn id q => Sys2Proof.Machine.execMgmtSpdm conn id q s
  | .ppsSecond conn id sec => Sys2Proof.Machine.execPpsSecond conn id sec s
  | .placementRead conn id start => Sys2Proof.Machine.execPlacementRead conn id start s
  | .visorReport conn id => Sys2Proof.Machine.execVisorReport conn id s
  | .mgmtMsgIllegal conn type id => Sys2Proof.Machine.execMgmtMsgIllegal conn type id s
  | .flogFlashWrite => Sys2Proof.Machine.execFlogFlashWrite s
  | .mgmtRestart => Sys2Proof.Machine.execMgmtRestart s
  | .mctpControl cmd eid => Sys2Proof.Machine.execMctpControl cmd eid s
  | .bmcHealth => Sys2Proof.Machine.execBmcHealth s
  | .bmcFlog => Sys2Proof.Machine.execBmcFlog s
  | .bmcCap watts => Sys2Proof.Machine.execBmcCap watts s
  | .pllLock d mhz => Sys2Proof.Machine.execPllLock d mhz s
  | .pllUnlock d mhz => Sys2Proof.Machine.execPllUnlock d mhz s
  | .xtalFail => Sys2Proof.Machine.execXtalFail s
  | .seamStall near far => Sys2Proof.Machine.execSeamStall near far s
  | .seamRelease d => Sys2Proof.Machine.execSeamRelease d s
  | .vrFault rg mv => Sys2Proof.Machine.execVrFault rg mv s
  | .dvfsChange rg => Sys2Proof.Machine.execDvfsChange rg s
  | .powerSample readings => Sys2Proof.Machine.execPowerSample readings s
  | .thermalSample regions ld smd dramStacks => Sys2Proof.Machine.execThermalSample regions ld smd dramStacks s
  | .coldRstN low => Sys2Proof.Machine.execColdRstN low s
  | .pwrgd low => Sys2Proof.Machine.execPwrgd low s
  | .perst low => Sys2Proof.Machine.execPerst low s
  | .throttleN low => Sys2Proof.Machine.execThrottleN low s
  | .inputStuck pin => Sys2Proof.Machine.execInputStuck pin s
  | .visorSample days readings rings => Sys2Proof.Machine.execVisorSample days readings rings s
  | .visorPeriod days => Sys2Proof.Machine.execVisorPeriod days s
  | .visorRun who => Sys2Proof.Machine.execVisorRun who s
  | .visorPlanApply flashOk => Sys2Proof.Machine.execVisorPlanApply flashOk s
  | .coreDiag rg core who => Sys2Proof.Machine.execCoreDiag rg core who s
  | .coreDiagDone rg pass failOp => Sys2Proof.Machine.execCoreDiagDone rg pass failOp s
  | .linkLoop j who mode seconds => Sys2Proof.Machine.execLinkLoop j who mode seconds s
  | .linkLoopEnd j cnt err => Sys2Proof.Machine.execLinkLoopEnd j cnt err s
  | .idcode => Sys2Proof.Machine.execIdcode s
  | .samplePreload pins shift => Sys2Proof.Machine.execSamplePreload pins shift s
  | .extest pins shift => Sys2Proof.Machine.execExtest pins shift s
  | .extestPulse pins shift => Sys2Proof.Machine.execExtestPulse pins shift s
  | .extestTrain pins shift => Sys2Proof.Machine.execExtestTrain pins shift s
  | .tapClamp => Sys2Proof.Machine.execTapClamp s
  | .tapHighz => Sys2Proof.Machine.execTapHighz s
  | .tapBypass => Sys2Proof.Machine.execTapBypass s
  | .dbgChallenge => Sys2Proof.Machine.execDbgChallenge s
  | .dbgToken token sigOk => Sys2Proof.Machine.execDbgToken token sigOk s
  | .dbgStatus => Sys2Proof.Machine.execDbgStatus s
  | .powerUp => Sys2Proof.Machine.execPowerUp s
  | .railInRange => Sys2Proof.Machine.execRailInRange s
  | .railFault rail mv => Sys2Proof.Machine.execRailFault rail mv s
  | .railFall => Sys2Proof.Machine.execRailFall s
  | .groupWriteBack rg k bad => Sys2Proof.Machine.execGroupWriteBack rg k bad s
  | .vectorRetire cr id => Sys2Proof.Machine.execVectorRetire cr id s
  | .recallCopyDone k => Sys2Proof.Machine.execRecallCopyDone k s
  | .ideKm sec set go => Sys2Proof.Machine.execIdeKm sec set go s
  | .entdaa => Sys2Proof.Machine.execEntdaa s
  | .pcieLinkUp speed width flit => Sys2Proof.Machine.execPcieLinkUp speed width flit s
  | .mgmtConnectionClose conn => Sys2Proof.Machine.execMgmtConnectionClose conn s
  | .aonPowerLoss => Sys2Proof.Machine.execAonPowerLoss s
  | .fieldBist rows => Sys2Proof.Machine.execFieldBist rows s
  | .sgmiiLink up addr => Sys2Proof.Machine.execSgmiiLink up addr s

end Sys2Proof.Machine
end

