-- ==== Sys2Proof/Machine/Idle.lean ====
section
/-!
DEFINITION. What happens while no command waits.
-/
namespace Sys2Proof.Machine

/-- A period of the AON clock in ns (R491, R707): 25 MHz. (DESIGN CHOICE, log entry 2) -/
def aonTick : Nat := 40

/-- The device idles: one period of the AON clock passes (DESIGN CHOICE, notes/assumptions/2.md). (DESIGN CHOICE, log entry 2) -/
def State.idle (s : State) : State := s.timePass aonTick

end Sys2Proof.Machine
end

