-- ==== Sys2Proof/Safety.lean ====
section
/-!
DEFINITION. What claims are stated about: a device that runs, one that has halted, one that a token has opened, and commands that say what the device itself
would do next.
-/
namespace Sys2Proof.Machine
namespace State

/-- No integrity halt has begun (R407). -/
def running (s : State) : Bool := s.halt.isNone

/-- The protection set-up is locked (R650). (DEDUCED, log entry 25) -/
def locked (s : State) : Bool := (s.reg (ctl 1 0)).toNat.testBit 0

/-- No key is held in any Cuff (R407, R778). -/
def keyless (s : State) : Bool := s.keySlots.all (fun e => e.2 = 0)

/-- The word that a core's window holds at its pc (R100, R108). -/
def fetchWord (s : State) (n : Nat) : BitVec 64 :=
  let c := s.core n
  BitVec.ofNat 64 (leNat (c.readSqb (64 * c.ctl.iwinBase.toNat + 8 * c.ctl.pc) 8))

/-- An instruction of a core is the one that the core's window holds at its pc: what a sender of core instructions keeps to. (DESIGN CHOICE, log entry 10) -/
def fetched (s : State) (i : Instr) : Bool :=
  match issuingCore i, encodeWord i with
  | some cr, some word => s.fetchWord cr.toNat == word
  | _, _ => true

/-- Control addresses whose registers boot locks (R648 to R650, R464). (DEDUCED, log entry 25) -/
def bootLocked : List Nat :=
  [ctl 1 0, ctl 1 4, ctl 1 8, ctl 1 0xC, ctl 1 0x10, ctl 0x000E 0] ++ (List.range 12).map (fun i => ctl 1 (0x40 + 4 * i))

/-- Core `cr` may try the instruction of opcode `op` and fields `f` (R72, R92, R108, R407): the device has not halted, the core may issue, its pc is inside its
window, the line of the window has been read whole and no other instruction waits. -/
def issues (s : State) (cr : BitVec 9) (w : Waits) (op : Nat) (f : BitVec 56) : Prop :=
  let c := s.core cr.toNat
  s.halt = none ∧ c.mayIssue = true ∧ c.ctl.pc < c.windowLen ∧ w.parity = none ∧ c.refills.contains (c.fetchLine / 32) = false ∧
  (c.ctl.waiting = false ∨ c.ctl.waitWord = opWord op f)

/-- A frame of a type arrives on a link that is up and passes the checks of R483 that its type asks for. -/
def arrives (s : State) (f : RxFrame) (type : Nat) : Prop :=
  s.halt = none ∧ (s.link f.link).run = .up ∧
  (unkeyed f.link type = true ∨ (s.fidOk f = true ∧ s.rxKey f = true ∧
    s.keys.flipped.contains (64 * (22 + f.link.val) + (2 * f.part.toNat + b2n f.kgen)) = false ∧ s.ctrOk f = true ∧ s.frameTagOk f type = true))

/-- The device after a frame has passed: its counter and credits, before its effect (R478, R483). -/
def passed (s : State) (f : RxFrame) (type : Nat) : State := s.rxPassed f (!unkeyed f.link type)

/-- A frame with the payload that the Cuff delivers: deciphered where its type is keyed (R483). -/
def plain (s : State) (f : RxFrame) (type : Nat) : RxFrame := if unkeyed f.link type then f else { f with payload := s.frameText f }

/-- Nothing has halted the device and no engine's write waits. -/
abbrev calm (s : State) : Prop := s.halt = none ∧ s.mem.engine = []

end State

/-- A core after a try of an instruction that must wait (R72): its word holds every other. -/
def Core.waitsFor (c : Core) (op : Nat) (f : BitVec 56) : Core := { c with ctl := { c.ctl with waiting := true, waitWord := State.opWord op f } }

/-- The device after a trap of core `cr` (R151 to R153, R822): the core keeps its whole state but for the stop that begins, and the code is logged with the core,
the pc and the slot number. -/
def State.trapped (s : State) (cr : BitVec 9) (code info : Nat) : State :=
  let c := s.core cr.toNat
  (s.setCore cr.toNat { c with ctl := { c.ctl with stopping := some ⟨code, info⟩, waiting := false, brimWait := none, escalated := c.ctl.escalated ++ [code] } }).raise
    (regionBlock (cr.toNat / 32)) code cr.toNat c.ctl.pc c.spec.slotno.toNat

/-- A lane of a vector register. -/
def Core.lane (c : Core) (r l : Nat) : F32 := (c.getV r).getD l 0

/-- Element i = 32·row + col of an accumulator tile. -/
def Core.elem (c : Core) (t i : Nat) : F32 := (c.getAcc t).getD i 0

/-- The operands of a vector instruction breach no rule and no earlier instruction holds it back (R75, R147, R154). -/
def Core.vecReady (c : Core) (op : Nat) (f : Opnd) : Prop :=
  lowestCode (vecBreaches c f (captureVec c op f)) = none ∧ c.noHazard none (vecFoot (captureVec c op f)) = true

/-- A core after a vector instruction has issued, with what it wrote in `d` (R147). -/
def Core.vecIssued (c d : Core) (op : Nat) (f : Opnd) : Core :=
  d.enter false none false (vecFoot (captureVec c op f)) false none none c.ctl.pc

/-- The operands of a tile instruction breach no rule, no earlier instruction holds it back, and an entry is free (R73, R75, R154). -/
def Core.tileReady (c : Core) (op : Nat) (f : Opnd) : Prop :=
  let j := captureTile c op f
  lowestCode ((Opnd.unusedSet f (tileFields op), cIllegalField) :: tileBreaches c j) = none ∧
  c.noHazard (if op = 0x40 && !j.start then some j.acc else none) (tileFoot j) = true ∧ c.tilesInFlight < 24 ∧
  (readsAcc j = true → c.poisoned j.acc = false) ∧
  (op = 0x40 → j.start = false → c.unret.all (fun u => u.redo.isNone || u.product != some j.acc) = true)

/-- A core after a tile instruction has issued, with what it wrote in `d` (R73). -/
def Core.tileIssued (c d : Core) (op : Nat) (f : Opnd) : Core :=
  let j := captureTile c op f
  d.enter true (if op = 0x40 then some j.acc else none) (decide (op = 0x40 ∧ j.epi ≠ 0)) (tileFoot j) false none none c.ctl.pc

/-- Commands through which an integrity halt can end: those that bring a cold reset or take the device's power (R409, R718, R727, R728, R796, R491). -/
def resets : Instr → Bool
  | .coldRstN _ => true
  | .thermalSample _ _ _ _ => true
  | .pwrgd _ => true
  | .railFault _ _ => true
  | .aonPowerLoss => true
  | _ => false

end Sys2Proof.Machine
end

