-- ==== Sys2Proof/WellFormed.lean ====
section
/-!
DEFINITION. Which terms are commands as their senders can form them: lengths, alignments and ranges that the sender's side of an interface fixes. A command
outside them has its meaning all the same.
-/
namespace Sys2Proof

open Machine

/-- Payload of a frame: at most 16 units of 256 B; its tag (R477). -/
def framePayloadOk (f : RxFrame) : Bool := decide (f.payload.length % 256 = 0 ∧ f.payload.length ≤ 4096 ∧ f.tag.length = 16)

/-- Control addresses are those of 32-bit registers (R10). -/
def wordAligned (addr : BitVec 32) : Bool := decide (addr.toNat % 4 = 0)

/-- A command as its sender can form it. -/
def wellFormed : Instr → Bool
  | .undefinedOpcode _ _ word => !definedOpcode (word >>> 56).toNat
  | .registerWrite _ addr _ => wordAligned addr
  | .writeReg _ _ addr _ => wordAligned addr
  | .readReg _ _ addr n => wordAligned addr && decide (1 ≤ n ∧ n ≤ 64)
  | .ingestRecord _ header _ _ => decide (header.length = 32)
  | .d2dFlitReceive _ flit _ => decide (flit.tag.length = 8 ∧ flit.payload.length = 32 * (bitsNat flit.header.toNat 10 8 + 1))
  | .restoreRecord _ header _ => decide (header.length = 32)
  | .stageData _ _ _ data _ => decide (data.length ≤ 65536)
  | .dbgToken token _ => decide (token.length = 192)
  | .samplePreload pins shift => decide (pins.length = 2836 ∧ shift.length = 2836)
  | .extest pins shift => decide (pins.length = 2836 ∧ shift.length = 2836)
  | .extestPulse pins shift => decide (pins.length = 2836 ∧ shift.length = 2836)
  | .extestTrain pins shift => decide (pins.length = 2836 ∧ shift.length = 2836)
  | .pcieLinkUp speed width _ => decide (1 ≤ speed ∧ speed ≤ 6 ∧ (width = 4 ∨ width = 8 ∨ width = 16))
  | .putLines f => framePayloadOk f
  | .putBytes f => framePayloadOk f
  | .getData f => framePayloadOk f
  | .redData f _ => framePayloadOk f
  | .flitReceive _ periods => periods.all (fun w => decide (w.length = 4) && w.all (fun x => decide (x.length = 544)))
  | _ => true

end Sys2Proof
end

