-- ==== Sys2Proof/Certificates/Slice0/Obligations.lean ====
section
/-!
DEFINITION. The statements for the provers. A conclusion `exec c s = .next t` with `t` an update of `s` says both that the command completes and that
whatever the update does not name is unchanged.
-/
open Sys2Proof Sys2Proof.Machine

/-- A step runs the command at the front of the queue on the state whose queue is the rest. -/
def Obligations.StepRunsFrontCommand : Prop :=
  ∀ (s : State) (c : Instr) (rest : List Instr), s.pending = c :: rest → step s = exec c { s with pending := rest }

/-- With no command waiting one period of the 25 MHz AON clock passes: 40 ns, and no key, core, region or memory changes. The model's choice: log entry 2. -/
def Obligations.EmptyQueueTicks : Prop :=
  ∀ s : State, s.pending = [] → ∃ t, step s = .next t ∧ t.pending = [] ∧ t.cores = s.cores ∧ t.regions = s.regions ∧ t.mem = s.mem ∧
    t.keySlots = s.keySlots ∧ t.keys = s.keys ∧ t.regs = s.regs ∧ t.errs = s.errs ∧ t.halt = s.halt ∧ t.out = s.out ∧
    (s.clock.slew = 0 → t.clock.now = (s.clock.now + 40) % 2 ^ 64)

/-- What the rules say that registers read after cold reset (R97, R92, R93).

At reset the device has not halted, holds no key and no session, and boot has not ended (R409, R444, R638). -/
def Obligations.ResetValues : Prop :=
  (State.reset.halt = none ∧ State.reset.keyless = true ∧ State.reset.locked = false ∧
  ∀ n : Nat, let c := State.reset.core n
    c.ctl.run = .asleep ∧ c.ctl.enable = false ∧ c.ctl.moverBoost = 64 ∧ c.ctl.lastCode = 0 ∧ c.spec.spillIv = 14 ∧ c.spec.step = 0 ∧
    (∀ i, c.getS i = 0) ∧ (∀ i, c.getA i = 0) ∧ (∀ i, c.getTd i = 0) ∧ (∀ i, c.getCc i = 0)) ∧
  (State.reset.halt = none ∧ State.reset.running = true ∧ State.reset.keyless = true ∧ State.reset.sessionsHeld = false ∧ State.reset.boot.ready = false)

/-- NOP completes: the pc moves on, and CYCLE, SLOT_WAIT and RETIRED count (R97, R105, R108).

END ends issue, its pc staying on it; when its waits are over ENABLE is clear and STATE reads idle (R109).

A trap keeps the whole state of the core but for the stop that it begins, and logs its code with the core, the pc and the slot number (R151, R153, R822):
TRAP always, an undefined opcode always, and an instruction with an unused field set.

Commands that complete: nop, endStream, endComplete, trapS, undefinedOpcode. -/
def Obligations.NopEndAndTraps : Prop :=
  (∀ (s : State) (cr : BitVec 9) (w : Waits), s.issues cr w 0x00 0 →
    let c := s.core cr.toNat
    exec (.nop cr w 0) s = .next (s.setCore cr.toNat { c with
      ctl := { c.ctl with pc := c.ctl.pc + 1, waiting := false, sbFull := satAdd 32 c.ctl.sbFull w.sbFull,
                          sqbStall := satAdd 32 c.ctl.sqbStall w.sqbStall },
      spec := { c.spec with cycle := c.spec.cycle + BitVec.ofNat 64 (w.wait + 1), slotWait := c.spec.slotWait + BitVec.ofNat 64 w.wait,
                            retired := c.spec.retired + 1 } })) ∧
  (∀ (s : State) (cr : BitVec 9) (w : Waits), s.issues cr w 0x01 0 →
    let c := s.core cr.toNat
    let d := c.advance w false
    exec (.endStream cr w 0) s = .next (s.setCore cr.toNat { d with ctl := { d.ctl with ending := true, pc := c.ctl.pc } }) ∧
    ({ d with ctl := { d.ctl with ending := true, pc := c.ctl.pc } } : Core).mayIssue = false) ∧
  (∀ (s : State) (cr : BitVec 9) (wait : Nat), s.halt = none →
    let c := s.core cr.toNat
    c.ctl.ending = true → c.tilesDone = true → c.mover = [] → State.dirtySlots c = [] →
    ∃ t, exec (.endComplete cr wait) s = .next t ∧ (t.core cr.toNat).ctl.enable = false ∧ (t.core cr.toNat).ctl.run = .idle ∧
      (t.core cr.toNat).ctl.ending = false ∧ (t.core cr.toNat).ctl.pc = c.ctl.pc + 1 ∧ (t.core cr.toNat).spec.retired = c.spec.retired + 1 ∧
      t.mem = s.mem ∧ (∀ n, n ≠ cr.toNat → t.core n = s.core n) ∧ t.out = s.out ∧ t.keys = s.keys) ∧
  (∀ (s : State) (cr : BitVec 9) (w : Waits) (f : BitVec 56),
    (s.issues cr w 0x02 f → Opnd.unusedSet f [(15, 0)] = false → exec (.trapS cr w f) s = .next (s.trapped cr 0x100D (f.extractLsb' 0 16).toNat)) ∧
    (s.issues cr w 0x00 f → Opnd.unusedSet f [] = true → exec (.nop cr w f) s = .next (s.trapped cr 0x1008 0)) ∧
    (s.issues cr w 0x01 f → Opnd.unusedSet f [] = true → exec (.endStream cr w f) s = .next (s.trapped cr 0x1008 0)) ∧
    (s.issues cr w 0x08 f → Opnd.unusedSet f [(55, 41)] = true → exec (.add cr w f) s = .next (s.trapped cr 0x1008 0)) ∧
    (∀ op : BitVec 8, s.issues cr w op.toNat f → definedOpcode op.toNat = false → exec (.undefinedOpcode cr w (op ++ f)) s = .next (s.trapped cr 0x1007 0)))

/-- The two-operand control instructions write sD and nothing else beside the advance (R105).

Commands that complete: add, sub, mul, andS, orS, xorS, shl, shr, sra, minS, maxS. -/
def Obligations.ScalarBinaryResults : Prop :=
  ∀ (s : State) (cr : BitVec 9) (w : Waits) (f : BitVec 56), Opnd.unusedSet f [(55, 41)] = false →
    let c := s.core cr.toNat
    let d := Opnd.crD f
    let a := c.getS (Opnd.crA f)
    let b := c.getS (Opnd.crB f)
    let c' := c.advance w true
    (s.issues cr w 0x08 f → exec (.add cr w f) s = .next (s.setCore cr.toNat (c'.setS d (a + b)))) ∧
    (s.issues cr w 0x09 f → exec (.sub cr w f) s = .next (s.setCore cr.toNat (c'.setS d (a - b)))) ∧
    (s.issues cr w 0x0A f → exec (.mul cr w f) s = .next (s.setCore cr.toNat (c'.setS d (a * b)))) ∧
    (s.issues cr w 0x0B f → exec (.andS cr w f) s = .next (s.setCore cr.toNat (c'.setS d (a &&& b)))) ∧
    (s.issues cr w 0x0C f → exec (.orS cr w f) s = .next (s.setCore cr.toNat (c'.setS d (a ||| b)))) ∧
    (s.issues cr w 0x0D f → exec (.xorS cr w f) s = .next (s.setCore cr.toNat (c'.setS d (a ^^^ b)))) ∧
    (s.issues cr w 0x0E f → exec (.shl cr w f) s = .next (s.setCore cr.toNat (c'.setS d (a <<< (b.extractLsb' 0 6))))) ∧
    (s.issues cr w 0x0F f → exec (.shr cr w f) s = .next (s.setCore cr.toNat (c'.setS d (a >>> (b.extractLsb' 0 6))))) ∧
    (s.issues cr w 0x10 f → exec (.sra cr w f) s = .next (s.setCore cr.toNat (c'.setS d (a.sshiftRight (b.extractLsb' 0 6).toNat)))) ∧
    (s.issues cr w 0x14 f → exec (.minS cr w f) s = .next (s.setCore cr.toNat (c'.setS d (BitVec.ofInt 64 (min a.toInt b.toInt))))) ∧
    (s.issues cr w 0x15 f → exec (.maxS cr w f) s = .next (s.setCore cr.toNat (c'.setS d (BitVec.ofInt 64 (max a.toInt b.toInt)))))

/-- The immediate and the one-operand control instructions write their one register and nothing else beside the advance (R105, R111).

TDADV adds 512 × STRIDE to BASE modulo 2^20 and keeps every other field of the descriptor (R105, R111).

LDS and STS move the eight bytes at aA + IMM32, an address aligned and inside the square buffer; STS makes its slot produced (R84, R110).

MFS reads each of the eleven special registers zero-extended; MTS writes the six writable ones with the values that are defined for them (R97). That an MFS of
CYCLE, SLOT_WAIT or RETIRED counts the MFS itself and the waits before it is the model's choice (log entry 145).

Commands that complete: addi, li, lih, mova, movs, adda, tdset, tdget, tdadv, lds, sts, mfs, mts. -/
def Obligations.ScalarMovesAndMemory : Prop :=
  (∀ (s : State) (cr : BitVec 9) (w : Waits) (f : BitVec 56),
    let c := s.core cr.toNat
    let d := Opnd.crD f
    let a := Opnd.crA f
    let c' := c.advance w true
    (Opnd.unusedSet f [(55, 46), (31, 0)] = false →
      (s.issues cr w 0x11 f → exec (.addi cr w f) s = .next (s.setCore cr.toNat (c'.setS d (c.getS a + (f.extractLsb' 0 32).signExtend 64)))) ∧
      (s.issues cr w 0x1C f → d < 16 → a < 16 →
        exec (.adda cr w f) s = .next (s.setCore cr.toNat (c'.setA d (c.getA a + (f.extractLsb' 0 32).signExtend 64))))) ∧
    (s.issues cr w 0x12 f → Opnd.unusedSet f [(55, 51), (47, 0)] = false →
      exec (.li cr w f) s = .next (s.setCore cr.toNat (c'.setS d ((f.extractLsb' 0 48).signExtend 64)))) ∧
    (s.issues cr w 0x13 f → Opnd.unusedSet f [(55, 51), (15, 0)] = false →
      exec (.lih cr w f) s = .next (s.setCore cr.toNat (c'.setS d (f.extractLsb' 0 16 ++ (c.getS d).extractLsb' 0 48)))) ∧
    (Opnd.unusedSet f [(55, 46)] = false →
      (s.issues cr w 0x1A f → d < 16 → exec (.mova cr w f) s = .next (s.setCore cr.toNat (c'.setA d (c.getS a)))) ∧
      (s.issues cr w 0x1B f → a < 16 → exec (.movs cr w f) s = .next (s.setCore cr.toNat (c'.setS d (c.getA a)))) ∧
      (s.issues cr w 0x1D f → exec (.tdset cr w f) s = .next (s.setCore cr.toNat (c'.setTd d (c.getS a)))) ∧
      (s.issues cr w 0x1E f → exec (.tdget cr w f) s = .next (s.setCore cr.toNat (c'.setS d (c.getTd a))))) ∧
    (s.issues cr w 0x1F f → Opnd.unusedSet f [(55, 51)] = false →
      exec (.tdadv cr w f) s = .next (s.setCore cr.toNat (c'.setTd d (Td.advance (c.getTd d)))))) ∧
  (∀ d : BitVec 64, (Td.advance d).extractLsb' 20 44 = d.extractLsb' 20 44 ∧
    (Td.advance d).extractLsb' 0 20 = d.extractLsb' 0 20 + 512#20 * (d.extractLsb' 20 12).signExtend 20) ∧
  (∀ (s : State) (cr : BitVec 9) (w : Waits) (f : BitVec 56), Opnd.unusedSet f [(55, 46), (31, 0)] = false → Opnd.crA f < 16 →
    let c := s.core cr.toNat
    let addr := (c.getA (Opnd.crA f) + (f.extractLsb' 0 32).signExtend 64).toNat
    addr % 8 = 0 → addr < 0x100000 →
    (s.issues cr w 0x18 f → c.noHazard none { Footprint.none with readLines := [(addr / 64, 1)] } = true →
      exec (.lds cr w f) s = .next (s.setCore cr.toNat ((c.advance w true).setS (Opnd.crD f) (BitVec.ofNat 64 (leNat (c.readSqb addr 8)))))) ∧
    (s.issues cr w 0x19 f → c.noHazard none { Footprint.none with writeLines := [(addr / 64, 1)] } = true →
      ∃ t, exec (.sts cr w f) s = .next (s.setCore cr.toNat t) ∧
        t = { c.advance w true with sqb := t.sqb, clean := c.clean.filter (fun e => e.1 ≠ addr / 2048) } ∧
        BitVec.ofNat 64 (leNat (t.readSqb addr 8)) = c.getS (Opnd.crD f) ∧
        ∀ b, b < addr ∨ addr + 8 ≤ b → t.readSqb b 1 = c.readSqb b 1)) ∧
  (∀ (s : State) (cr : BitVec 9) (w : Waits) (f : BitVec 56),
    let c := s.core cr.toNat
    let i := Opnd.imm32 f
    (s.issues cr w 0x20 f → Opnd.unusedSet f [(55, 51), (5, 0)] = false → i ≤ 10 →
      exec (.mfs cr w f) s = .next (s.setCore cr.toNat ((c.advance w true).setS (Opnd.crD f)
        (match i with
         | 0 => BitVec.ofNat 64 (cr.toNat + c.spec.chip.toNat * 2 ^ 9 + c.spec.part.toNat * 2 ^ 22)
         | 1 => c.spec.stream | 2 => c.spec.step | 3 => c.spec.elemBase | 4 => c.spec.spillIv | 5 => c.spec.wdog | 6 => c.spec.srec
         | 7 => c.spec.cycle + BitVec.ofNat 64 (w.wait + 1) | 8 => c.spec.slotno.setWidth 64
         | 9 => c.spec.slotWait + BitVec.ofNat 64 w.wait | _ => c.spec.retired + 1)))) ∧
    (s.issues cr w 0x21 f → Opnd.unusedSet f [(50, 46), (5, 0)] = false →
      let v := c.getS (Opnd.crA f)
      let c' := c.advance w true
      (i = 1 → v.toNat < 2 ^ 12 → exec (.mts cr w f) s = .next (s.setCore cr.toNat { c' with spec := { c'.spec with stream := v } })) ∧
      (i = 2 → v.toNat < 2 ^ 48 → exec (.mts cr w f) s = .next (s.setCore cr.toNat { c' with spec := { c'.spec with step := v } })) ∧
      (i = 3 → v.toNat < 2 ^ 48 → exec (.mts cr w f) s = .next (s.setCore cr.toNat { c' with spec := { c'.spec with elemBase := v } })) ∧
      (i = 4 → 8 ≤ v.toNat → v.toNat ≤ 16 → exec (.mts cr w f) s = .next (s.setCore cr.toNat { c' with spec := { c'.spec with spillIv := v } })) ∧
      (i = 5 → v.toNat < 2 ^ 32 → exec (.mts cr w f) s = .next (s.setCore cr.toNat { c' with spec := { c'.spec with wdog := v } })) ∧
      (i = 6 → v.toNat < 2 ^ 28 → (v.extractLsb' 0 14).toNat + (v.extractLsb' 14 14).toNat ≤ 16383 →
        exec (.mts cr w f) s = .next (s.setCore cr.toNat { c' with spec := { c'.spec with srec := v } }))))

/-- JMP, BR and LOOP move the pc by their offset when taken and by one otherwise; LOOP counts its register down (R105 to R108).

Commands that complete: jmp, br, loop. -/
def Obligations.BranchTargets : Prop :=
  ∀ (s : State) (cr : BitVec 9) (w : Waits) (f : BitVec 56),
    let c := s.core cr.toNat
    let off := (f.extractLsb' 0 32).toInt
    let target := (c.ctl.pc : Int) + off
    let inside := 0 ≤ target ∧ target < c.windowLen
    let cost := if -64 ≤ off ∧ off ≤ -1 then 1 else 6
    let c' := c.advance w true
    let goes := fun (x : Core) => { x with ctl := { x.ctl with pc := target.toNat }, spec := { x.spec with cycle := x.spec.cycle + BitVec.ofNat 64 cost } }
    (s.issues cr w 0x03 f → Opnd.unusedSet f [(31, 0)] = false → inside → exec (.jmp cr w f) s = .next (s.setCore cr.toNat (goes c'))) ∧
    (s.issues cr w 0x04 f → Opnd.unusedSet f [(55, 43), (31, 0)] = false →
      let a := c.getS (Opnd.crD f)
      let b := c.getS (Opnd.crA f)
      ∀ taken : Prop, [Decidable taken] → Opnd.cond f ≤ 5 →
        (taken ↔ match Opnd.cond f with
          | 0 => a = b | 1 => a ≠ b | 2 => a.toInt < b.toInt | 3 => b.toInt ≤ a.toInt | 4 => a.toNat < b.toNat | _ => b.toNat ≤ a.toNat) →
        (taken → inside) → exec (.br cr w f) s = .next (s.setCore cr.toNat (if taken then goes c' else c'))) ∧
    (s.issues cr w 0x05 f → Opnd.unusedSet f [(55, 51), (31, 0)] = false →
      let v := c.getS (Opnd.crD f) - 1
      (v ≠ 0 → inside → exec (.loop cr w f) s = .next (s.setCore cr.toNat (goes (c'.setS (Opnd.crD f) v)))) ∧
      (v = 0 → exec (.loop cr w f) s = .next (s.setCore cr.toNat (c'.setS (Opnd.crD f) v))))

/-- Element-wise operations in register form: each lane whose predicate bit is 1 takes the operation of the lanes and the others keep their value, but for
VSEL, which takes b there; nothing else of the device changes but the advance and the new unretired instruction (R130 to R132, R66, R67, R69, R123).

Commands that complete: vadd, vsub, vmul, vfma, vmax, vmin, vexp2, vlog2, vrcp, vrsq, vsel, viadd. -/
def Obligations.VectorLanesCompute : Prop :=
  ∀ (s : State) (cr : BitVec 9) (w : Waits) (f : BitVec 56), Opnd.vTile f = false →
    let c := s.core cr.toNat
    let c' := c.advance w false
    let d := Opnd.vD f
    let p := fun l => (c.getP (Opnd.vPg f)).toNat.testBit l
    let a := c.lane (Opnd.vA f)
    let b := c.lane (Opnd.vB f)
    let old := c.lane (Opnd.vD f)
    (s.issues cr w 0x80 f → c.vecReady 0x80 f → ∃ vs : List F32, vs.length = 256 ∧ (∀ l, l < 256 → vs.getD l 0 = if p l then rne32 ((val32 (a l)).add (val32 (b l))) else old l) ∧
      exec (.vadd cr w f .clear) s = .next (s.setCore cr.toNat (c.vecIssued (c'.setV d vs) 0x80 f))) ∧
    (s.issues cr w 0x81 f → c.vecReady 0x81 f → ∃ vs : List F32, vs.length = 256 ∧ (∀ l, l < 256 → vs.getD l 0 = if p l then rne32 ((val32 (a l)).add (val32 (b l)).neg) else old l) ∧
      exec (.vsub cr w f .clear) s = .next (s.setCore cr.toNat (c.vecIssued (c'.setV d vs) 0x81 f))) ∧
    (s.issues cr w 0x82 f → c.vecReady 0x82 f → ∃ vs : List F32, vs.length = 256 ∧ (∀ l, l < 256 → vs.getD l 0 = if p l then rne32 ((val32 (a l)).mul (val32 (b l))) else old l) ∧
      exec (.vmul cr w f .clear) s = .next (s.setCore cr.toNat (c.vecIssued (c'.setV d vs) 0x82 f))) ∧
    (s.issues cr w 0x83 f → c.vecReady 0x83 f → ∃ vs : List F32, vs.length = 256 ∧ (∀ l, l < 256 → vs.getD l 0 = if p l then rne32 (((val32 (a l)).mul (val32 (b l))).add (val32 (c.lane (Opnd.vC f) l))) else old l) ∧
      exec (.vfma cr w f .clear) s = .next (s.setCore cr.toNat (c.vecIssued (c'.setV d vs) 0x83 f))) ∧
    (s.issues cr w 0x84 f → c.vecReady 0x84 f → ∃ vs : List F32, vs.length = 256 ∧ (∀ l, l < 256 → vs.getD l 0 = if p l then fmax (a l) (b l) else old l) ∧
      exec (.vmax cr w f .clear) s = .next (s.setCore cr.toNat (c.vecIssued (c'.setV d vs) 0x84 f))) ∧
    (s.issues cr w 0x85 f → c.vecReady 0x85 f → ∃ vs : List F32, vs.length = 256 ∧ (∀ l, l < 256 → vs.getD l 0 = if p l then fmin (a l) (b l) else old l) ∧
      exec (.vmin cr w f .clear) s = .next (s.setCore cr.toNat (c.vecIssued (c'.setV d vs) 0x85 f))) ∧
    (s.issues cr w 0x86 f → c.vecReady 0x86 f → ∃ vs : List F32, vs.length = 256 ∧ (∀ l, l < 256 → vs.getD l 0 = if p l then fexp2 (a l) else old l) ∧
      exec (.vexp2 cr w f .clear) s = .next (s.setCore cr.toNat (c.vecIssued (c'.setV d vs) 0x86 f))) ∧
    (s.issues cr w 0x87 f → c.vecReady 0x87 f → ∃ vs : List F32, vs.length = 256 ∧ (∀ l, l < 256 → vs.getD l 0 = if p l then flog2 (a l) else old l) ∧
      exec (.vlog2 cr w f .clear) s = .next (s.setCore cr.toNat (c.vecIssued (c'.setV d vs) 0x87 f))) ∧
    (s.issues cr w 0x88 f → c.vecReady 0x88 f → ∃ vs : List F32, vs.length = 256 ∧ (∀ l, l < 256 → vs.getD l 0 = if p l then frcp (a l) else old l) ∧
      exec (.vrcp cr w f .clear) s = .next (s.setCore cr.toNat (c.vecIssued (c'.setV d vs) 0x88 f))) ∧
    (s.issues cr w 0x89 f → c.vecReady 0x89 f → ∃ vs : List F32, vs.length = 256 ∧ (∀ l, l < 256 → vs.getD l 0 = if p l then frsq (a l) else old l) ∧
      exec (.vrsq cr w f .clear) s = .next (s.setCore cr.toNat (c.vecIssued (c'.setV d vs) 0x89 f))) ∧
    (s.issues cr w 0x8B f → c.vecReady 0x8B f → ∃ vs : List F32, vs.length = 256 ∧ (∀ l, l < 256 → vs.getD l 0 = if p l then a l else b l) ∧
      exec (.vsel cr w f .clear) s = .next (s.setCore cr.toNat (c.vecIssued (c'.setV d vs) 0x8B f))) ∧
    (s.issues cr w 0x91 f → c.vecReady 0x91 f → ∃ vs : List F32, vs.length = 256 ∧ (∀ l, l < 256 → vs.getD l 0 = if p l then a l + b l else old l) ∧
      exec (.viadd cr w f .clear) s = .next (s.setCore cr.toNat (c.vecIssued (c'.setV d vs) 0x91 f)))

/-- The same operations in tile form: element (row, col) uses predicate bit 32 × (row mod 8) + col, and VB comes from the tile, from lane row, from lane
col or from lane 0 (R130, R131).

VST writes the lanes whose predicate bit is 1 at aA + IMM23 and leaves every other byte of the square buffer as it was (R131, R135).

Commands that complete: vst, and in tile form vadd, vsub, vmul, vfma, vmax, vmin, vexp2, vlog2, vrcp, vrsq, vsel. -/
def Obligations.VectorTilesAndStores : Prop :=
  (∀ (s : State) (cr : BitVec 9) (w : Waits) (f : BitVec 56), Opnd.vTile f = true →
    let c := s.core cr.toNat
    let c' := c.advance w false
    let d := Opnd.vD f
    let p := fun i => (c.getP (Opnd.vPg f)).toNat.testBit (32 * (i / 32 % 8) + i % 32)
    let a := c.elem (Opnd.vA f)
    let old := c.elem (Opnd.vD f)
    let from_ := fun (mode reg i : Nat) => match mode with
      | 0 => c.elem reg i | 1 => c.lane reg (i / 32) | 2 => c.lane reg (i % 32) | _ => c.lane reg 0
    let b := from_ (Opnd.vBm f) (Opnd.vB f)
    let whole := fun (op : Nat) => (vecReadsAcc (captureVec c op f)).all (fun t => !c.poisoned t) = true
    (s.issues cr w 0x80 f → c.vecReady 0x80 f → whole 0x80 → ∃ vs : List F32, vs.length = 1024 ∧
      (∀ l, l < 1024 → vs.getD l 0 = if p l then fadd (a l) (b l) else old l) ∧
      exec (.vadd cr w f .clear) s = .next (s.setCore cr.toNat (c.vecIssued (c'.setAcc d vs) 0x80 f))) ∧
    (s.issues cr w 0x81 f → c.vecReady 0x81 f → whole 0x81 → ∃ vs : List F32, vs.length = 1024 ∧
      (∀ l, l < 1024 → vs.getD l 0 = if p l then fsub (a l) (b l) else old l) ∧
      exec (.vsub cr w f .clear) s = .next (s.setCore cr.toNat (c.vecIssued (c'.setAcc d vs) 0x81 f))) ∧
    (s.issues cr w 0x82 f → c.vecReady 0x82 f → whole 0x82 → ∃ vs : List F32, vs.length = 1024 ∧
      (∀ l, l < 1024 → vs.getD l 0 = if p l then fmul (a l) (b l) else old l) ∧
      exec (.vmul cr w f .clear) s = .next (s.setCore cr.toNat (c.vecIssued (c'.setAcc d vs) 0x82 f))) ∧
    (s.issues cr w 0x83 f → c.vecReady 0x83 f → whole 0x83 → ∃ vs : List F32, vs.length = 1024 ∧
      (∀ l, l < 1024 → vs.getD l 0 = if p l then ffma (a l) (b l) (from_ (Opnd.vCm f) (Opnd.vC f) l) else old l) ∧
      exec (.vfma cr w f .clear) s = .next (s.setCore cr.toNat (c.vecIssued (c'.setAcc d vs) 0x83 f))) ∧
    (s.issues cr w 0x84 f → c.vecReady 0x84 f → whole 0x84 → ∃ vs : List F32, vs.length = 1024 ∧
      (∀ l, l < 1024 → vs.getD l 0 = if p l then fmax (a l) (b l) else old l) ∧
      exec (.vmax cr w f .clear) s = .next (s.setCore cr.toNat (c.vecIssued (c'.setAcc d vs) 0x84 f))) ∧
    (s.issues cr w 0x85 f → c.vecReady 0x85 f → whole 0x85 → ∃ vs : List F32, vs.length = 1024 ∧
      (∀ l, l < 1024 → vs.getD l 0 = if p l then fmin (a l) (b l) else old l) ∧
      exec (.vmin cr w f .clear) s = .next (s.setCore cr.toNat (c.vecIssued (c'.setAcc d vs) 0x85 f))) ∧
    (s.issues cr w 0x86 f → c.vecReady 0x86 f → whole 0x86 → ∃ vs : List F32, vs.length = 1024 ∧
      (∀ l, l < 1024 → vs.getD l 0 = if p l then fexp2 (a l) else old l) ∧
      exec (.vexp2 cr w f .clear) s = .next (s.setCore cr.toNat (c.vecIssued (c'.setAcc d vs) 0x86 f))) ∧
    (s.issues cr w 0x87 f → c.vecReady 0x87 f → whole 0x87 → ∃ vs : List F32, vs.length = 1024 ∧
      (∀ l, l < 1024 → vs.getD l 0 = if p l then flog2 (a l) else old l) ∧
      exec (.vlog2 cr w f .clear) s = .next (s.setCore cr.toNat (c.vecIssued (c'.setAcc d vs) 0x87 f))) ∧
    (s.issues cr w 0x88 f → c.vecReady 0x88 f → whole 0x88 → ∃ vs : List F32, vs.length = 1024 ∧
      (∀ l, l < 1024 → vs.getD l 0 = if p l then frcp (a l) else old l) ∧
      exec (.vrcp cr w f .clear) s = .next (s.setCore cr.toNat (c.vecIssued (c'.setAcc d vs) 0x88 f))) ∧
    (s.issues cr w 0x89 f → c.vecReady 0x89 f → whole 0x89 → ∃ vs : List F32, vs.length = 1024 ∧
      (∀ l, l < 1024 → vs.getD l 0 = if p l then frsq (a l) else old l) ∧
      exec (.vrsq cr w f .clear) s = .next (s.setCore cr.toNat (c.vecIssued (c'.setAcc d vs) 0x89 f))) ∧
    (s.issues cr w 0x8B f → c.vecReady 0x8B f → whole 0x8B → ∃ vs : List F32, vs.length = 1024 ∧
      (∀ l, l < 1024 → vs.getD l 0 = if p l then a l else b l) ∧
      exec (.vsel cr w f .clear) s = .next (s.setCore cr.toNat (c.vecIssued (c'.setAcc d vs) 0x8B f)))) ∧
  (∀ (s : State) (cr : BitVec 9) (w : Waits) (f : BitVec 56), s.issues cr w 0x8E f → Opnd.vTile f = false → (s.core cr.toNat).vecReady 0x8E f →
    let c := s.core cr.toNat
    let at_ := (captureVec c 0x8E f).addr
    ∃ bs : Bytes, bs.length = 1024 ∧
      exec (.vst cr w f .clear) s = .next (s.setCore cr.toNat (c.vecIssued ((c.advance w false).writeSqb at_ bs) 0x8E f)) ∧
      (∀ l, l < 256 → (bs.drop (4 * l)).take 4 = if (c.getP (Opnd.vPg f)).toNat.testBit l then leBytes 4 (c.lane (Opnd.vD f) l).toNat
        else c.readSqb (at_ + 4 * l) 4) ∧
      ∀ a, a < at_ ∨ at_ + 1024 ≤ a → ((c.advance w false).writeSqb at_ bs).readSqb a 1 = c.readSqb a 1)

/-- Comparisons, predicates, broadcasts, conversions, reductions and the moves between vector registers, accumulator tiles and the square buffer
(R94, R123, R131 to R135).

Commands that complete: vcmp, vbcast, vld, vredsum, vredmax, vcvt, pand, por, pnot, vacq, vstq. -/
def Obligations.VectorMovesAndReductions : Prop :=
  ∀ (s : State) (cr : BitVec 9) (w : Waits) (f : BitVec 56), Opnd.vTile f = false →
    let c := s.core cr.toNat
    let c' := c.advance w false
    let d := Opnd.vD f
    let p := fun l => (c.getP (Opnd.vPg f)).toNat.testBit l
    let a := c.lane (Opnd.vA f)
    let b := c.lane (Opnd.vB f)
    let old := c.lane d
    (s.issues cr w 0x8A f → c.vecReady 0x8A f → ∃ x : BitVec 256,
      (∀ l, l < 256 → x.toNat.testBit l = if p l then cmpLane (Opnd.vFunc f) (a l) (b l) else (c.getP d).toNat.testBit l) ∧
      exec (.vcmp cr w f .clear) s = .next (s.setCore cr.toNat (c.vecIssued (c'.setP d x) 0x8A f))) ∧
    (s.issues cr w 0x8C f → c.vecReady 0x8C f → ∃ vs : List F32, vs.length = 256 ∧
      (∀ l, l < 256 → vs.getD l 0 = if p l then (c.getS (Opnd.vA f)).setWidth 32 else old l) ∧
      exec (.vbcast cr w f .clear) s = .next (s.setCore cr.toNat (c.vecIssued (c'.setV d vs) 0x8C f))) ∧
    (s.issues cr w 0x8D f → c.vecReady 0x8D f → ∃ vs : List F32, vs.length = 256 ∧
      (∀ l, l < 256 → vs.getD l 0 = if p l then BitVec.ofNat 32 (leNat (c.readSqb
        (((c.getA (Opnd.vA f)).toInt + Opnd.vImm f) % 2 ^ 64).toNat 1024 |>.drop (4 * l) |>.take 4)) else old l) ∧
      exec (.vld cr w f .clear) s = .next (s.setCore cr.toNat (c.vecIssued (c'.setV d vs) 0x8D f))) ∧
    (s.issues cr w 0x8F f → c.vecReady 0x8F f → ∃ vs : List F32, vs.length = 256 ∧
      (∀ l, l < 256 → vs.getD l 0 = if l = 0 then treeSum 8 ((List.range 256).map (fun k => if p k then a k else 0)) else 0) ∧
      exec (.vredsum cr w f .clear) s = .next (s.setCore cr.toNat (c.vecIssued (c'.setV d vs) 0x8F f))) ∧
    (s.issues cr w 0x90 f → c.vecReady 0x90 f → ∃ vs : List F32, vs.length = 256 ∧
      (∀ l, l < 256 → vs.getD l 0 = if l = 0 then treeMax 8 ((List.range 256).map (fun k => if p k then a k else 0xFF800000)) else 0) ∧
      exec (.vredmax cr w f .clear) s = .next (s.setCore cr.toNat (c.vecIssued (c'.setV d vs) 0x90 f))) ∧
    (s.issues cr w 0x92 f → c.vecReady 0x92 f → Opnd.vSrf f = false → ∃ vs : List F32, vs.length = 256 ∧
      (∀ l, l < 256 → vs.getD l 0 = if p l then cvtLane (Opnd.vFunc f) .rne (a l) else old l) ∧
      exec (.vcvt cr w f .clear) s = .next (s.setCore cr.toNat (c.vecIssued (c'.setV d vs) 0x92 f))) ∧
    (s.issues cr w 0x92 f → c.vecReady 0x92 f → Opnd.vSrf f = true → ∃ vs : List F32, vs.length = 256 ∧
      (∀ l, l < 256 → vs.getD l 0 = if p l then cvtLane (Opnd.vFunc f) (.sr (draw (streamKey (s.seedOf c.spec.part.toNat) c.spec.stream.toNat) c.spec.step.toNat
        ((c.spec.elemBase.toNat + l) % 2 ^ 48))) (a l) else old l) ∧
      exec (.vcvt cr w f .clear) s = .next (s.setCore cr.toNat (c.vecIssued ((c'.withSpec (fun k => { k with elemBase := BitVec.ofNat 64 ((k.elemBase.toNat + 256) % 2 ^ 48) })).setV d vs) 0x92 f))) ∧
    (s.issues cr w 0x93 f → c.vecReady 0x93 f →
      exec (.pand cr w f .clear) s = .next (s.setCore cr.toNat (c.vecIssued (c'.setP d (c.getP (Opnd.vA f) &&& c.getP (Opnd.vB f))) 0x93 f))) ∧
    (s.issues cr w 0x94 f → c.vecReady 0x94 f →
      exec (.por cr w f .clear) s = .next (s.setCore cr.toNat (c.vecIssued (c'.setP d (c.getP (Opnd.vA f) ||| c.getP (Opnd.vB f))) 0x94 f))) ∧
    (s.issues cr w 0x95 f → c.vecReady 0x95 f →
      exec (.pnot cr w f .clear) s = .next (s.setCore cr.toNat (c.vecIssued (c'.setP d (~~~ c.getP (Opnd.vA f))) 0x95 f))) ∧
    (s.issues cr w 0x96 f → c.vecReady 0x96 f → c.poisoned (Opnd.vA f) = false → ∃ vs : List F32, vs.length = 256 ∧
      (∀ l, l < 256 → vs.getD l 0 = if p l then c.elem (Opnd.vA f) (256 * Opnd.vFunc f + l) else old l) ∧
      exec (.vacq cr w f .clear) s = .next (s.setCore cr.toNat (c.vecIssued (c'.setV d vs) 0x96 f))) ∧
    (s.issues cr w 0x97 f → c.vecReady 0x97 f → ∃ vs : List F32, vs.length = 1024 ∧
      (∀ i, i < 1024 → vs.getD i 0 = if i / 256 = Opnd.vFunc f ∧ p (i % 256) then a (i % 256) else c.elem d i) ∧
      exec (.vstq cr w f .clear) s = .next (s.setCore cr.toNat (c.vecIssued (c'.setAcc d vs) 0x97 f)))

/-- The special inputs of the special functions, and exp2 exact at integers (R68, R69). -/
def Obligations.SpecialInputs : Prop :=
  let pinf := 0x7F800000#32
  let ninf := 0xFF800000#32
  let one := 0x3F800000#32
  fexp2 0 = one ∧ fexp2 0x80000000#32 = one ∧ fexp2 one = 0x40000000#32 ∧ flog2 one = 0 ∧ frcp one = one ∧ frsq one = one ∧
  fexp2 pinf = pinf ∧ fexp2 ninf = 0 ∧ flog2 pinf = pinf ∧ flog2 0 = ninf ∧ flog2 0x80000000#32 = ninf ∧ flog2 ninf = nan32 ∧
  frcp pinf = 0 ∧ frcp ninf = 0x80000000#32 ∧ frcp 0 = pinf ∧ frcp 0x80000000#32 = ninf ∧
  frsq pinf = 0 ∧ frsq 0 = pinf ∧ frsq 0x80000000#32 = ninf ∧ frsq ninf = nan32 ∧
  (∀ x : F32, (val32 x).isFinite = true → x.toNat < 2 ^ 31 → 0x43000000 ≤ x.toNat → fexp2 x = pinf) ∧
  (∀ x : F32, (val32 x).isFinite = true → 0xC3150000 < x.toNat → fexp2 x = 0) ∧
  (∀ x : F32, (val32 x).isFinite = true → 0x80000000 < x.toNat → flog2 x = nan32 ∧ frsq x = nan32) ∧
  (∀ x : F32, (val32 x).isNan = true → fexp2 x = nan32 ∧ flog2 x = nan32 ∧ frcp x = nan32 ∧ frsq x = nan32) ∧
  ∀ n : Int, -126 ≤ n → n ≤ 127 → fexp2 (rne32 (FVal.ofInt false n 0)) = BitVec.ofNat 32 ((n + 127).toNat * 2 ^ 23)

/-- A tile product in FP32 mode without epilogue or spill: element (m, n) takes the group sums of the product in ascending order of K, from +0 where
START is set (R117, R215, R217, R218), the chain counts K (R229), ADVA and ADVB move the descriptors (R149), and nothing else changes.

Commands that complete: tmma. -/
def Obligations.FloatProductAccumulates : Prop :=
  ∀ (s : State) (cr : BitVec 9) (w : Waits) (f : BitVec 56), s.issues cr w 0x40 f → (s.core cr.toNat).tileReady 0x40 f →
    Opnd.tEpi f = 0 → Opnd.tSpill f = false →
    let c := s.core cr.toNat
    let j := captureTile c 0x40 f
    isIntMode (laneMode j.tda.format) = false →
    let oa := readOperand c.sqb j.tda .product
    let ob := readOperand c.sqb j.tdb .product
    let from_ := fun i => if j.start then 0 else c.elem j.acc i
    let ch := c.chain j.acc
    ∃ vs : List F32, vs.length = 1024 ∧
      (∀ i, i < 1024 → vs.getD i 0 = floatElement oa ob (groupSize j.g) (productK j.tda.format) (i / 32) (i % 32) (from_ i)) ∧
      exec (.tmma cr w f .clear) s = .next (s.setCore cr.toNat (c.tileIssued
        (((countBusy (afterIssue (c.advance w false) f j) j).setAcc j.acc vs).setChain j.acc
          (if j.start then { Chain.none with iv := j.iv, spen := some false, started := true, kcount := productK j.tda.format }
           else { ch with spen := some (ch.spen.getD false), kcount := ch.kcount + productK j.tda.format })) 0x40 f))

/-- A tile product in INT32 mode whose adds stay in range: each element takes its rounded group sums at the chain's exponent, with no retry (R213, R222 to R224).

Commands that complete: tmma. -/
def Obligations.IntegerProductAccumulates : Prop :=
  ∀ (s : State) (cr : BitVec 9) (w : Waits) (f : BitVec 56), s.issues cr w 0x40 f → (s.core cr.toNat).tileReady 0x40 f →
    Opnd.tEpi f = 0 → Opnd.tSpill f = false → Opnd.tStart f = true →
    let c := s.core cr.toNat
    let j := captureTile c 0x40 f
    let oa := readOperand c.sqb j.tda .product
    let ob := readOperand c.sqb j.tdb .product
    isIntMode (laneMode j.tda.format) = true → nanScale oa ob = false →
    ∀ g : Nat → Int, (∀ i, i < 1024 → intElement oa ob (groupSize j.g) (productK j.tda.format) (i / 32) (i % 32) (intZc oa ob) 0 = some (g i)) →
      ∃ t, exec (.tmma cr w f .clear) s = .next (s.setCore cr.toNat t) ∧
        (∀ i, i < 1024 → t.elem j.acc i = BitVec.ofInt 32 (g i)) ∧
        t.chain j.acc = { Chain.none with int32 := true, iv := j.iv, spen := some false, started := true, zcFixed := true, zc := intZc oa ob,
                                          kcount := productK j.tda.format } ∧
        (∀ k, k < 16 → k ≠ j.acc → t.getAcc k = c.getAcc k ∧ t.chain k = c.chain k) ∧ t.sqb = c.sqb ∧ t.v = c.v ∧ t.s = c.s

/-- TPRE starts a chain with the values of a tile: widened exactly from BF16 and binary16, copied from FP32 and INT32 (R120, R219). TFIN of a chain that
has not spilled only clears KCOUNT; of an FP32 chain that has, it adds the spill tile and rounds once (R236).

TACST of an FP32 chain and TCVT store their 1 024 values, each rounded once to nearest, in the tile layout of R53, and leave the accumulators as they
were (R126, R182).

Commands that complete: tpre, tfin, tacst, tcvt. -/
def Obligations.TileLoadsAndStores : Prop :=
  (∀ (s : State) (cr : BitVec 9) (w : Waits) (f : BitVec 56),
    let c := s.core cr.toNat
    (s.issues cr w 0x41 f → c.tileReady 0x41 f →
      let j := captureTile c 0x41 f
      let img := (c.readSqb j.tda.base (tileBytes j.tda.format)).toArray
      ∃ vs : List F32, vs.length = 1024 ∧
        (∀ i, i < 1024 → vs.getD i 0 = if j.tda.format = 10 then BitVec.ofNat 32 (tileCode 10 img (i / 32) (i % 32))
          else rne32 ((fmtFloat j.tda.format).decode (tileCode j.tda.format img (i / 32) (i % 32)))) ∧
        exec (.tpre cr w f .clear) s = .next (s.setCore cr.toNat (c.tileIssued
          ((((c.advance w false).withSpec (fun k => { k with elemBase := BitVec.ofNat 64 (k.elemBase.toNat % 2 ^ 48) })).setAcc j.acc vs).setChain j.acc
            { Chain.none with int32 := decide (j.tda.format = 10), iv := j.iv, started := true }) 0x41 f))) ∧
    (s.issues cr w 0x42 f → c.tileReady 0x42 f →
      let j := captureTile c 0x42 f
      let ch := c.chain j.acc
      let c' := (c.advance w false).withSpec (fun k => { k with elemBase := BitVec.ofNat 64 (k.elemBase.toNat % 2 ^ 48) })
      (ch.spilled = false → exec (.tfin cr w f .clear) s =
        .next (s.setCore cr.toNat (c.tileIssued (c'.setChain j.acc { ch with kcount := 0 }) 0x42 f))) ∧
      (ch.spilled = true → ch.int32 = false → ∃ vs : List F32, vs.length = 1024 ∧
        (∀ i, i < 1024 → vs.getD i 0 = rne32 ((fp64.decode (leNat (c.readSqb (j.tds.base + 8 * i) 8))).add (val32 (c.elem j.acc i)))) ∧
        exec (.tfin cr w f .clear) s = .next (s.setCore cr.toNat (c.tileIssued
          ((c'.setAcc j.acc vs).setChain j.acc { ch with spilled := false, kcount := 0 }) 0x42 f))))) ∧
  (∀ (s : State) (cr : BitVec 9) (w : Waits) (f : BitVec 56), Opnd.tSr f = false →
    let c := s.core cr.toNat
    let base := (c.getTd (Opnd.tTdo f)).base
    let fmt := (c.getTd (Opnd.tTdo f)).format
    let stored := fun (t : Core) (x : Nat → FVal) =>
      (∀ i, i < 1024 → tileCode fmt (t.readSqb base (tileBytes fmt)).toArray (i / 32) (i % 32) = encode (fmtFloat fmt) .rne (x i)) ∧
      (∀ a, a < base ∨ base + tileBytes fmt ≤ a → t.readSqb a 1 = c.readSqb a 1) ∧ t.acc = c.acc ∧ t.chains = c.chains ∧ t.v = c.v ∧ t.s = c.s
    isMx fmt = false → fmt ≠ 10 →
    (s.issues cr w 0x43 f → c.tileReady 0x43 f → (c.chain (Opnd.tAcc f)).int32 = false →
      ∃ t, exec (.tacst cr w f .clear) s = .next (s.setCore cr.toNat t) ∧ stored t (fun i => val32 (c.elem (Opnd.tAcc f) i))) ∧
    (s.issues cr w 0x44 f → c.tileReady 0x44 f →
      let d := c.getTd (Opnd.tTda f)
      let img := (c.readSqb d.base (tileBytes d.format)).toArray
      ∃ t, exec (.tcvt cr w f .clear) s = .next (s.setCore cr.toNat t) ∧
        stored t (fun i => (fmtFloat d.format).decode (tileCode d.format img (i / 32) (i % 32)))))

/-- Epilogues 1 and 3 add the fixed-tree row sums, or take the maximum with the row maxima, in lanes 0 to 31 of VE; the other lanes and the tile stay
(R122, R123).

Commands that complete: tepi. -/
def Obligations.EpilogueRowStatistics : Prop :=
  ∀ (s : State) (cr : BitVec 9) (w : Waits) (f : BitVec 56), s.issues cr w 0x45 f → (s.core cr.toNat).tileReady 0x45 f →
    let c := s.core cr.toNat
    let row := fun r => (List.range 32).map (fun k => c.elem (Opnd.tAcc f) (32 * r + k))
    let c' := (c.advance w false).withSpec (fun k => { k with elemBase := BitVec.ofNat 64 (k.elemBase.toNat % 2 ^ 48) })
    (Opnd.tEpi f = 1 → ∃ vs : List F32, vs.length = 256 ∧
      (∀ l, l < 256 → vs.getD l 0 = if l < 32 then fadd (c.lane (Opnd.tVe f) l) (treeSum 5 (row l)) else c.lane (Opnd.tVe f) l) ∧
      exec (.tepi cr w f .clear) s = .next (s.setCore cr.toNat (c.tileIssued (c'.setV (Opnd.tVe f) vs) 0x45 f))) ∧
    (Opnd.tEpi f = 3 → ∃ vs : List F32, vs.length = 256 ∧
      (∀ l, l < 256 → vs.getD l 0 = if l < 32 then fmax (c.lane (Opnd.tVe f) l) (treeMax 5 (row l)) else c.lane (Opnd.tVe f) l) ∧
      exec (.tepi cr w f .clear) s = .next (s.setCore cr.toNat (c.tileIssued (c'.setV (Opnd.tVe f) vs) 0x45 f)))

/-- A move instruction whose operands breach no rule takes the least free mover slot with its operands as they stand, and the pc moves on; its work comes
later (R78, R138 to R140).

An operation whose first checks pass and that goes to another chip moves on to the quota stage (R507, R522); a FENCE with nothing of its scope
before it is done, one toward another chip once it has stood at the quota stage (R510, R522).

At the quota stage a partition-0 atomic to a chip with a usable link passes: its frame joins the link's queue and its request waits for a reply
(R522, R525); QWAIT_US at the stage end an operation of another partition REFUSED with 0x3101 (R522), and LIFE_MS in its slot one that has not left REFUSED
with 0x3106 (R524), with no frame of it sent.

An operation that is done with status OK and on time frees its slot, and its completion counter rises by one; no record is written (R512, R514, R516).

Commands that complete: get, put, putSignal, atomicAdd, atomicCas, reducePut, fence, moverOpStart, quotaStagePass, rmoQuota, rmoLifetime, moverOpComplete. -/
def Obligations.MoverOperations : Prop :=
  (∀ (s : State) (cr : BitVec 9) (w : Waits) (f : BitVec 56) (i : Nat),
    let c := s.core cr.toNat
    i < 64 → (∀ k, k < i → c.mover.any (fun m => m.slot = k) = true) → c.mover.any (fun m => m.slot = i) = false →
    let taken : Nat → Nat → State := fun op len => s.setCore cr.toNat { c.advance w true with
      nextOrder := c.nextOrder + 1,
      mover := c.mover ++ [
        { slot := i, order := c.nextOrder, op := op, af := c.getA (Opnd.mAf f), al := c.getA (Opnd.mAl f),
          as_ := c.getA (Opnd.mAs f), cc := Opnd.mCc f, len := len, relax := Opnd.mRelax f, dtype := Opnd.mDtype f, sv := c.getS (Opnd.mSv f),
          sw := c.getS (Opnd.mSw f), job := Opnd.mJob f, index := c.ctl.pc, slotno := c.spec.slotno, stage := .waiting, status := 0, code := 0,
          failAt := 0, owed := 0, signalOwed := decide (op = 0xC2), tokens := 0, floored := false, progress := 0, reqs := [] }] }
    let len := (c.getS (Opnd.mSl f)).toNat
    (s.issues cr w 0xC0 f → lowestCode (c.moveBreaches 0xC0 f) = none → exec (.get cr w f) s = .next (taken 0xC0 len)) ∧
    (s.issues cr w 0xC1 f → lowestCode (c.moveBreaches 0xC1 f) = none → exec (.put cr w f) s = .next (taken 0xC1 len)) ∧
    (s.issues cr w 0xC2 f → lowestCode (c.moveBreaches 0xC2 f) = none → exec (.putSignal cr w f) s = .next (taken 0xC2 len)) ∧
    (s.issues cr w 0xC3 f → lowestCode (c.moveBreaches 0xC3 f) = none →
      exec (.atomicAdd cr w f) s = .next (taken 0xC3 (if Opnd.mDtype f = 1 then 4 else 8))) ∧
    (s.issues cr w 0xC4 f → lowestCode (c.moveBreaches 0xC4 f) = none → exec (.atomicCas cr w f) s = .next (taken 0xC4 8)) ∧
    (s.issues cr w 0xC5 f → lowestCode (c.moveBreaches 0xC5 f) = none → exec (.reducePut cr w f) s = .next (taken 0xC5 len)) ∧
    (s.issues cr w 0xC6 f → lowestCode (c.moveBreaches 0xC6 f) = none → exec (.fence cr w f) s = .next (taken 0xC6 0))) ∧
  (∀ (s : State) (cr : BitVec 9) (slot : BitVec 6) (ev : List MemEvent) (m : MoverOp), s.halt = none →
    let c := s.core cr.toNat
    c.mover = [m] → m.slot = slot.toNat → m.stage = .waiting → c.ctl.boosted = none → c.refills = [] → c.unret = [] → m.progress = 0 → m.owed = 0 →
    c.sendLost m = false → s.ckpt.atRest = 0 →
    (m.op = 0xC6 → exec (.moverOpStart cr slot ev) s =
      .next (s.setCore cr.toNat { c with mover := [{ m with stage := if m.dtype = 0 ∧ m.chip ≠ s.chip then .quota else .done }] }).drainEngine) ∧
    (m.op ≠ 0xC6 → Core.sendFault m ev = none → s.firstCheck c.spec.part.toNat m = none → m.chip ≠ s.chip → exec (.moverOpStart cr slot ev) s =
      .next (s.setCore cr.toNat { c with mover := [{ m with stage := .quota }] }).drainEngine)) ∧
  (∀ (s : State) (cr : BitVec 9) (slot : BitVec 6) (m : MoverOp), s.calm →
    let c := s.core cr.toNat
    c.mover = [m] → m.slot = slot.toNat →
    (∀ ns j, m.stage = .quota → m.part = 0 → m.inHost = false → m.op = 0xC4 → m.signalOwed = false →
      s.chooseLink m.chip (State.channelHash cr.toNat m.part) = some j → s.partDecl 0 = none →
      ∃ t, exec (.quotaStagePass cr slot ns) s = .next t ∧
        (t.core cr.toNat).mover.map (fun x => (x.slot, x.stage, x.progress, x.reqs)) = [(m.slot, .passed, m.len, m.reqs ++ [⟨m.chip, 0, m.len⟩])] ∧
        (t.link j).queue.length = (s.link j).queue.length + 1 ∧ t.mem = s.mem) ∧
    (m.stage = .quota → m.part ≠ 0 → ∃ t, exec (.rmoQuota cr slot) s = .next t ∧
      (t.core cr.toNat).mover = [{ m with status := 2, code := 0x3101, failAt := 0, progress := m.len, owed := 0, reqs := [], signalOwed := false, stage := .done }] ∧
      t.net = s.net ∧ t.mem = s.mem) ∧
    (m.stage = .waiting ∨ m.stage = .quota ∨ m.stage = .passed → m.op ≠ 0xC6 → m.inHost = false → m.chip ≠ s.chip →
      m.reqs.length ≤ s.unsent cr.toNat m →
      ∃ t, exec (.rmoLifetime cr slot) s = .next t ∧
        (t.core cr.toNat).mover = [{ m with status := 3, code := 0x3106, failAt := 0, progress := m.len, owed := 0, reqs := [], signalOwed := false, stage := .done }] ∧
        t.mem = s.mem)) ∧
  (∀ (s : State) (cr : BitVec 9) (slot : BitVec 6) (us : Nat) (blocks : List HostBlock) (m : MoverOp), s.halt = none →
    let c := s.core cr.toNat
    c.mover = [m] → m.slot = slot.toNat → m.stage = .done → m.status = 0 → m.floored = false → m.part = 0 →
    us ≤ s.regField (ctl 0x000E 0x100) 23 12 → c.getCc m.cc ≠ BitVec.allOnes 32 →
    exec (.moverOpComplete cr slot us blocks) s =
      .next (s.setCore cr.toNat { c with mover := [], cc := Sparse.set 0 c.cc m.cc (c.getCc m.cc + 1) }).drainEngine)

/-- A GET of whole lines within one page of this chip's memory, whose lines all pass their checks, brings the bytes of memory into the square buffer, and is
done (R76, R382, R502, R505).

Commands that complete: moverOpStart. -/
def Obligations.LocalGetBringsMemory : Prop :=
  ∀ (s : State) (cr : BitVec 9) (slot : BitVec 6) (m : MoverOp) (p : Nat), s.calm →
    let c := s.core cr.toNat
    c.mover = [m] → m.slot = slot.toNat → m.stage = .waiting → c.refills = [] → c.unret = [] → m.progress = 0 → m.owed = 0 → m.reqs = [] →
    s.ckpt.atRest = 0 → m.op = 0xC0 → m.signalOwed = false → m.chip = s.chip → s.firstCheck c.spec.part.toNat m = none → m.vpage < 0x30000000 →
    0 < m.len → m.off % 64 = 0 → m.off % pageSize + m.len ≤ pageSize → m.len ≤ 4096 → m.al.toNat + m.len ≤ 0x100000 →
    (s.access (.region (cr.toNat / 32)) m.part m.vpage false).2 = .served p →
    (∀ i, m.off % pageSize / 64 ≤ i → i ≤ (m.off % pageSize + m.len - 1) / 64 → s.lineFate p i = .sound false) →
    ∃ t, exec (.moverOpStart cr slot []) s = .next t ∧ (t.core cr.toNat).readSqb m.al.toNat m.len = s.mem.read p (m.off % pageSize) m.len ∧
      (∀ a, a < m.al.toNat ∨ m.al.toNat + m.len ≤ a → (t.core cr.toNat).readSqb a 1 = c.readSqb a 1) ∧
      (t.core cr.toNat).mover.map (fun x => (x.slot, x.stage, x.status)) = [(m.slot, .done, m.status)] ∧ t.mem.dram = s.mem.dram ∧
      ∀ n, n ≠ cr.toNat → t.core n = s.core n

/-- BARV arrives at an unbroken barrier slot: ARRIVED rises by one modulo 2^16 and an arrival enters the network; BAR arrives and waits with the pc on
itself; BWAIT passes where SEEN equals ARRIVED and waits otherwise (R580, R582, R583).

FSET and FADD send their value to the flag's node and go on; FWAIT passes where its comparison with the slot's copy holds and waits otherwise
(R143, R585, R586).

CWAIT takes its count off a completion counter that has reached it and waits below it; CREAD copies a counter; TWAIT and MWAIT pass once the tile
instructions have retired and the mover is empty (R143).

WSLOT sets SLOTNO to its operand and SLOT_WAIT to 0; after the first of a window only the next number is taken, and any other traps with 0x1012 (R257).

A waiting instruction, or an END that waits, whose watchdog runs out traps with 0x100C; with WDOG 0 nothing happens (R145).

Commands that complete: barv, bar, bwait, fset, fadd, fwait, cwait, cread, twait, mwait, wslot, waitTimeout. -/
def Obligations.SyncInstructions : Prop :=
  (∀ (s : State) (cr : BitVec 9) (w : Waits) (f : BitVec 56), Opnd.unusedSet f [(55, 50)] = false → Opnd.ySlot f < 48 →
    let c := s.core cr.toNat
    let k := Opnd.ySlot f
    c.slotKind k = 2 → s.slotBroken cr.toNat k = false →
    let arrived := (c.slotArrived k + 1) % 65536
    let d := (c.advance w true).setBrimSlot k
      { lo := BitVec.ofNat 32 ((c.brimSlot k).lo.toNat % 65536 + arrived * 65536), hi := (c.brimSlot k).hi }
    let sends := fun (t : State) => t.brimPut (.arrive (s.brimKey cr.toNat k) (c.slotArrived k))
    let waits := fun (x : Core) => { x with ctl := { x.ctl with brimWait := some k, waiting := true, pc := c.ctl.pc },
                                            spec := { x.spec with retired := c.spec.retired } }
    (c.overrun k = false → s.ckpt.atRest.toNat.testBit c.spec.part.toNat = false →
      (s.issues cr w 0xE1 f → exec (.barv cr w f) s = .next (sends (s.setCore cr.toNat d))) ∧
      (s.issues cr w 0xE0 f → arrived ≠ c.slotSeen k → exec (.bar cr w f) s = .next (sends (s.setCore cr.toNat (waits d))))) ∧
    (s.issues cr w 0xE2 f → c.slotArrived k ≠ c.slotSeen k → exec (.bwait cr w f) s = .next (s.setCore cr.toNat (waits (c.advance w true)))) ∧
    (s.issues cr w 0xE2 f → c.slotArrived k = c.slotSeen k → ∃ t, exec (.bwait cr w f) s = .next (s.setCore cr.toNat t) ∧ t.ctl.pc = c.ctl.pc + 1 ∧
      t.ctl.brimWait = none ∧ t.spec.retired = c.spec.retired + 1 ∧ t = { c with ctl := t.ctl, spec := t.spec })) ∧
  (∀ (s : State) (cr : BitVec 9) (w : Waits) (f : BitVec 56), Opnd.ySlot f < 48 →
    let c := s.core cr.toNat
    let k := Opnd.ySlot f
    c.slotKind k = 1 →
    let on := s.setCore cr.toNat (c.advance w true)
    let key := s.brimKey cr.toNat k
    (s.issues cr w 0xE3 f → Opnd.unusedSet f [(55, 50), (45, 41)] = false →
      exec (.fset cr w f) s = .next (on.brimPut (.set key ((c.getS (Opnd.ySv f)).setWidth 32)))) ∧
    (s.issues cr w 0xE4 f → Opnd.unusedSet f [(55, 50), (31, 0)] = false → exec (.fadd cr w f) s = .next (on.brimPut (.add key (f.extractLsb' 0 32)))) ∧
    (s.issues cr w 0xE5 f → Opnd.unusedSet f [(55, 50), (45, 38)] = false →
      let v := (c.brimSlot k).hi.toNat
      let x := ((c.getS (Opnd.ySv f)).setWidth 32).toNat
      let holds := (Opnd.yCond f = 0 ∧ x ≤ v) ∨ (Opnd.yCond f = 1 ∧ v = x) ∨ (Opnd.yCond f = 2 ∧ v ≠ x)
      (holds → exec (.fwait cr w f) s = .next on) ∧
      (¬holds → Opnd.yCond f ≤ 2 → exec (.fwait cr w f) s = .next (s.setCore cr.toNat (c.waitsFor 0xE5 f))))) ∧
  (∀ (s : State) (cr : BitVec 9) (w : Waits) (f : BitVec 56),
    let c := s.core cr.toNat
    let on := c.advance w true
    (s.issues cr w 0xE6 f → Opnd.unusedSet f [(49, 46), (31, 0)] = false → f.extractLsb' 0 32 ≠ 0 →
      let v := c.getCc (Opnd.yCc f)
      let n := f.extractLsb' 0 32
      (n.toNat ≤ v.toNat → exec (.cwait cr w f) s = .next (s.setCore cr.toNat (on.setCc (Opnd.yCc f) (v - n)))) ∧
      (v.toNat < n.toNat → exec (.cwait cr w f) s = .next (s.setCore cr.toNat (c.waitsFor 0xE6 f)))) ∧
    (s.issues cr w 0xE7 f → Opnd.unusedSet f [(49, 41)] = false →
      exec (.cread cr w f) s = .next (s.setCore cr.toNat (on.setS (Opnd.ySv f) ((c.getCc (Opnd.yCc f)).setWidth 64)))) ∧
    (s.issues cr w 0xE8 0 → c.tilesDone = true → exec (.twait cr w 0) s = .next (s.setCore cr.toNat on)) ∧
    (s.issues cr w 0xE8 0 → c.tilesDone = false → exec (.twait cr w 0) s = .next (s.setCore cr.toNat (c.waitsFor 0xE8 0))) ∧
    (s.issues cr w 0xE9 0 → c.mover = [] → exec (.mwait cr w 0) s = .next (s.setCore cr.toNat on)) ∧
    (s.issues cr w 0xE9 0 → c.mover ≠ [] → exec (.mwait cr w 0) s = .next (s.setCore cr.toNat (c.waitsFor 0xE9 0)))) ∧
  (∀ (s : State) (cr : BitVec 9) (w : Waits) (f : BitVec 56), s.issues cr w 0xEA f → Opnd.unusedSet f [(31, 0)] = false →
    let c := s.core cr.toNat
    (c.seenWslot = false ∨ f.extractLsb' 0 32 = c.spec.slotno + 1 →
      ∃ t, exec (.wslot cr w f) s = .next t ∧ t.core cr.toNat = { c.advance w true with
        seenWslot := true, slotOpen := true, spec := { (c.advance w true).spec with slotno := f.extractLsb' 0 32, slotWait := 0 } } ∧
        (∀ n, n ≠ cr.toNat → t.core n = s.core n) ∧ t.mem = s.mem ∧ t.brim = s.brim) ∧
    (c.seenWslot = true → f.extractLsb' 0 32 ≠ c.spec.slotno + 1 →
      exec (.wslot cr w f) s = .next (s.trapped cr 0x1012 0))) ∧
  (∀ (s : State) (cr : BitVec 9), s.halt = none →
    let c := s.core cr.toNat
    c.ctl.enable = true → c.ctl.run = .running → c.ctl.stopping = none →
    (c.ctl.waiting = true ∨ c.ctl.ending = true → c.spec.wdog ≠ 0 → exec (.waitTimeout cr) s = .next
      ((s.setCore cr.toNat { c with ctl := { c.ctl with stopping := some ⟨0x100C, 0⟩, waiting := false, ending := false, brimWait := none, escalated := c.ctl.escalated ++ [0x100C] } }).raise
        (regionBlock (cr.toNat / 32)) 0x100C cr.toNat c.ctl.pc c.spec.slotno.toNat)) ∧
    (c.spec.wdog = 0 → ∃ t, exec (.waitTimeout cr) s = .next t ∧ (∀ n, t.core n = s.core n) ∧ t.mgmt = s.mgmt))

/-- An arrival that does not complete a generation is only counted at its node, by its generation's parity; the last of a core-scope or region-scope barrier
releases every member and the node turns to the next generation (R580, R581).

A release reaches its slot: SEEN rises by one modulo 2^16, and a wait that it ends completes (R580, R583); a flag's new value reaches its copy, and its
node takes a sum or a value and sends it to every participant (R585).

A slot register is written by Crown or firmware while ENABLE is 0, a change of KIND clearing the other word; the host and management are denied with
0x4006 (R597, R824).

The last adder of a generation of a group barrier releases this chip's members; of the next generation it waits for the earlier; any other adder changes
nothing (R580, R587, R589).

A RELEASE frame of the generation that a group barrier waits for releases this chip's members; one of another generation is counted and dropped
(R589, R590).

Commands that complete: brimArrival, brimReleaseDeliver, brimFlagDeliver, brimFlagUpdate, brimSlotWrite, brimLastAdder, brimFrame. -/
def Obligations.BrimBarriersAndFlags : Prop :=
  (∀ (s : State) (key : BrimKey) (gen : Nat) (b : BrimNode) (rest : List BrimMsg), s.halt = none →
    s.brim.wire = .arrive key gen :: rest → s.brim.nodes = [b] → State.nodeHas key b = true →
    let had := if gen % 2 = 0 then b.even else b.odd
    let other := if gen % 2 = 0 then b.odd else b.even
    let counted := fun n => if gen % 2 = 0 then { b with even := n } else { b with odd := n }
    other < b.members.length →
    (had + 1 < b.members.length →
      exec (.brimArrival 0) s = .next (State.drainEngine { s with brim := { s.brim with wire := rest, nodes := [counted (had + 1)] } })) ∧
    (had + 1 = b.members.length → b.gen % 2 = gen % 2 → b.id.scope ≤ 1 →
      exec (.brimArrival 0) s = .next (State.drainEngine { s with brim := { s.brim with
        nodes := [{ counted 0 with gen := b.gen + 1, rel := b.rel + 1 }],
        wire := rest ++ b.members.map (fun m => BrimMsg.release m.1 m.2) } }))) ∧
  (∀ (s : State), s.halt = none →
    (∀ (cr : BitVec 9) (slot : Fin 48) (rest : List BrimMsg), s.brim.wire = .release cr.toNat slot.val :: rest →
      let c := s.core cr.toNat
      let seen := (c.slotSeen slot.val + 1) % 65536
      ∃ t, exec (.brimReleaseDeliver cr slot) s = .next t ∧ t.brim = { s.brim with wire := rest } ∧
        (t.core cr.toNat).slotSeen slot.val = seen ∧ (t.core cr.toNat).slotArrived slot.val = c.slotArrived slot.val ∧
        (c.ctl.brimWait = some slot.val → seen = c.slotArrived slot.val →
          (t.core cr.toNat).ctl.brimWait = none ∧ (t.core cr.toNat).ctl.pc = c.ctl.pc + 1)) ∧
    (∀ (cr : BitVec 9) (slot : Fin 48) (v : BitVec 32) (rest : List BrimMsg), s.brim.wire = .value cr.toNat slot.val v :: rest →
      ∃ t, exec (.brimFlagDeliver cr slot) s = .next t ∧ t.brim = { s.brim with wire := rest } ∧
        t.core cr.toNat = (s.core cr.toNat).setBrimSlot slot.val { lo := ((s.core cr.toNat).brimSlot slot.val).lo, hi := v }) ∧
    (∀ (key : BrimKey) (v : BitVec 32) (b : BrimNode) (rest : List BrimMsg), s.brim.nodes = [b] → State.nodeHas key b = true →
      (s.brim.wire = .add key v :: rest → exec (.brimFlagUpdate 0) s = .next { s with brim := { s.brim with
        nodes := [{ b with value := b.value + v }], wire := rest ++ b.members.map (fun m => .value m.1 m.2 (b.value + v)) } }) ∧
      (s.brim.wire = .set key v :: rest → exec (.brimFlagUpdate 0) s = .next { s with brim := { s.brim with
        nodes := [{ b with value := v }], wire := rest ++ b.members.map (fun m => .value m.1 m.2 v) } }))) ∧
  (∀ (s : State) (cr : BitVec 9) (slot : Fin 48) (v : BitVec 32), s.halt = none →
    let c := s.core cr.toNat
    let b := c.brimSlot slot.val
    (c.ctl.enable = false → State.slotWriteBad b false v.toNat = false →
      exec (.brimSlotWrite cr .crown slot false v) s =
        .next (s.setCore cr.toNat (c.setBrimSlot slot.val ⟨v, if v.extractLsb' 0 2 = b.lo.extractLsb' 0 2 then b.hi else 0⟩))) ∧
    (c.ctl.enable = false → State.slotWriteBad b true v.toNat = false →
      exec (.brimSlotWrite cr .firmware slot true v) s = .next (s.setCore cr.toNat (c.setBrimSlot slot.val ⟨b.lo, v⟩))) ∧
    ∃ t, exec (.brimSlotWrite cr (.mgmt 0 0) slot false v) s = .next t ∧ t.cores = s.cores ∧ ∃ a, t.out = s.out ++ [.refused (.mgmt 0 0) a 0x4006]) ∧
  (∀ (s : State) (b : BrimNode), s.calm → s.brim.nodes = [b] → b.id.scope = 2 → b.broken = false →
    (∀ odd old rest, s.brim.wire = .counter b.id false odd old :: rest →
      (decide (b.rel % 2 = 1) = odd → old + 1 = s.brimAdders b false * (b.rel / 2 + 1) →
        ∃ t, exec (.brimLastAdder 0) s = .next t ∧ t.brim.nodes = [{ b with rel := b.rel + 1 }] ∧
          t.brim.wire = rest ++ b.members.map (fun m => BrimMsg.release m.1 m.2) ∧ t.mem = s.mem ∧ t.cores = s.cores) ∧
      (decide (b.rel % 2 = 1) ≠ odd → old + 1 = s.brimAdders b false * ((b.rel + 1) / 2 + 1) →
        exec (.brimLastAdder 0) s = .next (State.drainEngine { s with brim := { s.brim with wire := rest ++ [BrimMsg.counter b.id false odd old] } })) ∧
      (old + 1 ≠ s.brimAdders b false * ((if decide (b.rel % 2 = 1) = odd then b.rel else b.rel + 1) / 2 + 1) →
        exec (.brimLastAdder 0) s = .next (State.drainEngine { s with brim := { s.brim with wire := rest } })))) ∧
  (∀ (s : State) (f : RxFrame) (b : BrimNode), s.arrives f 0x0E →
    let u := s.passed f 0x0E
    u.brim.nodes = [b] → b.id = ⟨f.part.toNat, 2, bitsNat f.opw.toNat 11 0, 0⟩ → bitsNat f.opw.toNat 12 12 = 0 → bitsNat f.opw.toNat 30 29 = 0 →
    (bitsNat f.opw.toNat 28 13 = b.rel % 2 ^ 16 →
      exec (.brimFrame f) s = .next (State.drainEngine { u with brim := { u.brim with nodes := [{ b with rel := b.rel + 1 }], wire := u.brim.wire ++ b.members.map (fun m => BrimMsg.release m.1 m.2) } })) ∧
    (bitsNat f.opw.toNat 28 13 ≠ b.rel % 2 ^ 16 → exec (.brimFrame f) s = .next (u.count (ctl 0x000E 0x404) 1).drainEngine))

/-- Crown's writes of CORE_CTRL: ENABLE starts an awake core with CYCLE and RETIRED at 0, a sleeping one staying asleep; ENABLE 0 stops it, idle at once with
nothing in flight and draining otherwise; DRAIN drains a running core; QUAR quarantines it and marks the map (R92, R96, R97, R741). With a stream placed the
core's mover is fenced and Crown is told (R360, R740).

The host and management may not write a core's registers: the writer receives 0x1006, and of the cores only this one's LAST_CODE changes (R92).

A write of CORE_IWIN by Crown while ENABLE is 0 and no mover slot is taken, the window inside the square buffer: the pc is 0, every register of R93
reads zero but the Brim slots, the completion counters and CORE_ID, SPILL_IV reads 14, and poisoned tiles stay poisoned (R92, R96, R84, R86).

Commands that complete: coreEnable, coreStop, coreDrain, coreDrained, coreQuar, coreIwinWrite. -/
def Obligations.CoreControl : Prop :=
  (∀ (s : State) (cr : BitVec 9), s.halt = none →
    let c := s.core cr.toNat
    (c.ctl.quar = false → c.ctl.enable = false → exec (.coreEnable cr .crown) s = .next (s.setCore cr.toNat { c with
      ctl := { c.ctl with enable := true, draining := false, ending := false, stopping := none, waiting := false,
                          run := if c.ctl.run = .asleep then .asleep else .running },
      spec := { c.spec with cycle := 0, retired := 0 } })) ∧
    (c.ctl.quar = true → exec (.coreEnable cr .crown) s = .next (s.setCore cr.toNat c)) ∧
    (c.ctl.enable = true → c.ctl.run = .running → c.drained = true → exec (.coreStop cr .crown) s = .next (s.setCore cr.toNat { c with
      ctl := { c.ctl with enable := false, waiting := false, ending := false, run := .idle } })) ∧
    (c.ctl.enable = true → c.ctl.run = .running → c.drained = false → exec (.coreStop cr .crown) s = .next (s.setCore cr.toNat { c with
      ctl := { c.ctl with enable := false, waiting := false, ending := false, run := .draining } })) ∧
    (c.ctl.run = .running → exec (.coreDrain cr .crown) s = .next (s.setCore cr.toNat { c with ctl := { c.ctl with draining := true, run := .draining } })) ∧
    (c.ctl.run = .draining → c.drained = true → c.mover = [] → exec (.coreDrained cr) s = .next (s.setCore cr.toNat { c with
      ctl := { c.ctl with run := .idle, draining := false, enable := false } })) ∧
    (c.ctl.quar = false → s.placedOn cr.toNat = false → exec (.coreQuar cr .crown true) s =
      .next ((({ s with quarMap := s.quarMap ||| (1#512 <<< cr.toNat) } : State).setCore cr.toNat { c.abandon with
        ctl := { c.ctl with quar := true, enable := false, draining := false, ending := false, waiting := false, run := .quarantined } }).pushEvent 8
          [cr.toNat / 32, cr.toNat % 32])) ∧
    (c.ctl.quar = false → s.placedOn cr.toNat = true → ∃ t, exec (.coreQuar cr .crown true) s = .next t ∧
      (t.core cr.toNat).ctl.run = .quarantined ∧ (t.core cr.toNat).mover = [] ∧ t.quarMap = s.quarMap ||| (1#512 <<< cr.toNat) ∧
      t.crown = { s.crown with escalations := s.crown.escalations ++ [(cr.toNat, 0x1013, true)] } ∧ ∀ n, n ≠ cr.toNat → t.core n = s.core n)) ∧
  (∀ (s : State) (cr : BitVec 9) (conn id : Nat) (v : BitVec 32), s.halt = none →
    let who : Writer := .mgmt conn id
    let denied := fun (t : State) => t.core cr.toNat = { s.core cr.toNat with ctl := { (s.core cr.toNat).ctl with lastCode := 0x1006 } } ∧
      (∀ n, n ≠ cr.toNat → t.core n = s.core n) ∧ t.quarMap = s.quarMap ∧ t.mem = s.mem ∧ ∃ a, t.out = s.out ++ [.refused who a 0x1006]
    (∃ t, exec (.coreEnable cr who) s = .next t ∧ denied t) ∧ (∃ t, exec (.coreStop cr who) s = .next t ∧ denied t) ∧
    (∃ t, exec (.coreDrain cr who) s = .next t ∧ denied t) ∧ (∃ t, exec (.coreQuar cr who true) s = .next t ∧ denied t) ∧
    (∃ t, exec (.coreIwinWrite cr who v) s = .next t ∧ denied t)) ∧
  (∀ (s : State) (cr : BitVec 9) (v : BitVec 32), s.halt = none →
    let c := s.core cr.toNat
    c.ctl.enable = false → c.mover = [] → c.unret = [] → v.toNat < 2 ^ 28 → (v.extractLsb' 0 14).toNat + (v.extractLsb' 14 14).toNat ≤ 16383 →
    ∃ t, exec (.coreIwinWrite cr .crown v) s = .next (s.setCore cr.toNat t) ∧
      t.ctl.pc = 0 ∧ t.ctl.waiting = false ∧ t.ctl.iwinBase = v.extractLsb' 0 14 ∧ t.windowLen = 8 * ((v.extractLsb' 14 14).toNat + 1) ∧
      (∀ i, t.getS i = 0 ∧ t.getA i = 0 ∧ t.getTd i = 0) ∧ (∀ i, i < 32 → ∀ l, l < 256 → t.lane i l = 0) ∧
      (∀ i, 0 < i → t.getP i = 0) ∧ t.getP 0 = BitVec.allOnes 256 ∧
      t.spec = { Special.reset with chip := c.spec.chip, part := c.spec.part } ∧ t.spec.spillIv = 14 ∧ t.refills = [] ∧ t.clean = [] ∧
      t.cc = c.cc ∧ t.brim = c.brim ∧ t.sqb = c.sqb ∧ (Sparse.wf Chain.none c.chains = true → ∀ k, t.poisoned k = c.poisoned k))

/-- A tile or vector instruction that is not held retires: its entry leaves and RETIRED rises by one; a held one stays (R73, R74, R86). An operation in a
mover slot is boosted; a stop on error ends in STATE 5 with ENABLE clear once earlier work has retired (R60, R151).

A re-fill of a clean slot lands the 2 048 bytes that its source answers, records 0x1003, and the slot stays clean; a failed one stops the core with
0x1004, the slot produced (R84, R85).

Commands that complete: tileRetire, vectorRetire, moverBoost, coreStopOnError, sqbRefillLanded. -/
def Obligations.RetirementAndStops : Prop :=
  (∀ (s : State) (cr : BitVec 9) (u : Unretired), s.halt = none →
    let c := s.core cr.toNat
    (c.unret = [u] → u.held = false → u.redo = none → u.isTile = true →
      exec (.tileRetire cr u.id) s = .next (s.setCore cr.toNat { c with unret := [], spec := { c.spec with retired := c.spec.retired + 1 } })) ∧
    (c.unret = [u] → u.held = false → u.redo = none → u.isTile = false →
      exec (.vectorRetire cr u.id) s = .next (s.setCore cr.toNat { c with unret := [], spec := { c.spec with retired := c.spec.retired + 1 } })) ∧
    (c.unret = [u] → u.held = true → exec (.tileRetire cr u.id) s = .next (s.setCore cr.toNat c) ∧ exec (.vectorRetire cr u.id) s = .next (s.setCore cr.toNat c)) ∧
    (∀ slot : BitVec 6, c.mover.any (fun m => m.slot = slot.toNat) = true →
      exec (.moverBoost cr slot) s = .next (s.setCore cr.toNat { c with ctl := { c.ctl with boosted := some slot.toNat } })) ∧
    (∀ k, c.ctl.stopping = some k → c.ctl.enable = true → c.drained = true →
      ∃ t, exec (.coreStopOnError cr) s = .next (s.setCore cr.toNat t) ∧ t.ctl.run = .stopped ∧ t.ctl.enable = false ∧ t.ctl.lastCode = k.code ∧
        t = { c with ctl := t.ctl })) ∧
  (∀ (s : State) (cr : BitVec 9) (k : Nat) (src : BitVec 64) (data : List (BitVec 8)), s.calm →
    let c := s.core cr.toNat
    let chip := bitsNat src.toNat 62 50
    c.refills = [k] → assocGet c.clean k = some src → c.unret = [] → c.ctl.stopping = none → chip ≠ s.chip → data.length = 2048 →
    s.firstCheck c.spec.part.toNat (MoverOp.plain 0xC0 src 2048) = none →
    (∃ t, exec (.sqbRefillLanded cr (some data)) s = .next t ∧ (t.core cr.toNat).readSqb (2048 * k) 2048 = data ∧
      (t.core cr.toNat).refills = [] ∧ assocGet (t.core cr.toNat).clean k = some src ∧ (t.core cr.toNat).ctl.lastCode = 0x1003 ∧ t.mem = s.mem) ∧
    (∃ t, exec (.sqbRefillLanded cr none) s = .next t ∧ (t.core cr.toNat).refills = [] ∧ assocGet (t.core cr.toNat).clean k = none ∧
      (t.core cr.toNat).ctl.stopping = some ⟨0x1004, if c.ctl.errLine / 32 = k then c.ctl.errLine else 32 * k⟩ ∧ (t.core cr.toNat).sqb = c.sqb ∧ t.mem = s.mem))

/-- Registers of memory that Crown and firmware clear or order: WEAVE_LATE.CLEAR, PRT chain maxima, a patrol pass (R260, R337, R338).

A patrol pass that finds nothing clears its order and the region's table of corrected symbols; a line in error that the code corrects holds only what it
could not correct; an uncorrectable line of a page in use begins an integrity halt with 0x2102 (R308, R310, R411, R749).

With sampling on, a decay sweep halves HEAT of every record and changes no other field (R316, R329).

A repair of chain fields ends with AFFINITY the record's own region and HEAD the first record of the bucket that it anchors; of page fields, with the page
leaving use and an erase queued (R336).

A line fill in flight lands in the region buffer: the page's frame holds the line (R331).

Commands that complete: weaveLateClear, chainMaxClear, patrolRun, patrolPass, heatDecaySweep, prtRepairComplete, rbLineFill. -/
def Obligations.MemoryUpkeep : Prop :=
  (∀ (s : State) (rg : BitVec 4), s.halt = none →
    let g := s.region rg.toNat
    exec (.weaveLateClear rg .crown) s = .next (s.setRegion rg.toNat { g with lateCnt := 0, worstSlot := 0, worstWait := 0, worstCore := 0 }) ∧
    exec (.chainMaxClear .crown) s = .next { s with mem := { s.mem with chainMax0 := 0, chainMax1 := 0 } } ∧
    exec (.patrolRun rg .firmware) s = .next (s.setRegion rg.toNat { g with patrol := true })) ∧
  (∀ (s : State) (rg : BitVec 4), s.calm → (s.region rg.toNat).patrol = true →
    ((∀ e ∈ s.mem.flips, pageRegion (e.1 / 256) ≠ rg.toNat) →
      exec (.patrolPass rg []) s = .next (s.setRegion rg.toNat { s.region rg.toNat with corr := [], patrol := false }).drainEngine) ∧
    ∀ (page line : Nat) (e : Sparse Byte), pageRegion page = rg.toNat → line < 256 → s.mem.flips = [(Memory.lineAddr page line, e)] →
      (rsCorrect e = none → (s.mem.record page).valid = true →
        ∃ t, exec (.patrolPass rg []) s = .next t ∧ t.halt = some (0x2102, 0x50 + rg.toNat) ∧ t.mem = s.mem) ∧
      (∀ left, rsCorrect e = some left →
        ∃ t, exec (.patrolPass rg []) s = .next t ∧ t.halt = none ∧ t.mem.flips = Sparse.set [] s.mem.flips (Memory.lineAddr page line) left ∧ t.mem.dram = s.mem.dram)) ∧
  (∀ (s : State), s.calm → s.mem.wf = true → (s.reg (ctl 0x0009 0)).toNat.testBit 0 = true →
    ∃ t, exec (.heatDecaySweep []) s = .next t ∧
      (∀ p, t.mem.record p = { s.mem.record p with heat := (s.mem.record p).heat >>> 1 }) ∧ t.mem.dram = s.mem.dram ∧ t.cores = s.cores ∧ t.keys = s.keys) ∧
  (∀ (s : State) (i : Nat) (groups : Nat), s.calm → s.mem.wf = true → s.mem.repairs = [(i, groups)] → i < 2 ^ 21 →
    (groups % 32 = 0 → ∃ t, exec (.prtRepairComplete) s = .next t ∧ t.mem.repairs = [] ∧ (t.mem.record i).affinity.toNat = pageRegion i ∧
      (t.mem.record i).head = ((s.mem.prt.filter (fun e => e.2.valid &&
        decide (pageHalf e.1 = pageHalf i ∧ bucket e.2.part.toNat e.2.vpage.toNat s.mem.salt = i % 2 ^ 20))).map Prod.fst).head? ∧
      (∀ p, p ≠ i → t.mem.record p = { s.mem.record p with chain := (t.mem.record p).chain, head := (t.mem.record p).head }) ∧ t.mem.dram = s.mem.dram) ∧
    (groups % 32 ≠ 0 → (s.mem.record i).valid = false → (s.region (i / 131072)).cuff.scrubQ = [] →
      ∃ t, exec (.prtRepairComplete) s = .next t ∧ t.mem.repairs = [] ∧ (t.mem.record i).valid = false ∧ (t.mem.record i).state.toNat = prtScrubbing ∧
        (t.region (i / 131072)).cuff.scrubQ = [⟨.erase, i⟩])) ∧
  (∀ (s : State) (rg : BitVec 4) (page : BitVec 21) (line : BitVec 8), s.calm →
    (page.toNat, line.toNat) ∈ (s.region rg.toNat).fills → (s.region rg.toNat).rb = [] → (s.region rg.toNat).rbOff = [] →
    ∃ t, exec (.rbLineFill rg page line) s = .next t ∧
      (t.region rg.toNat).rb = [⟨page.toNat % 64, 0, page.toNat, (s.mem.record page.toNat).part.toNat, 1#256 <<< line.toNat⟩] ∧
      (page.toNat, line.toNat) ∉ (t.region rg.toNat).fills ∧ t.mem = s.mem ∧ t.cores = s.cores)

/-- A merge-buffer line that is read and passes its checks: the waiting 8-byte add lands in memory, DIRTY is set, the line is sealed under its record, and the
core's atomic receives the old value in its square buffer (R381, R393, R394, R396, R502).

A whole-page write whose 256 lines are written closes: EPOCH rises by one, KGEN takes the tracker's generation, and no byte changes (R385, R386).

The scrubber takes the queued job and opens its tracker (R386, R392).

The ends of the four scrubber jobs: zero-fill gives the page its state and zeros, erase frees it, a sweep whose lines pass their checks writes it again under
the newest generation, a re-encryption sets EPOCH 0 under it (R327, R382, R389, R392).

Commands that complete: mergeReadDone, wholePageWriteDone, scrubJobStart, scrubZeroFillDone, scrubEraseDone, scrubSweepDone, scrubReencryptDone. -/
def Obligations.CuffWritesAndScrubbing : Prop :=
  (∀ (s : State) (page : BitVec 21) (line : BitVec 8) (n slot : Nat) (x : BitVec 64) (m : MoverOp), s.calm →
    let p := page.toNat
    (s.region (pageRegion p)).cuff.merge = [⟨p, line.toNat, true, [⟨64 * line.toNat, .add64 x, .core n slot⟩]⟩] →
    s.torn (s.mem.record p).part.toNat = false → (s.takePage p line.toNat).2 = true → s.lineFate p line.toNat = .sound false →
    s.brim.nodes = [] → (s.core n).mover = [m] → m.slot = slot → m.op = 0xC3 →
    ∃ t, exec (.mergeReadDone page line []) s = .next t ∧
      t.mem.read p (64 * line.toNat) 8 = leBytes 8 (BitVec.ofNat 64 (leNat (s.mem.read p (64 * line.toNat) 8)) + x).toNat ∧
      (t.mem.record p).dirty = true ∧ t.mem.sealOf p line.toNat = s.wantSeal p line.toNat ∧
      (t.core n).readSqb m.al.toNat 8 = s.mem.read p (64 * line.toNat) 8 ∧
      (∀ a, a < p * pageSize + 64 * line.toNat ∨ p * pageSize + 64 * line.toNat + 8 ≤ a → Sparse.get 0 t.mem.dram a = Sparse.get 0 s.mem.dram a)) ∧
  (∀ (s : State) (page : BitVec 21) (t : Tracker), s.halt = none →
    let p := page.toNat
    (s.region (pageRegion p)).cuff.trackers = [t] → t.page = p → t.written = BitVec.allOnes 256 → t.who = .engine →
    (s.mem.record p).epoch.toNat + 1 < 0xFF0000 →
    exec (.wholePageWriteDone page) s = .next (State.drainEngine { s with
      mem := { s.mem with prt := Sparse.set PrtRec.free s.mem.prt p { s.mem.record p with epoch := (s.mem.record p).epoch + 1, kgen := t.kgen } },
      regions := Sparse.set Region.reset s.regions (pageRegion p)
        { s.region (pageRegion p) with cuff := { (s.region (pageRegion p)).cuff with trackers := [] } } })) ∧
  (∀ (s : State) (rg : BitVec 4) (p : Nat), s.calm → pageRegion p = rg.toNat →
    let c := (s.region rg.toNat).cuff
    c.running = none → c.scrubQ = [⟨.zeroFill, p⟩] → (s.mem.record p).valid = true → c.crownList = [] → c.trackers = [] → c.merge = [] →
    (s.mem.record p).epoch.toNat < 2 ^ 24 - 1 →
    ∃ t, exec (.scrubJobStart rg) s = .next t ∧ (t.region rg.toNat).cuff.running = some ⟨.zeroFill, p⟩ ∧ (t.region rg.toNat).cuff.scrubQ = [] ∧
      (t.region rg.toNat).cuff.trackers.map (fun x => (x.page, x.written)) = [(p, 0)] ∧ t.mem = s.mem) ∧
  (∀ (s : State) (rg : BitVec 4) (p : Nat) (x : Tracker), s.calm → pageRegion p = rg.toNat →
    let c := (s.region rg.toNat).cuff
    let r := s.mem.record p
    c.trackers = [x] → x.page = p → x.who = .engine → r.epoch.toNat + 1 < 0xFF0000 → s.mem.retireQ = [] →
    (c.running = some ⟨.zeroFill, p⟩ → ∃ t, exec (.scrubZeroFillDone rg) s = .next t ∧ (t.region rg.toNat).cuff.running = none ∧
      t.mem.read p 0 pageSize = List.replicate pageSize 0 ∧ (t.mem.record p).state = r.becomes ∧ (t.mem.record p).epoch = r.epoch + 1 ∧
      (t.mem.record p).kgen = x.kgen ∧ ∀ q, q ≠ p → t.mem.record q = s.mem.record q) ∧
    (c.running = some ⟨.erase, p⟩ → ∃ t, exec (.scrubEraseDone rg) s = .next t ∧ (t.region rg.toNat).cuff.running = none ∧
      t.mem.read p 0 pageSize = List.replicate pageSize 0 ∧ (t.mem.record p).state.toNat = prtFree ∧ (t.mem.record p).valid = false ∧
      (t.mem.record p).head = r.head ∧ ∀ q, q ≠ p → t.mem.record q = s.mem.record q) ∧
    (c.running = some ⟨.sweep, p⟩ → (s.takePage p 0).2 = true → (∀ i, i < 256 → s.lineFate p i = .sound false) →
      ∃ t, exec (.scrubSweepDone rg []) s = .next t ∧ (t.region rg.toNat).cuff.running = none ∧
        t.mem.read p 0 pageSize = s.mem.read p 0 pageSize ∧ (t.mem.record p).kgen = x.kgen ∧ (t.mem.record p).state = r.state ∧
        (t.mem.record p).epoch = r.epoch + 1 ∧
        ∀ i, i < 256 → t.mem.sealOf p i = ⟨s.heldKeys rg.toNat (2 * r.part.toNat + b2n x.kgen), r.epoch.toNat + 1, x.kgen, r.part.toNat⟩) ∧
    (c.running = some ⟨.reencrypt, p⟩ → (s.takePage p 0).2 = true → (∀ i, i < 256 → s.lineFate p i = .sound false) →
      ∃ t, exec (.scrubReencryptDone rg []) s = .next t ∧ (t.region rg.toNat).cuff.running = none ∧
        (t.region rg.toNat).cuff.trackers = [] ∧ t.mem.read p 0 pageSize = s.mem.read p 0 pageSize ∧ (t.mem.record p).epoch = 0 ∧
        (t.mem.record p).kgen = x.kgen ∧
        ∀ i, i < 256 → t.mem.sealOf p i = ⟨s.heldKeys rg.toNat (2 * r.part.toNat + b2n x.kgen), 0, x.kgen, r.part.toNat⟩))

/-- Key slots, over a keyed control path, load the keys of SMD's store, drawn where it holds none, and zeroise; nothing else changes, and a slot with an
operation that began with it stays (R26, R374 to R377).

A flit under a loaded key leaves sealed under its counter and stays in the replay buffer; one that arrives whole is opened and moves the expected counter on;
a CRC failure counts and raises 0x2104, the fourth in a row of one flit halts with 0x2105, a tag failure with 0x2106; a replay sends the flit again as it
stands (R378, R402 to R405).

An integrity halt that has begun: every key is gone, HALT_N is low, no link is up, and its code and block stay (R407, R408).

Commands that complete: keySlotLoad, keySlotZeroise, d2dFlitSend, d2dFlitReceive, d2dReplayRequest, integrityHalt. -/
def Obligations.KeySlotsAndDieLinks : Prop :=
  (∀ (s : State) (cuff : Fin 59) (slot : BitVec 6), s.calm →
    (s.keys.control ≠ 0 → s.keys.storeFlipped.contains (64 * State.cuffKind cuff.val + slot.toNat) = false →
      ∃ t, exec (.keySlotLoad cuff slot) s = .next t ∧
        (∀ k, Sparse.get 0 t.keySlots k = if k = cuff.val then Sparse.get 0 s.keySlots k ||| (1#64 <<< slot.toNat) else Sparse.get 0 s.keySlots k) ∧
        t.heldKeys cuff.val slot.toNat = (if s.storedKeys cuff.val slot.toNat = 0 then s.free + 1 else s.storedKeys cuff.val slot.toNat) ∧
        t.storedKeys cuff.val slot.toNat = t.heldKeys cuff.val slot.toNat ∧
        (∀ k b, b < 64 → k ≠ cuff.val ∨ b ≠ slot.toNat → t.heldKeys k b = s.heldKeys k b) ∧ t.mem = s.mem ∧ t.cores = s.cores ∧ t.out = s.out) ∧
    (s.slotBusy cuff.val slot.toNat = false → ∃ t, exec (.keySlotZeroise cuff slot) s = .next t ∧ t.heldKeys cuff.val slot.toNat = 0 ∧
      (∀ k b, b < 64 → k ≠ cuff.val ∨ b ≠ slot.toNat → t.heldKeys k b = s.heldKeys k b) ∧
      (∀ k, k ≠ cuff.val → Sparse.get 0 t.keySlots k = Sparse.get 0 s.keySlots k) ∧
      (Sparse.get 0 t.keySlots cuff.val).toNat.testBit slot.toNat = false ∧
      (∀ b, b < 64 → b ≠ slot.toNat → (Sparse.get 0 t.keySlots cuff.val).toNat.testBit b = (Sparse.get 0 s.keySlots cuff.val).toNat.testBit b) ∧
      t.mem = s.mem ∧ t.cores = s.cores ∧ t.out = s.out) ∧
    (s.slotBusy cuff.val slot.toNat = true → ∃ t, exec (.keySlotZeroise cuff slot) s = .next t ∧ t = { s with d2d := t.d2d })) ∧
  (∀ (s : State) (d : Fin 6), s.halt = none →
    let e := s.d2dEnd d.val
    (∀ (part : BitVec 5) (kgen : Bool) (cls : BitVec 2) (units : BitVec 3) (route : BitVec 48) (payload : List (BitVec 8)),
      let h := State.flitHeader part kgen cls units route
      let size := 32 * (units.toNat + 1)
      let f := State.sealFlit (s.heldKeys (16 + d.val) (2 * part.toNat + b2n kgen)) e.salt e.txCtr h ((payload ++ List.replicate size 0).take size)
      s.maySend d.val (2 * part.toNat + b2n kgen) = true → s.keys.flipped.contains (64 * (16 + d.val) + (2 * part.toNat + b2n kgen)) = false →
      e.txCtr < 2 ^ 64 → e.replay.length < 64 →
      exec (.d2dFlitSend d part kgen cls units route payload) s = .next { s with
        d2d := Sparse.set D2d.reset s.d2d d.val { e with txCtr := e.txCtr + 1, replay := e.replay ++ [(e.txCtr, f)] },
        out := s.out ++ [.flit d.val e.txCtr f] }) ∧
    (∀ (f : Flit) (owner : Option (BitVec 9 × BitVec 6)),
      let key := s.heldKeys (16 + d.val) (State.flitSlot f.header)
      let salt := (s.d2dEnd (State.otherEnd d.val)).salt
      (State.flitCrcOk f = true → key ≠ 0 → s.keys.flipped.contains (64 * (16 + d.val) + State.flitSlot f.header) = false →
        (State.flitTagOk key salt e.rxCtr f = true → exec (.d2dFlitReceive d f owner) s = .next { s with
          d2d := Sparse.set D2d.reset s.d2d d.val { e with rxCtr := e.rxCtr + 1, fails := 0 },
          out := s.out ++ [.flitOpened d.val f.header (gcmText (State.keyPart key 0 32) (State.flitIv salt e.rxCtr) f.payload)] }) ∧
        (State.flitTagOk key salt e.rxCtr f = false → ∃ t, exec (.d2dFlitReceive d f owner) s = .next t ∧ t.halt = some (0x2106, 0x60 + d.val) ∧ t.mem = s.mem)) ∧
      (State.flitCrcOk f = false → e.fails ≠ 3 → ∃ t, exec (.d2dFlitReceive d f owner) s = .next t ∧ t.halt = none ∧
        t.d2d = Sparse.set D2d.reset s.d2d d.val { e with fails := e.fails + 1 } ∧ t.out = s.out ++ [.flitAgain d.val e.rxCtr]) ∧
      (State.flitCrcOk f = false → e.fails = 3 → ∃ t, exec (.d2dFlitReceive d f owner) s = .next t ∧ t.halt = some (0x2105, 0x60 + d.val))) ∧
    ∀ (ctr : BitVec 64) (f : Flit), e.replay = [(ctr.toNat, f)] →
      exec (.d2dReplayRequest d ctr) s = .next { s with out := s.out ++ [.flit d.val ctr.toNat f] }) ∧
  (∀ (s : State) (h : Nat × Nat), s.halt = some h → s.haltLow = false →
    ∃ t, exec .integrityHalt s = .next t ∧ t.keySlots = [] ∧ t.keys.slotKeys = [] ∧ t.keys.store = [] ∧ t.keyless = true ∧ t.haltLow = true ∧ t.halt = some h ∧
      (∀ j, j < 36 → (t.link j).run = .halted) ∧ (∀ i, (t.session i).seed = none) ∧ t.mem = s.mem ∧ t.cores = s.cores)

/-- REGISTER of legal fields whose page sets meet no registration's and whose groups are not registered yet adds its entry to the tensor table and ends with
STATUS 0 (R279 to R283); RELEASE of a whole entry takes it and its accumulation counts out (R284); a slot with an undefined OP is refused with 0x1107 (R278).

A command that ends leaves the window, its STATUS, its code or its count of non-finite elements, is written at offset 56 of its slot, and its signal
goes out (R278, R280, R293).

UE_CTRL: ENABLE starts and stops consuming, DRAIN ends in ENABLE 0 once the window is empty (R301); the host and management may not write it. A landed
slot whose sequence number is the ring's next enters the window (R276).

Commands that complete: ueRegister, ueRelease, ueUndefinedOp, ueEnable, ueDrain, ueDrainComplete, ueSlotConsume. -/
def Obligations.UpdateEngineTable : Prop :=
  (∀ (s : State) (rg : BitVec 4) (k : BitVec 6) (c : UeCmd), s.halt = none →
    let u := (s.region rg.toNat).ue
    u.window[k.toNat]? = some c → c.started = false → s.ueLive rg.toNat c.part = true → (u.window.take k.toNat).all (fun e => !e.meets c) = true →
    let t := c.registration
    (c.op = 1 → c.registerOk = true → 0 < t.count → u.table.length + State.tableHeld u < 1024 →
      (∀ x ∈ s.allRegs, x.part = t.part → ∀ a ∈ x.runs, ∀ b ∈ t.runs, runsMeet a b = false) →
      (∀ x ∈ s.allRegs, x.part = t.part → x.tensor = t.tensor → x.first + x.count ≤ t.first ∨ t.first + t.count ≤ x.first) →
      exec (.ueRegister rg k) s = .next ((s.onUe rg.toNat (fun u => { u with table := u.table ++ [t] })).ueEnd rg.toNat c 0).drainEngine) ∧
    (∀ x : Registration, c.op = 2 → c.fieldsOk = true → u.table = [x] → x.part = c.part → x.tensor = c.tensor → x.first = c.first → x.count = c.count →
      0 < c.count → State.tableHeld u ≤ 1024 →
      exec (.ueRelease rg k) s = .next ((s.onUe rg.toNat (fun u => { u with
        table := [], done := u.done.filter (fun d => !(d.part = c.part && d.tensor = c.tensor && decide (c.first ≤ d.group ∧ d.group < c.first + c.count))) })).ueEnd
          rg.toNat c 0).drainEngine) ∧
    (c.op = 0 ∨ 6 ≤ c.op → exec (.ueUndefinedOp rg k) s = .next
      (((s.raise (regionBlock rg.toNat) 0x1107 rg.toNat c.tensor c.first).onUe rg.toNat (fun u => { u with lastCode := 0x1107, refusedCnt := satAdd 16 u.refusedCnt 1 })).ueEnd
        rg.toNat c 0x1107).drainEngine)) ∧
  (∀ (s : State) (r code : Nat) (c : UeCmd) (p : Nat), c.slotOff < 2 ^ 45 → c.slotOff % 64 = 0 →
    let s0 := s.onUe r (fun u => { u with window := u.window.filter (fun x => !(x.part = c.part && x.slotOff = c.slotOff)) })
    (s0.access (.region r) c.part (c.slotOff / pageSize) true).2 = .served p →
    s.ueEnd r c code = (s0.post ⟨some r, c.part, c.slotOff + 56,
      .bytes (leBytes 8 (if code = 0 then min c.nonFinite (2 ^ 32 - 1) * 2 ^ 16 else code))⟩).engineSignal (some r) c.part c.signal) ∧
  (∀ (s : State) (rg : BitVec 4), s.halt = none →
    let u := (s.region rg.toNat).ue
    (∀ on, exec (.ueEnable rg .crown on) s = .next (s.setRegion rg.toNat { s.region rg.toNat with ue := { u with enable := on } })) ∧
    (u.enable = true → u.state = 0 → exec (.ueDrain rg .firmware) s = .next (s.setRegion rg.toNat { s.region rg.toNat with ue := { u with state := 3 } })) ∧
    (u.state = 3 → u.window = [] → exec (.ueDrainComplete rg) s =
      .next (s.setRegion rg.toNat { s.region rg.toNat with ue := { u with state := 0, enable := false } })) ∧
    (∀ conn id, ∃ t a, exec (.ueDrain rg (.mgmt conn id)) s = .next t ∧ t.regions = s.regions ∧ t.out = s.out ++ [.refused (.mgmt conn id) a 0x1006]) ∧
    ∀ (part : BitVec 5) (ring : UeRing) (t : State) (slot : List (BitVec 8)), part ≠ 0 → u.rings = [ring] → ring.part = part.toNat →
      let off := ring.vpage * pageSize + 64 * (ring.seq % max 1 ring.slots)
      s.engineRead (some rg.toNat) part.toNat off 64 = .got t slot → u.enable = true → u.state = 0 → u.window.length < 64 →
      leNat ((slot.drop 4).take 4) = ring.seq % 2 ^ 32 → s.ueLive rg.toNat part.toNat = true →
      exec (.ueSlotConsume rg part) s = .next (t.onUe rg.toNat (fun u => { u with
        rings := u.rings.map (fun x => if x.part = part.toNat then { x with seq := x.seq + 1 } else x),
        window := u.window ++ [⟨part.toNat, off, slot, false, 0, [], 0, false⟩] })).drainEngine)

/-- ACCUM of the next micro-step, STEP whose micro-steps are done and whose record passes R290, and MODE into the other mode begin at their first group where
no page of theirs is refused (R285 to R287, R290, R295); STEP holds the ten words of its record.

A page group of ACCUM: a first residue mismatch is counted, raises 0x110A and leaves the group to be done again (R300); otherwise micro-step 1 of BF16
gradients writes their values as binary32 into the group's two accumulation pages and is counted as done (R285, R286, R299).

Commands that complete: ueAccum, ueStep, ueMode, groupWriteBack. -/
def Obligations.UpdateEngineWork : Prop :=
  (∀ (s : State) (rg : BitVec 4) (k : BitVec 6) (c : UeCmd) (t : Registration), s.halt = none →
    let u := (s.region rg.toNat).ue
    u.window[k.toNat]? = some c → c.started = false → s.ueLive rg.toNat c.part = true → (u.window.take k.toNat).all (fun e => !e.meets c) = true →
    c.fieldsOk = true → u.table = [t] → t.part = c.part → t.tensor = c.tensor → t.first = c.first → t.count = c.count → 0 < c.count →
    let begun := fun (s : State) (hyp : List F32) => (s.onUe rg.toNat (fun u => { u with
      window := u.window.map (fun x => if x.part = c.part ∧ x.slotOff = c.slotOff then { x with started := true, next := c.first, hyp := hyp } else x) })).drainEngine
    (c.op = 3 → 1 < t.accN → c.micro ≤ t.accN →
      (∀ q, c.first ≤ q → q < c.first + c.count → s.microDone rg.toNat c.part c.tensor q c.step + 1 = c.micro) → s.ueRefusal rg.toNat c = none →
      exec (.ueAccum rg k) s = .next (begun s [])) ∧
    (∀ (b : List (BitVec 8)) (s' : State), c.op = 4 → c.src ≠ 0 → s.engineGet (some rg.toNat) c.part c.hypAddr 64 = .got s' b →
      (s'.region rg.toNat).ue = u → hypOk t.sgd b = true → s'.ueRefusal rg.toNat c = none →
      exec (.ueStep rg k) s = .next (begun s' ((chunks 4 10 b).map (BitVec.ofNat 32)))) ∧
    (c.op = 5 → t.wide ≠ decide (c.src = 1) → State.tableFits u c = true → s.ueRefusal rg.toNat c = none →
      exec (.ueMode rg k) s = .next (begun s []))) ∧
  (∀ (s : State) (rg : BitVec 4) (k : BitVec 6) (c : UeCmd) (t : Registration), s.halt = none →
    let u := (s.region rg.toNat).ue
    let q := c.next
    u.window[k.toNat]? = some c → c.started = true → s.ueLive rg.toNat c.part = true →
    (c.retried = false → exec (.groupWriteBack rg k true) s = .next ((s.raise (regionBlock rg.toNat) 0x110A rg.toNat c.tensor q).onUe rg.toNat (fun u => { u with
      lastCode := 0x110A, residueCnt := satAdd 16 u.residueCnt 1, window := u.window.map (fun x => if x = c then { x with retried := true } else x) })).drainEngine) ∧
    (∀ (s1 : State) (b : List (BitVec 8)), c.op = 3 → c.src = 1 → c.micro = 1 → s.regOf rg.toNat c q = some t → q + 1 < c.first + c.count →
      let i := q - t.first
      let src := c.srcVp + (q - c.first)
      s.moving c.part src = false →
      (State.groupTargets t c q).findSome? (s.ueBlock rg.toNat c.part) = none →
      s.engineReads (some rg.toNat) c.part [(src * pageSize, pageSize)] = .got s1 b → b.length = pageSize →
      let new := (chunks 2 8192 b).flatMap (fun w => leBytes 4 (rne32 (bf16.decode w)).toNat)
      let w1 := s1.uePut rg.toNat c.part ((t.gacc + 2 * i) * pageSize) (new.take pageSize)
      let w2 := w1.uePut rg.toNat c.part ((t.gacc + 2 * i + 1) * pageSize) ((new.drop pageSize).take pageSize)
      exec (.groupWriteBack rg k false) s = .next (w2.onUe rg.toNat (fun u => { u with
        done := u.done.filter (fun d => !(d.part = c.part && d.tensor = c.tensor && d.group = q && d.step = c.step)) ++ [⟨c.part, c.tensor, q, c.step, 1⟩],
        window := u.window.map (fun y => if y.part = c.part ∧ y.slotOff = c.slotOff then { c with next := q + 1, retried := false } else y) })).drainEngine))

/-- A Charter over DOE that passes every check of R426 takes the lowest free session slot: the session is in KEYING, each of its partitions is open at
generation 1 with a full bucket of tokens, and generation 1 of its key is in every memory and die-to-die Cuff and generation 0 in the PCIe Cuff (R427, R522).
One that fails a check is refused with that check's code and changes no partition or key; before boot is ready, with 0x020A (R654).

The order of R426: an encoding or signature failure answers 0x2201, and a Charter that does not name this chip with its Device ID, has expired, names a
partition in use or a session in force, answers 0x2202.

Commands that complete: charterSubmit. -/
def Obligations.Charters : Prop :=
  (∀ (s : State) (c : Charter) (enc sigs oper : Bool), s.halt = none → s.keys.storeFlipped = [] →
    (s.boot.ready = true → (s.reg (ctl 1 0x10)).toNat.testBit 7 = true → s.charterCheck c enc sigs oper = none →
      ∃ t i, exec (.charterSubmit c enc sigs oper) s = .next t ∧ i < 8 ∧ (s.session i).state = .none ∧ (∀ k, k < i → (s.session k).state ≠ .none) ∧
        t.session i = { Session.none with state := .keying, charter := some c } ∧ t.clock.slewOnly = true ∧
        ∀ d ∈ c.parts, t.part d.number = { Partition.free with state := .open_, gen := 1, session := i, tokens := d.burst * 2 ^ 20 } ∧
          (∀ q, q < 22 → (Sparse.get 0 t.keySlots q).toNat.testBit (2 * d.number + 1) = true) ∧
          (Sparse.get 0 t.keySlots 58).toNat.testBit (2 * d.number) = true) ∧
    (∀ code, s.boot.ready = true → (s.reg (ctl 1 0x10)).toNat.testBit 7 = true → s.charterCheck c enc sigs oper = some code →
      exec (.charterSubmit c enc sigs oper) s = .next ((s.raise 0x000C code 0 0 0).emit (.doe 2 code [0]))) ∧
    (s.boot.ready = false → exec (.charterSubmit c enc sigs oper) s = .next ((s.raise 2 0x020A 0 0 0).emit (.doe 2 0x020A [0])))) ∧
  (∀ (s : State) (c : Charter) (enc sigs oper : Bool), s.test.opened = false → s.test.bscan = false →
    (enc = false ∨ sigs = false → s.charterCheck c enc sigs oper = some 0x2201) ∧
    (s.charterCheck c enc sigs oper = none →
      c.legal = true ∧ s.clock.now < c.notAfter ∧ (∃ d, (s.chip, d) ∈ c.chips.zip c.digests ∧ d = s.boot.deviceId) ∧
      (∀ d ∈ c.parts, (s.part d.number).state = .free) ∧ (∃ i, i < 8 ∧ (s.session i).state = .none) ∧
      ∀ i, i < 8 → ∀ d, (s.session i).charter = some d → d.sessionId ≠ c.sessionId))

/-- The SPDM responder (R433, R434): version, capabilities and algorithms in that order, version 1.3 alone, slot 0 alone; measurements once that is done.

Secure sessions (R433): KEY_EXCHANGE opens the next number, FINISH finishes the handshake or ends it, END_SESSION ends the session; DOE Discovery
names five protocols (R659).

Commands that complete: getVersion, getCapabilities, negotiateAlgorithms, getDigests, getCertificate, challenge, getMeasurements, keyExchange, spdmFinish,
endSession, doeDiscovery. -/
def Obligations.SpdmResponder : Prop :=
  (∀ (s : State) (t : Fin 3), s.halt = none ∨ t.val ≠ 1 →
    let c := s.spdmConn t
    exec (.getVersion t) s = .next ((s.setSpdm ⟨t, true, false, false⟩).emit (.spdm t 0x84 false [0x13])) ∧
    (c.version = true → exec (.getCapabilities t) s = .next ((s.setSpdm ⟨t, true, true, false⟩).emit (.spdm t 0xE1 false []))) ∧
    (c.version = false → exec (.getCapabilities t) s = .next (s.emit (.spdm t 0xE1 true []))) ∧
    (c.caps = true → exec (.negotiateAlgorithms t true) s = .next ((s.setSpdm ⟨t, true, true, true⟩).emit (.spdm t 0xE3 false []))) ∧
    exec (.negotiateAlgorithms t false) s = .next (s.emit (.spdm t 0xE3 true [])) ∧
    (c.algs = true → exec (.getDigests t) s = .next (s.emit (.spdm t 0x81 false [1])) ∧
      (∀ slot, exec (.getCertificate t slot) s = .next (s.emit (.spdm t 0x82 (decide (slot ≠ 0)) (if slot = 0 then [0] else []))) ∧
               exec (.challenge t slot) s = .next (s.emit (.spdm t 0x83 (decide (slot ≠ 0)) (if slot = 0 then [0] else [])))) ∧
      exec (.getMeasurements t 0) s = .next (s.emit (.spdm t 0xE0 false [16])) ∧
      ∀ i : BitVec 8, 32 ≤ i.toNat → i.toNat ≤ 39 → ∀ ch, (s.session (i.toNat - 32)).charter = some ch →
        exec (.getMeasurements t i) s = .next (s.emit (.spdm t 0xE0 false (i.toNat :: ch.digest.map BitVec.toNat)))) ∧
    (c.algs = false → exec (.getDigests t) s = .next (s.emit (.spdm t 0x81 true [])))) ∧
  (∀ (s : State) (t : Fin 3), s.halt = none →
    let k := s.keys
    let to_ := fun (xs : List SecureSession) (next : Nat) => { s with keys := { k with secure := xs, nextSecure := next } }
    ((s.spdmConn t).algs = true → k.secure.length < 32 → t.val ≠ 2 →
      exec (.keyExchange t) s = .next ((to_ (k.secure ++ [⟨k.nextSecure, t, false⟩]) (k.nextSecure + 1)).emit (.spdm t 0xE4 false [k.nextSecure]))) ∧
    (∀ n, k.secure = [⟨n, t, false⟩] →
      exec (.spdmFinish t n true) s = .next ((to_ [⟨n, t, true⟩] k.nextSecure).emit (.spdm t 0xE5 false [n])) ∧
      exec (.spdmFinish t n false) s = .next ((to_ [] k.nextSecure).emit (.spdm t 0xE5 true [n]))) ∧
    (∀ n f, k.secure = [⟨n, t, f⟩] → exec (.endSession t n) s = .next ((to_ [] k.nextSecure).emit (.spdm t 0xEC false [n]))) ∧
    ∀ index : BitVec 8, index.toNat < 5 → exec (.doeDiscovery index) s = .next (s.emit (.doe 0 0 [index.toNat, (index.toNat + 1) % 5])))

/-- Owners' requests in a finished secure session with a good signature (R430, R431, R435, R436): a seed share that matches its commitment is taken, and the
last one makes the session ACTIVE with the seed of R431; AGREE gives the owner a new pair with its counters at 0 and the keys of both directions from the
shared secret, and answers with this side's public key; a bad signature is refused with 0x2201.

ESCROW_SHARE (R435, R457): a share is kept; with the last one the snapshot key is known if its check value matches the header of the image at hand, and else all
shares are dropped and the owner gets 0x2210, as for a wrong index or length; in a session that ends or knows its key, 0x2209.

Commands that complete: seedShare, ownerAgree, ownerRotate, ownerEnd, escrowShare. -/
def Obligations.OwnerRequests : Prop :=
  (∀ (s : State) (sec owner i : Nat) (id share pub : List (BitVec 8)) (x : SecureSession) (y : Session) (c : Charter), s.halt = none →
    s.keys.secure.find? (fun x => x.id = sec) = some x → x.finished = true → s.sessionOf id = some (i, y) → y.charter = some c → owner ∈ c.owners →
    let all := y.shares ++ [(owner, share)]
    (y.state = .keying → share.length = 32 → (∀ z ∈ y.shares, z.1 ≠ owner) →
      (c.owners.zip c.seedCommit).find? (fun x => x.1 = owner) = some (owner, sha384 (c.sessionId ++ [BitVec.ofNat 8 owner] ++ share)) →
      (all.length ≠ c.owners.length → exec (.seedShare sec owner id share true) s =
        .next ((s.setSession i { y with shares := all }).emit (.spdm x.transport 1 false []))) ∧
      (all.length = c.owners.length → exec (.seedShare sec owner id share true) s = .next (((s.setSession i { y with
        shares := all, state := .active,
        seed := some ((sha384 (c.sessionId ++ c.owners.flatMap (fun o => ((all.find? (fun z => z.1 = o)).map Prod.snd).getD []))).take 32) }).pushEvent 2 [i]).emit
          (.spdm x.transport 1 false [])))) ∧
    (y.state ≠ .ending →
      let d := s.entropyBytes 48
      let z := Config.ecShared d.1 pub
      exec (.ownerAgree sec owner id true pub) s = .next ((({ d.2 with keys := { s.keys with agreements := s.keys.agreements + 1 } } : State).setSession i
        { y with pairs := y.pairs.filter (fun (p : OwnerPair) => p.owner ≠ owner) ++
          [(⟨owner, s.keys.agreements, 0, 0, pairKey c.sessionId z owner 0, pairKey c.sessionId z owner 1⟩ : OwnerPair)] }).emit
        (.spdm x.transport 2 false ((Config.ecPublic d.1).map BitVec.toNat)))) ∧
    (∀ (part : BitVec 5) t, part.toNat ∈ s.partsOf i → s.rotate part.toNat = (t, 0) →
      exec (.ownerRotate sec owner id true part) s = .next (t.emit (.spdm x.transport 3 false []))) ∧
    (y.state ≠ .ending → s.calm → (∀ r, r < 16 → (s.region r).ue.window = []) →
      ∃ t, exec (.ownerEnd sec owner id true) s = .next t ∧ (t.session i).state = .ending ∧ (t.session i).teardown = .fenced ∧ t.mem.dram = s.mem.dram) ∧
    exec (.ownerAgree sec owner id false pub) s = .next ((s.raise 0x000C 0x2201 i owner 0).emit (.spdm x.transport 2 true [0x2201]))) ∧
  (∀ (s : State) (sec owner i index : Nat) (id share : List (BitVec 8)) (x : SecureSession) (y : Session) (c : Charter), s.halt = none →
    s.keys.secure.find? (fun x => x.id = sec) = some x → x.finished = true → s.sessionOf id = some (i, y) → y.charter = some c → owner ∈ c.owners →
    let fails := fun (s : State) code => ((s.raise 0x000C code i owner 0).emit (.spdm x.transport 5 true [code])).drainEngine
    let all := assocSet y.escrow index share
    let u := s.setSession i { y with escrow := all }
    (y.state = .ending ∨ y.ckKnown = true → exec (.escrowShare sec owner id true index share) s = .next (fails s 0x2209)) ∧
    (y.state ≠ .ending → y.ckKnown = false →
      (c.escrow.length ≤ index ∨ share.length ≠ 32 → exec (.escrowShare sec owner id true index share) s = .next (fails s 0x2210)) ∧
      (index < c.escrow.length → share.length = 32 →
        (all.length < c.escrow.length ∨ u.imageSource i = none →
          exec (.escrowShare sec owner id true index share) s = .next (u.emit (.spdm x.transport 5 false [])).drainEngine) ∧
        (∀ src r h, c.escrow.length ≤ all.length → u.imageSource i = some src → u.imageRead src pageSize = .got r h →
          (∀ ck, u.sharedKey i h = some ck → exec (.escrowShare sec owner id true index share) s =
            .next ((u.keepCk i (field_ h 32 4) ck).emit (.spdm x.transport 5 false [])).drainEngine) ∧
          (u.sharedKey i h = none →
            exec (.escrowShare sec owner id true index share) s = .next (fails (s.setSession i { y with escrow := [] }) 0x2210))))))

/-- A rotation makes the next generation live in every memory and die-to-die Cuff and the partition ROTATING, by KEYS.ROTATE or by schedule; while it rotates
a second is answered 0x2203, which a schedule repeats later; the last page done, the older generation is zeroised and an event says so (R447 to R449, R462).

Teardown (R451, R454): SESS_CTRL.END and the end of NOT_AFTER fence an ACTIVE session; once the fence has drained its keys are zeroised in every Cuff and
its seed, pairs and shares are gone; when no page of it is left to erase its partitions and its slot are free; a fence that has not drained in time halts
with 0x2206.

Commands that complete: keysRotateGo, scheduledRotation, rotationComplete, sessCtrlEnd, notAfterExpiry, teardownDrained, sessionClosed, teardownStall. -/
def Obligations.RotationAndTeardown : Prop :=
  (∀ (s : State) (p : BitVec 5), s.halt = none →
    let x := s.part p.toNat
    let started := fun (t : State) => t.part p.toNat = { x with gen := x.gen + 1, state := .rotating } ∧
      ∀ q, q < 22 → (Sparse.get 0 t.keySlots q).toNat.testBit (2 * p.toNat + (x.gen + 1) % 2) = true
    (x.state = .open_ → x.gen ≠ 65535 → ∃ t, exec (.keysRotateGo p .firmware) s = .next t ∧ started t ∧ t.mem.dram = s.mem.dram ∧ t.cores = s.cores) ∧
    (∀ (slot : Fin 8) (c : Charter), (s.session slot).charter = some c → c.rotateS ≠ 0 → s.partsOf slot = [p.toNat] →
      (x.state = .open_ → x.gen ≠ 65535 → ∃ t, exec (.scheduledRotation slot) s = .next t ∧ started t) ∧
      (x.state = .rotating → ∃ t, exec (.scheduledRotation slot) s = .next t ∧ t.part p.toNat = { x with schedulePending := true })) ∧
    (x.state = .rotating → s.olderLeft p.toNat = false → (s.slotsIdle (2 * p.toNat + (x.gen + 1) % 2)).2 = true → x.schedulePending = false →
      ∃ t, exec (.rotationComplete p) s = .next t ∧ t.part p.toNat = { x with state := .open_ } ∧
        ∀ q, q < 22 → (Sparse.get 0 t.keySlots q).toNat.testBit (2 * p.toNat + (x.gen + 1) % 2) = false) ∧
    exec (.keysRotateGo p .host) s = .next (s.refuse .host (ctl 0x000C 4) 0x220E)) ∧
  (∀ (s : State) (slot : Fin 8), s.calm →
    let y := s.session slot
    let ps := s.partsOf slot
    let fenced := fun (t : State) cause => t.session slot = { y with state := .ending, teardown := .fenced, cause := cause } ∧
      (∀ p ∈ ps, (t.part p).state = .ending) ∧ t.keySlots = s.keySlots ∧ t.mem.dram = s.mem.dram
    (y.state = .active → (∀ r, r < 16 → (s.region r).ue.window = []) →
      (∃ t, exec (.sessCtrlEnd slot .firmware) s = .next t ∧ fenced t 2) ∧
      (∀ c, y.charter = some c → c.notAfter ≤ s.clock.now → ∃ t, exec (.notAfterExpiry slot) s = .next t ∧ fenced t 3)) ∧
    (y.teardown = .fenced → s.fenceHeld ps = false →
      (∀ p ∈ ps, ∀ b, b < 2 → (∀ q, q < 16 → s.slotBusy q (2 * p + b) = false) ∧ ∀ n, n < 6 → s.flitsOut n (2 * p + b) = false) →
      ∃ t, exec (.teardownDrained slot) s = .next t ∧
        t.session slot = { y with teardown := .drained, seed := none, pairs := [], shares := [], escrow := [], ckKnown := false } ∧
        (∀ p ∈ ps, (t.part p).state = .erasing) ∧ t.mem.dram = s.mem.dram ∧
        ∀ q, q < 59 → ∀ p ∈ ps, (Sparse.get 0 t.keySlots q).toNat.testBit (2 * p) = false ∧ (Sparse.get 0 t.keySlots q).toNat.testBit (2 * p + 1) = false) ∧
    (y.teardown = .drained → (∀ e ∈ s.mem.prt, e.2.state.toNat = prtScrubbing → e.2.part.toNat ∉ ps) →
      ∃ t, exec (.sessionClosed slot) s = .next t ∧ t.session slot = Session.none ∧ (∀ p ∈ ps, t.part p = Partition.free) ∧ t.mem = s.mem ∧ t.keySlots = s.keySlots) ∧
    (y.teardown = .fenced → ∃ t, exec (.teardownStall slot) s = .next t ∧ t.halt = some (0x2206, 0x000C) ∧ t.keys = s.keys))

/-- Cold boot (R638 to R653). With an image that passes the checks and no fault in bring-up, PHASE comes to 4 with the protection set-up written from the
image and locked, this chip's number set from the chip map, partition 0 open, memory and page records clear. With a first slot that fails, 0x0108 and the other
slot; with both, the boot stops in PHASE 6 with no key held.

Crown ready brings PHASE 5 and READY and enables the update engines of the usable regions; READY late stops the boot in PHASE 6 (R638, R652 to R654).

Commands that complete: coldBoot, bootReady, bootTimeout. -/
def Obligations.ColdBoot : Prop :=
  (∀ (s : State) (b : BootFacts), s.halt = none → s.boot.phase = 0 → s.boot.measures = [] → s.pwr.seq = .up → (s.pin 0).active = false → (s.pin 1).active = false →
    let first := s.bootSlot
    let boots := fun (slot : Nat) => b.edge = none → b.dramStacks = 0 → b.rows = [] → b.fuseOk = true → s.boot.held = 0 →
      let x := s.readImage slot
      ∃ t, exec (.coldBoot b) s = .next t ∧ t.boot.phase = 4 ∧ t.boot.slot = slot ∧ t.boot.ready = s.boot.ready ∧ t.locked = true ∧
        t.reg (ctl 1 4) = BitVec.ofNat 32 (field_ x.prot 0 4) ∧ t.reg (ctl 1 0x10) = BitVec.ofNat 32 (field_ x.prot 12 4) ∧
        some t.chip = ((chipMap x.map).find? (fun e => e.1 = b.own)).map Prod.snd ∧
        (t.part 0).state = .open_ ∧ (t.part 0).gen = 1 ∧ t.mem.dram = [] ∧ (∀ q, q < 22 → (Sparse.get 0 t.keySlots q).toNat.testBit 1 = true) ∧
        assocGet t.boot.measures 2 = some (sha384 x.kearnef) ∧ t.boot.fallback = (s.boot.fallback || decide (slot ≠ first))
    (s.imageCode b first = none → boots first) ∧
    (s.imageCode b first ≠ none → s.imageCode b (1 - first) = none → boots (1 - first)) ∧
    (s.imageCode b first ≠ none → s.imageCode b (1 - first) ≠ none →
      ∃ t, exec (.coldBoot b) s = .next t ∧ t.boot.phase = 6 ∧ t.keySlots = [] ∧ t.keys.slotKeys = [] ∧ t.d2d = [] ∧ t.halt = none ∧ t.mem = s.mem)) ∧
  (∀ (s : State), s.halt = none →
    (s.boot.phase = 4 → ∃ t, exec (.bootReady []) s = .next t ∧ t.boot.phase = 5 ∧ t.boot.ready = true ∧ t.mem = s.mem ∧
      ∀ r, r < 16 → s.regionUsable r = true → (s.region r).ue.state ≠ 4 → (t.region r).ue.enable = true) ∧
    (s.boot.ready = false → s.boot.phase ≠ 6 → ∃ t, exec .bootTimeout s = .next t ∧ t.boot.phase = 6 ∧ t.boot.lastCode = 0x010C ∧ t.keySlots = []) ∧
    (s.boot.ready = true → exec .bootTimeout s = .next s))

/-- A sealed record at HEAD that passes R438 is deciphered under its pair's key (R437) and written, its pair's sequence number rises by one and HEAD moves past it;
one whose tag is not that of its header and ciphertext is dropped with 0x220C; a wrap marker takes HEAD to 0; anything else stops the ring with 0x0203 (R438,
R439, R665).

A restore record at HEAD that passes R674 is written into the pages of a buddy image and taken; one that does not is discarded with 0x020B.

The oldest waiting export goes to the egress ring at TAIL, with its header, its payload and tag, and its operation is answered (R667, R668); one that has
waited LIFE_MS ends FAILED_TIMEOUT with 0x0205 (R669).

Commands that complete: ingestRecord, restoreRecord, egressPost, egrFull. -/
def Obligations.HostRecords : Prop :=
  (∀ (s : State) (i : Fin 8) (header payload tag : List (BitVec 8)), s.halt = none → s.ringOpen i = true →
    let h := recHeader header
    (h.magic = magicWrap → exec (.ingestRecord i header payload tag) s = .next (s.setRing i { s.ingRing i with head := 0 }).drainEngine) ∧
    (h.magic ≠ magicWrap → h.magic ≠ magicSealed → h.magic ≠ magicRestore → exec (.ingestRecord i header payload tag) s =
      .next ((s.setRing i { s.ingRing i with stopped := true }).hostRaise 0x0203 i i).drainEngine) ∧
    ∀ (size : Nat) (c : Charter) (p : OwnerPair) (d : PartDecl), h.magic = magicSealed → s.recordAt i h = some size →
      let y := s.session i
      let iv := p.keyIn.drop 32 ++ leBytes 8 h.seq
      y.charter = some c → y.state = .keying ∨ y.state = .active → y.pairs = [p] → p.owner = h.owner → p.nextIn = h.seq → c.parts = [d] → d.number = h.part →
      d.owners.toNat.testBit h.owner = true → h.sess = leNat (c.sessionId.take 4) → h.dir = 0 → h.rule = 0 → 1 ≤ h.len → h.len ≤ 4194304 →
      s.recordLands h.part h.dest h.len = true → payload.length = h.len →
      (∀ u, gcmTag (p.keyIn.take 32) iv header payload = tag → s.engineWrite h.part h.dest (gcmText (p.keyIn.take 32) iv payload) = (u, some true) →
        exec (.ingestRecord i header payload tag) s =
          .next ((u.setSession i { y with pairs := [{ p with nextIn := p.nextIn + 1 }] }).advanceHead i size true).drainEngine) ∧
      (gcmTag (p.keyIn.take 32) iv header payload ≠ tag → exec (.ingestRecord i header payload tag) s =
        .next (((s.keysRaise 0x220C i h.owner).count (ctl 0x000C 0x10) 1).advanceHead i size false).drainEngine)) ∧
  (∀ (s : State) (i : Fin 8) (header payload : List (BitVec 8)) (size lead : Nat), s.halt = none → s.ringOpen i = true →
    let h := recHeader header
    h.magic = magicRestore → s.recordAt i h = some size → s.leadPart i = some lead → payload.length = h.len →
    (∀ u, s.restoreOk i lead h payload = true → (s.restoreMap lead h.dest h.len).restoreWrite lead h.dest payload = some u →
      exec (.restoreRecord i header payload) s = .next (u.advanceHead i size true).drainEngine) ∧
    (s.restoreOk i lead h payload = false →
      exec (.restoreRecord i header payload) s = .next ((s.hostRaise 0x020B i i).advanceHead i size false).drainEngine)) ∧
  (∀ (s : State) (x : Export) (h : RecHeader), s.calm → s.host.exports = [x] →
    let text := s.exportSeal x h
    let size := recSize x.data.length
    let tail := s.host.egrTail
    (s.exportHeader x = some h → (s.reg (ctl 2 0x208)).toNat.testBit 0 = true → s.host.ideSecure = true → tail + size ≤ s.egrSize → s.egrUsed + size < s.egrSize →
      ∃ t, exec .egressPost s = .next t ∧ t.host.exports = [] ∧ t.host.egrTail = (tail + size) % s.egrSize ∧
        t.out = s.out ++ [.dma 64 tail h.seq (h.bytes ++ text ++ List.replicate (size - 32 - text.length) 0),
                          .dma 65 0 0 (leBytes 8 ((tail + size) % s.egrSize)), .msi 1] ∧ t.mem = s.mem) ∧
    ∀ (cr : BitVec 9) (slot : BitVec 6) (m : MoverOp), x.core = cr.toNat → x.slot = slot.toNat → (s.core cr.toNat).mover = [m] → m.slot = slot.toNat →
      ∃ t, exec (.egrFull cr slot) s = .next t ∧ t.host.exports = [] ∧ t.mem = s.mem ∧
        (t.core cr.toNat).mover.map (fun m => (m.slot, m.stage, m.status, m.code)) = [(slot.toNat, .done, 3, 0x0205)])

/-- Writes of HOST registers by the host over a Secure stream (R654, R661, R664, R665, R667): a doorbell moves TAIL, a ring reset takes HEAD and TAIL to 0, EGR_HEAD
moves within the records posted, WERR clears; without a Secure stream each is an unsupported request.

The host link (R655 to R658, R675, R770): a reset or a loopback follower takes the rings, the stream and its keys; a link that comes up reads its speed and
width; IDE_KM over a finished secure session of PCIe loads a key set, and GO puts it in use; an integrity failure ends the Secure stream.

Commands that complete: ingestDoorbell, ingestRingReset, egressHeadWrite, werrClear, pcieReset, pcieLoopbackFollower, pcieLinkUp, ideKm, ideIntegrity. -/
def Obligations.HostPort : Prop :=
  (∀ (s : State) (i : Fin 8) (v : BitVec 32), s.halt = none →
    (s.host.ideSecure = true →
      (s.boot.ready = true → (s.ingRing i).stopped = false → v.toNat % 64 = 0 → v.toNat < 2 ^ 25 →
        exec (.ingestDoorbell i .host v) s = .next (s.setReg (ctl 2 (0x104 + 0x20 * i)) v)) ∧
      (∃ t, exec (.ingestRingReset i .host) s = .next t ∧ t.ingRing i = { s.ingRing i with head := 0, stopped := false, since := 0 } ∧
        t.reg (ctl 2 (0x104 + 0x20 * i)) = 0 ∧ t.mem = s.mem) ∧
      (v.toNat % 64 = 0 → v.toNat < s.egrSize → s.egrSize ≤ 2 ^ 30 → (v.toNat + s.egrSize - s.egrHead) % s.egrSize ≤ s.egrUsed →
        exec (.egressHeadWrite .host v) s = .next (s.setReg (ctl 2 0x20C) v)) ∧
      exec (.werrClear .host) s = .next { s with werr := none }) ∧
    (s.host.ideSecure = false → exec (.ingestDoorbell i .host v) s = .next ((s.count (ctl 0x48 0x10) 1).raise 2 0x0204 (ctl 2 (0x104 + 0x20 * i)) 0 0))) ∧
  (∀ (s : State), s.halt = none →
    let down := fun (t : State) => t.host = { s.host with rings := [], egrTail := 0, ideSecure := false, keyset := false, speed := 0, width := 0, flit := false } ∧
      t.werr = none ∧ t.mem = s.mem ∧ (∀ r, r < 65536 → t.reg (ctl 2 r) = plainReset (ctl 2 r)) ∧
      (Sparse.get 0 t.keySlots 58).toNat.testBit 0 = false ∧ (Sparse.get 0 t.keySlots 58).toNat.testBit 1 = false
    (∃ t, exec .pcieReset s = .next t ∧ down t) ∧ (∃ t, exec .pcieLoopbackFollower s = .next t ∧ down t) ∧
    (∀ speed width flit, hasBit s.pwr.running 25 = true → (s.pin 2).active = false → s.test.opened = false → s.test.bscan = false →
      1 ≤ speed → speed ≤ 6 → width ∈ [4, 8, 16] → exec (.pcieLinkUp speed width flit) s = .next { s with host := { s.host with speed := speed, width := width, flit := flit } }) ∧
    (∀ sec set, s.keys.secure = [⟨sec, 1, true⟩] → s.host.speed ≠ 0 → s.keys.storeFlipped = [] → s.keys.flipped = [] →
      (∃ t, exec (.ideKm sec set false) s = .next t ∧ (Sparse.get 0 t.keySlots 58).toNat.testBit (b2n set) = true ∧ t.host = s.host) ∧
      ((Sparse.get (0 : BitVec 64) s.keySlots 58).toNat.testBit (b2n set) = true →
        exec (.ideKm sec set true) s = .next { s with host := { s.host with ideSecure := true, keyset := set } })) ∧
    (s.host.ideSecure = true → ∃ t, exec .ideIntegrity s = .next t ∧ t.host = { s.host with ideSecure := false } ∧ t.mem = s.mem ∧ t.keys = s.keys))

/-- A landed SUBMIT whose work graph passes R344, R345, R443, R501, R578 and R602, with room for its pages: the partition holds the work graph, and with a variant
that fits its first step begins (R342, R347 to R353), without one it is held for restore (R348). Outside an ACTIVE session the slot is refused with 0x2209.

WITHDRAW completes at once where no work graph is held and otherwise waits for the end of the step; it takes effect when every stream has ended and every
core is idle: the work graph and the partition's Brim nodes are gone (R343).

Commands that complete: submit, withdraw, withdrawTakeEffect. -/
def Obligations.WorkGraphs : Prop :=
  (∀ (s t : State) (part : BitVec 5) (rings : List (Nat × Nat × Nat)) (off : Nat) (bs : List (BitVec 8)), s.halt = none →
    let p := part.toNat
    s.crownSlot p = (t, some (off, bs)) → field_ bs 0 1 = 1 → (s.crownPart p).withdraw = none →
    let y := t.session (t.part p).session
    let quota := ((t.partDecl p).map PartDecl.quotaPages).getD 0
    (y.state ≠ .active → exec (.submit part rings) s = .next (t.crownRefuse p off 0x2209 bs).drainEngine) ∧
    ∀ (c : Charter) (u w : State) (b images : List (BitVec 8)), p ≠ 0 → (t.part p).state ≠ .free → y.state = .active → y.charter = some c → (t.crownPart p).wg = none →
      field_ bs 1 3 = 0 → field_ bs 24 24 = 0 → field_ bs 16 8 < 2 ^ 48 → 1 ≤ field_ bs 12 4 → field_ bs 12 4 ≤ 4096 →
      t.engineReads none p (State.pageParts (field_ bs 8 4 * pageSize) (field_ bs 12 4 * pageSize)) = .got u b → b.length = field_ bs 12 4 * pageSize →
      graphOk b p quota = true →
      let g := parseGraph b
      let digest := sha384 (b.take (field_ b 24 4))
      let runs := (g.variants.flatMap id).map State.imageRun
      u.setSize (u.part p).session p g ≤ 917504 → digest ∈ c.workgraphs → u.engineReads none p (runs.flatMap (fun x => State.pageParts x.1 x.2)) = .got w images →
      (∀ xs ∈ State.variantPlans g (State.cutRuns runs images), w.plansBad p g xs = false ∧ w.plansFit p (State.planIds p xs) = true) →
      exec (.submit part rings) s = .next (w.submitGo p off quota bs rings g digest).drainEngine) ∧
  (∀ (s : State) (p off quota : Nat) (bs digest : List (BitVec 8)) (rings : List (Nat × Nat × Nat)) (g : WorkGraph),
    let held := fun (v : Option (Nat × List (Nat × Nat) × Bool)) => ((s.releasePrev p g).mapGraph p quota (fun k => (v.bind (fun v => assocGet v.2.1 k)).getD k) g).good
    (∀ (v : Nat × List (Nat × Nat) × Bool) (u : State) (images : List (BitVec 8)), s.chooseVariant p g = some v → held (some v) = true →
      let placed := s.placeStreams p (g.variants.getD v.1 []) v.2.1
      (s.awake (placed.map (fun x => x.core / 32))).2 = true →
      s.engineReads none p ((placed.map (fun x => State.imageRun (State.streamAt (g.variants.getD v.1 []) x.stream))).flatMap (fun x => State.pageParts x.1 x.2)) = .got u images →
      let t := s.submitGo p off quota bs rings g digest
      t.crownPart p = { t.crownPart p with
        wg := some g, held := false, begun := true, step := field_ bs 16 8, variant := v.1, groups := v.2.1, placed := placed, prev := [], restarts := [], digest := digest,
        ringSeq := (u.crownPart p).ringSeq + 1 }) ∧
    (s.chooseVariant p g = none → held none = true →
      let t := s.submitGo p off quota bs rings g digest
      t.crownPart p = { t.crownPart p with
        wg := some g, held := true, begun := false, step := field_ bs 16 8, placed := [], prev := [], digest := digest, ringSeq := (s.crownPart p).ringSeq + 1 })) ∧
  (∀ (s : State) (part : BitVec 5), s.halt = none →
    let p := part.toNat
    let cp := s.crownPart p
    (∀ t off bs, s.crownSlot p = (t, some (off, bs)) → cp.withdraw = none →
      (field_ bs 0 1 ≠ 1 → field_ bs 0 1 ≠ 2 → exec (.withdraw part) s = .next (t.crownRefuse p off 0x0802 bs).drainEngine) ∧
      (field_ bs 0 1 = 2 → field_ bs 1 3 = 0 → field_ bs 24 24 = 0 →
        ((t.crownPart p).wg = none → exec (.withdraw part) s = .next (t.crownDone p off 0 bs).drainEngine) ∧
        ((t.crownPart p).wg ≠ none → exec (.withdraw part) s = .next ((t.crownConsume p).setCrownPart p
          { (t.crownConsume p).crownPart p with withdraw := some (off, field_ bs 48 8) }).drainEngine))) ∧
    ∀ off signal g, cp.withdraw = some (off, signal) → cp.wg = some g → (∀ x ∈ cp.placed, x.ended = true ∧ (s.core x.core).ctl.run = .idle) →
      (∀ j ∈ s.red.jobs, j.part ≠ p) →
      let u := (s.partCores p).foldl (fun s n => s.mapCore n Core.drain) s
      exec (.withdrawTakeEffect part) s = .next (State.drainEngine ((State.restCores
        (State.setCrownPart { u with brim := { u.brim with nodes := u.brim.nodes.filter (fun n => n.id.part ≠ p) } } p
          { CrownPart.none with ringSeq := cp.ringSeq, prev := g.tensors.map (fun x => (x.first, x.pages)) })
        (s.partCores p)).slotDone none p off 0 signal)))

/-- When every stream of a partition has reached END and nothing keeps it back, the next step begins under the variant that fits, or the work graph is held
with 0x0803 (R348, R350 to R352).

A restart loads the stream anew into its core, a re-placement into the spare core that R360 picks: the pc is 0, the core is enabled, its completion counters
are zero, and its parameter block names the slot to resume at and the step (R347, R360, R743).

Reports and escalations of cores (R738 to R745): a corrected residue mismatch below its threshold is only kept in the region's history; a second mismatch of
one instruction quarantines its core in the map of flash and reaches Crown; Crown restarts the slot of a core that failed where R359 lets it, and holds a
work graph whose stream faulted.

Commands that complete: crownStepBoundary, slotRestart, streamReplace, coreEscalation, crownEscalationReceive. -/
def Obligations.StepsAndRestarts : Prop :=
  (∀ (s : State) (part : BitVec 5) (g : WorkGraph), s.halt = none →
    let p := part.toNat
    let cp := s.crownPart p
    let step := (cp.step + 1) % 2 ^ 48
    cp.wg = some g → cp.held = false → cp.begun = true → cp.withdraw = none → (∀ x ∈ cp.placed, x.ended = true) → s.ckpt.atRest.toNat.testBit p = false →
    s.ckptKeeps p cp.step = false → (s.part p).state ≠ .ending →
    (∀ (v : Nat × List (Nat × Nat) × Bool) (u : State) (images : List (BitVec 8)), s.chooseVariant p g = some v →
      let placed := s.placeStreams p (g.variants.getD v.1 []) v.2.1
      (s.awake (placed.map (fun x => x.core / 32))).2 = true →
      s.engineReads none p ((placed.map (fun x => State.imageRun (State.streamAt (g.variants.getD v.1 []) x.stream))).flatMap (fun x => State.pageParts x.1 x.2)) = .got u images →
      ∃ t, exec (.crownStepBoundary part) s = .next (State.drainEngine t) ∧
        t.crownPart p = { t.crownPart p with wg := some g, held := false, begun := true, step := step, variant := v.1, groups := v.2.1, placed := placed, restarts := [] }) ∧
    (s.chooseVariant p g = none → ∃ t, exec (.crownStepBoundary part) s = .next (State.drainEngine t) ∧
      t.crownPart p = { t.crownPart p with wg := some g, held := true, step := step, placed := [] })) ∧
  (∀ (s u : State) (part : BitVec 5) (stream slot core : Nat) (g : WorkGraph) (d : StreamDecl) (image : List (BitVec 8)), s.halt = none →
    let p := part.toNat
    let cp := s.crownPart p
    cp.placed = [⟨stream, core, false⟩] → cp.wg = some g → s.streamDecl p stream = some d → (s.core core).mover = [] → (s.part p).state ≠ .ending →
    s.engineReads none p (State.pageParts (State.imageRun d).1 (State.imageRun d).2) = .got u image →
    let loaded := fun (t : State) n => (t.core n).ctl.pc = 0 ∧ (t.core n).ctl.enable = true ∧ (t.core n).cc = [] ∧ (t.core n).spec.part = BitVec.ofNat 5 p ∧
      (t.core n).readSqb 4 4 = leBytes 4 slot ∧ (t.core n).readSqb 8 8 = leBytes 8 cp.step
    (cp.restarts = [(stream, slot)] → (s.core core).ctl.run = .stopped → (s.core core).ctl.quar = false → (s.core core).ctl.enable = false →
      ∃ t, exec (.slotRestart part stream) s = .next (State.drainEngine t) ∧ loaded t core ∧ (t.crownPart p).restarts = []) ∧
    (∀ k, cp.replaces = [(stream, slot)] → s.ckpt.atRest.toNat.testBit p = false → s.spareCore core = some k → (s.regPwr (k / 32)).st = .active →
      (s.core k).ctl.enable = false →
      ∃ t, exec (.streamReplace part stream) s = .next (State.drainEngine t) ∧ loaded t k ∧ (t.crownPart p).replaces = [] ∧
        (t.crownPart p).placed = [⟨stream, k, false⟩])) ∧
  (∀ (s : State) (cr : BitVec 9), s.halt = none →
    let n := cr.toNat
    let c := s.core n
    let r := n / 32
    (c.ctl.escalated = [0x1001] → (s.region r).errHist = [] → 2 ≤ s.regField (ctl (regionBlock r) 0xA00) 7 0 →
      exec (.coreEscalation cr) s = .next (State.drainEngine ((s.setCore n { c with ctl := { c.ctl with escalated := [] } }).setRegion r
        { s.region r with errHist := [⟨n, 0x1001, c.ctl.errLine, s.clock.now⟩] }))) ∧
    (c.ctl.escalated = [0x1002] → c.ctl.quar = false → ∃ t, exec (.coreEscalation cr) s = .next (State.drainEngine t) ∧ (t.core n).ctl.quar = true ∧
      (t.core n).ctl.run = .quarantined ∧ (t.core n).ctl.enable = false ∧ (t.core n).mover = [] ∧ t.quarMap = s.quarMap ||| 1#512 <<< n ∧
      t.crown.escalations = s.crown.escalations ++ [(n, 0x1002, true)]) ∧
    ∀ (part : Nat) (x : Placed), s.streamOn n = some (part, x) →
      let cp := s.crownPart part
      (s.crown.escalations = [(n, 0x1007, false)] → ∃ t, exec .crownEscalationReceive s = .next (State.drainEngine t) ∧ t.crown.escalations = [] ∧
        t.crownPart part = { cp with held := true, restarts := [], replaces := [] }) ∧
      (s.crown.escalations = [(n, 0x1005, false)] → cp.held = false → (s.part part).state ≠ .ending → s.restartable part x.stream n = true →
        ∃ t, exec .crownEscalationReceive s = .next (State.drainEngine t) ∧ t.crown.escalations = [] ∧
          t.crownPart part = { cp with timeout := none, restarts := cp.restarts ++ [(x.stream, c.spec.slotno.toNat)] }))

/-- A scan starts the migration of a hot LOCAL page toward the region of its AFFINITY: source and a free page there are MIGRATING (R327, R354, R355). The copy
done, the destination holds the source's bytes and its place in the chain, and the source is scrubbed (R322, R327, R355).

Lending (R363 to R367): a chip short of pages asks its group peers; a peer asked offers what it can lend; a page's contents at the lender, the loan stands and
the page is scrubbed; a loan recalled is marked and a page taken for it, and the page back, the loan is gone. A stalled Crown halts the chip (R748).

Commands that complete: migrationScan, migrationCopyDone, borrow, crownFrame, loanCopyDone, recall, recallCopyDone, crownStall. -/
def Obligations.PagesMove : Prop :=
  (∀ (s : State) (p d : Nat), s.halt = none → p ≠ d →
    let r := s.mem.record p
    ((s.reg (ctl 8 0)).toNat.testBit 0 = true → s.crown.selected = [] → s.migrants = [p] → s.groupOf p = none → s.inPageSet r.part.toNat r.vpage.toNat = false →
      r.state.toNat = prtLocal → pageRegion p ≠ r.affinity.toNat → s.ckpt.atRest.toNat.testBit r.part.toNat = false → s.pinnedPage p = false →
      1 ≤ s.regionFree r.affinity.toNat → s.freePage r.affinity.toNat = some d → s.mem.retireQ = [] →
      ∃ t, exec .migrationScan s = .next (State.drainEngine t) ∧ (t.mem.record p).state.toNat = prtMigrating ∧ (t.mem.record d).state.toNat = prtMigrating ∧
        (t.mem.record d).valid = false ∧ t.crown.copies = s.crown.copies ++ [⟨p, d, .migrate⟩]) ∧
    (∀ (u v : State) (m : Memory), s.crown.copies = [⟨p, d, .migrate⟩] → r.state.toNat = prtMigrating →
      s.chainFull r.part.toNat r.vpage.toNat (pageHalf d) = false ∨ pageHalf d = pageHalf p →
      s.readWhole .ld p = (u, true) →
      let x := u.mem.record p
      u.enginePage d (u.newestKgen x.part.toNat) (u.mem.read p 0 pageSize) = (v, true) →
      let w := (v.tcDrop x.part.toNat x.vpage.toNat).onMem (fun m => m.unlink p)
      w.mem.link d (fun y => { y with
        part := x.part, vpage := x.vpage, state := BitVec.ofNat 3 r.becomes.toNat, dirty := x.dirty, heat := x.heat, affinity := x.affinity, becomes := 0 }) = some m →
      exec (.migrationCopyDone 0) s = .next (State.drainEngine (State.followGroups
        ((State.eraseFree { w with mem := m } p).onCrown (fun y => { y with copies := y.copies.erase ⟨p, d, .migrate⟩ }))))) ∧
    (∀ u : State, s.crown.copies = [⟨p, d, .migrate⟩] → r.state.toNat = prtMigrating → pageHalf d = pageHalf p → s.readWhole .ld p = (u, false) →
      exec (.migrationCopyDone 0) s = .next u.drainEngine)) ∧
  (∀ (s : State), s.halt = none →
    (s.mayBorrow = true → s.freePages < s.regField (ctl 8 0x18) 20 0 → exec .borrow s =
      .next (State.drainEngine (s.lendPeers.foldl (fun s q => s.lendSend q .ask) { s with crown := { s.crown with asks := s.lendPeers, noLender := false } }))) ∧
    (∀ f : RxFrame, s.arrives f 0x0D →
      let u := s.passed f 0x0D
      let pos := f.src.toNat % 8
      exec (.crownFrame f .ask) s = .next (State.drainEngine (State.lendSend
        { u with crown := { u.crown with granted := u.crown.granted.filter (fun g => g.1 ≠ pos) } } pos (.offer u.lendable)))) ∧
    (∀ p part vpage pos i, s.crown.copies = [⟨p, p, .lend part vpage pos i⟩] → s.net.eng.contains (s.groupChip pos, 60) = false →
      (s.mem.record p).state.toNat = prtMigrating → ∃ t, exec (.loanCopyDone 0) s = .next (State.drainEngine t) ∧ t.crown.copies = [] ∧
        t.crown.loans = s.crown.loans ++ [⟨part, vpage, pos, i, false, false, 0⟩] ∧ (t.mem.record p).valid = false ∧ (t.mem.record p).state.toNat = prtScrubbing) ∧
    (∀ (l : Loan) (d : Nat), s.crown.loans = [l] → s.nextRecall = some l → s.ckpt.atRest = 0 → (List.range 16).findSome? s.freePage = some d →
      ∃ t, exec .recall s = .next (State.drainEngine t) ∧ t.crown.loans = [{ l with recalling := true }] ∧
        t.crown.copies = s.crown.copies ++ [⟨d, d, .recall l.part l.vpage l.lender l.index⟩] ∧
        (t.mem.record d).state.toNat = prtMigrating ∧ t.mem.dram = s.mem.dram) ∧
    (∀ (l : Loan) (d : Nat) (f : EngFetch) (u : State) (m : Memory), s.crown.loans = [l] →
      s.crown.copies = [⟨d, d, .recall l.part l.vpage l.lender l.index⟩] → s.mem.fetched = [f] → f.part = l.part → f.vpage = l.vpage → f.lines = 256 →
      f.left = 0 → f.code = 0 → f.got.length = pageSize → s.chainFull l.part l.vpage (pageHalf d) = false →
      s.enginePage d (s.newestKgen l.part) f.got = (u, true) →
      u.mem.link d (fun x => { x with part := BitVec.ofNat 5 l.part, vpage := BitVec.ofNat 31 l.vpage, state := BitVec.ofNat 3 prtLocal, dirty := true,
                                      heat := 0, affinity := BitVec.ofNat 4 (pageRegion d), becomes := 0 }) = some m →
      ∃ t, exec (.recallCopyDone 0) s = .next (State.drainEngine t) ∧ t.crown.loans = [] ∧ t.crown.copies = []) ∧
    ∃ t, exec .crownStall s = .next (State.drainEngine t) ∧ t.halt = some (0x080A, 8) ∧ t.mem = s.mem)

/-- Training (R471 to R473, R478, R496): an enabled link starts; its phases follow; a wrong identity fails it with 0x3002; the first link of a path sends its
public key and makes the path's partition-0 keys from the peer's; a bad signature fails it with 0x3003; it comes up with the credits of R478 and its group peer
is no longer absent; three failed attempts fail it.

Retraining and LINKj.CTRL (R474, R475, R496): a fast retrain keeps the link's frames, and its end sends again what was not acknowledged; TRAIN trains in full;
ENABLE starts and stops the link; the host's writes are refused with 0x300D.

Commands that complete: linkTrainStart, linkTrainPhaseDone, linkTrainPhaseTimeout, fastRetrain, fastRetrainDone, linkRetrain, linkTrain, linkEnable. -/
def Obligations.LinkTraining : Prop :=
  (∀ (s : State) (j : Fin 36), s.halt = none →
    let l := s.link j
    let again := fun (n : Nat) =>
      { Link.reset with run := .training, attempts := n, loop := l.loop, txCtr := l.txCtr, rxCtr := l.rxCtr, railCtr := l.railCtr }
    (s.linkOn j = true → l.run = .off ∨ l.run = .down → exec (.linkTrainStart j) s = .next (s.setLink j (again l.attempts)).drainEngine) ∧
    (∀ (peer : BitVec 16) (far : BitVec 6) (pub : List (BitVec 8)), l.run = .training →
      (l.phase < 3 → exec (.linkTrainPhaseDone j peer far true pub) s = .next (s.setLink j { l with phase := l.phase + 1 }).drainEngine) ∧
      (l.phase = 3 → 28 ≤ j.val → peer = 0xFFFF →
        exec (.linkTrainPhaseDone j peer far true pub) s = .next (s.setLink j { l with peer := 0xFFFF, peerLink := 0, phase := 5 }).drainEngine) ∧
      (l.phase = 3 → j.val < 28 → s.identity j peer.toNat far.toNat = true → s.path peer.toNat 0 = none →
        let eph := (s.entropyBytes 48).1
        ∃ t, exec (.linkTrainPhaseDone j peer far true pub) s = .next (State.drainEngine t) ∧
          t.link j = { l with peer := peer.toNat, peerLink := far.toNat, phase := 4, run := .authenticating } ∧
          t.path peer.toNat 0 = some (State.freshPath peer.toNat 0 eph) ∧ t.out = s.out ++ [.linkAuth j (Config.ecPublic eph)]) ∧
      (l.phase = 3 → s.identity j peer.toNat far.toNat = false → ∃ t, exec (.linkTrainPhaseDone j peer far true pub) s = .next (State.drainEngine t) ∧
        (t.link j).run = .failed ∧ t.keySlots = s.keySlots) ∧
      (l.phase = 5 → ∃ t, exec (.linkTrainPhaseDone j peer far true pub) s = .next (State.drainEngine t) ∧
        t.link j = { l with run := .up, attempts := 0, credits := [128, 768, 768, 384] } ∧ (j.val < 28 → t.net.absent.toNat.testBit (l.peer % 8) = false))) ∧
    (∀ (peer : BitVec 16) (far : BitVec 6) (pub : List (BitVec 8)) (p : Path), l.run = .authenticating → l.phase = 4 → s.path l.peer 0 = some p → p.ready = false →
      (∃ t, exec (.linkTrainPhaseDone j peer far true pub) s = .next (State.drainEngine t) ∧ (t.link j).phase = 5 ∧ (t.link j).run = .training ∧
        t.path l.peer 0 = some (s.pathAgreed p pub) ∧ t.mem = s.mem) ∧
      exec (.linkTrainPhaseDone j peer far false pub) s = .next (State.drainEngine (s.linkFails j 0x3003))) ∧
    (l.run = .training ∨ l.run = .authenticating →
      (l.attempts + 1 < 3 → exec (.linkTrainPhaseTimeout j) s = .next (s.setLink j (again (l.attempts + 1))).drainEngine) ∧
      (3 ≤ l.attempts + 1 → ∃ t, exec (.linkTrainPhaseTimeout j) s = .next (State.drainEngine t) ∧
        t.link j = { l with run := .failed, attempts := l.attempts + 1 }))) ∧
  (∀ (s : State) (j : Fin 36), s.halt = none →
    let l := s.link j
    let waits := (s.setLink j { l with run := .fastRetrain, rxFseq := l.ackOut, held := [], rxLeft := l.ackLeft, rxLine := [] }).drainEngine
    (l.run = .up → exec (.fastRetrain j) s = .next waits ∧ exec (.linkRetrain j .crown) s = .next waits) ∧
    (l.run = .fastRetrain → ∃ t, exec (.fastRetrainDone j true) s = .next (State.drainEngine t) ∧ t.link j = { l with run := .up } ∧
      t.out = s.out ++ l.unacked.map (fun f => Out.frame j f)) ∧
    (s.linkOn j = true → ∃ t, exec (.linkTrain j .crown) s = .next (State.drainEngine t) ∧ (t.link j).run = .training ∧ (t.link j).attempts = 0) ∧
    (l.loop.mode = 0 → exec (.linkEnable j .crown true) s = .next (s.setReg (ctl (0x20 + j.val) 0) 1).drainEngine) ∧
    (l.loop.mode = 0 → l.run = .up → ∃ t, exec (.linkEnable j .crown false) s = .next (State.drainEngine t) ∧ (t.link j).run = .off ∧
      t.reg (ctl (0x20 + j.val) 0) = 0) ∧
    let refused := (s.refuse .host (ctl (0x20 + j.val) 0) 0x300D).drainEngine
    exec (.linkRetrain j .host) s = .next refused ∧ exec (.linkTrain j .host) s = .next refused ∧ exec (.linkEnable j .host true) s = .next refused)

/-- A link that is lost goes down with 0x300A; with another link of its path usable nothing else changes, and a frame of its queue moves to the front of that
link's queue (R485, R488).

Absence (R488, R489): a HALT frame from a group peer, or a path whose links all wait out a fast retrain too long, declares the peer absent; a rail that cannot
reach a chip is noted.

Commands that complete: linkSilence, carrierLost, lockLost, haltFrame, retrainTimeout, unreachable. -/
def Obligations.LinkLossAndAbsence : Prop :=
  (∀ (s : State) (j : Fin 36), s.halt = none →
    let l := s.link j
    l.run = .up → l.unacked = [] → (28 ≤ j.val ∨ ∃ k ∈ s.linksTo l.peer, k ≠ j.val ∧ s.linkUsable k = true) →
    (l.queue = [] →
      let gone := ((s.raise (0x20 + j.val) 0x300A j l.peer 0).setLink j { l with run := .down }).drainEngine
      exec (.linkSilence j false) s = .next gone ∧ exec (.carrierLost j) s = .next gone ∧ exec (.lockLost j) s = .next gone) ∧
    ∀ f k, l.queue = [f] → State.linkOwn f = false → s.otherLink j f.dst = some k →
      ∃ t, (t.link j).run = .down ∧ (t.link j).queue = [] ∧ (t.link k).queue = f :: (s.link k).queue ∧ t.mem = s.mem ∧
        exec (.linkSilence j false) s = .next (State.drainEngine t) ∧ exec (.carrierLost j) s = .next (State.drainEngine t) ∧
        exec (.lockLost j) s = .next (State.drainEngine t)) ∧
  (∀ (s : State), s.halt = none →
    (∀ f : RxFrame, s.arrives f 2 →
      (f.link.val < 28 → ∃ t, exec (.haltFrame f) s = .next (State.drainEngine t) ∧ t.chipAbsent (s.link f.link).peer = true) ∧
      (28 ≤ f.link.val → exec (.haltFrame f) s =
        .next (State.drainEngine ((s.passed f 2).raise (0x20 + f.link.val) 0x300B f.link ((s.passed f 2).link f.link).peer 0)))) ∧
    (∀ pos : Fin 8, pos.val ≠ s.chip % 8 → (∃ j ∈ s.linksTo (s.groupChip pos), (s.link j).run = .fastRetrain) → (∀ j ∈ s.linksTo (s.groupChip pos), (s.link j).run ≠ .up) →
      ∃ t, exec (.retrainTimeout pos) s = .next (State.drainEngine t) ∧ t.chipAbsent (s.groupChip pos) = true) ∧
    (∀ (f : RxFrame) (chip : BitVec 13) (r : Nat), s.arrives f 0x0B → 28 ≤ f.link.val → s.inGroup chip.toNat = false → (chip.toNat, f.link.val - 28) ∉ s.net.far →
      r < 8 → (chip.toNat, r) ∉ s.net.far → r ≠ f.link.val - 28 →
      ∃ t, exec (.unreachable f chip) s = .next (State.drainEngine t) ∧ t.net.far = s.net.far ++ [(chip.toNat, f.link.val - 28)] ∧ t.mem = s.mem))

/-- A frame leaves (R475, R477 to R479, R483): the class with credits and the lowest number, sealed under the path's key generation and the link's next counter; it
stays in the replay buffer. The floor names a class; a NAK sends the replay buffer again; heartbeats join the queue of every link that is up.

Flits and frames that arrive (R445, R475, R476, R478, R480, R483, R484): codeword periods fill the line until a flit slot is whole; a flit in sequence is
acknowledged once its frames have passed and one that fails its CRC is asked for again; a frame is checked for its FID, its key, its counter and its tag in that
order, and one that passes returns its credits.

Commands that complete: frameSend, classFloor, linkNak, heartbeatSend, flitReceive, heartbeat. -/
def Obligations.FramesOnLinks : Prop :=
  (∀ (s : State) (j : Fin 36), s.halt = none →
    let l := s.link j
    l.run = .up →
    (∀ (fseq : BitVec 12) (f : Frame) (p : Path), (fseq.toNat + 4096 - l.fseq) % 4096 < 2048 → (fseq.toNat + 4096 - l.ackFseq) % 4096 ≤ 2048 → l.floorNext = none →
      l.queue = [f] → unkeyed j f.type = false → f.cls < 4 → f.len + 1 ≤ l.credits.getD f.cls 0 → s.path f.dst f.part = some p → p.ready = true →
      s.slotLoaded (22 + j.val) f.part (s.kgenNow f) = true → s.keys.flipped = [] →
      let g := s.sealed j { (s.stampTime { f with floored := false }).2 with
        kgen := s.kgenNow f, ctr := l.txCtr, fseq := fseq.toNat, time := s.clock.now % 2 ^ 32 }
      ∃ t, exec (.frameSend j fseq) s = .next (State.drainEngine t) ∧ t.out = s.out ++ [.frame j g] ∧
        t.link j = { l with queue := [], unacked := l.unacked ++ [g], fseq := (fseq.toNat + 1) % 4096, txCtr := (l.txCtr + 1) % 2 ^ 64,
                            credits := l.credits.zipIdx.map (fun c => if c.2 = f.cls then c.1 - (f.len + 1) else c.1) }) ∧
    (∀ c : Fin 4, (s.reg (ctl 0x000E 4)).toNat % 2 ^ 16 ≠ 0 → l.queue.any (fun f => f.cls = c.val) = true →
      exec (.classFloor j c) s = .next (s.setLink j { l with floorNext := some c.val }).drainEngine) ∧
    (∀ ack : BitVec 12, l.replays < 7 → ∃ t, exec (.linkNak j ack) s = .next (State.drainEngine t) ∧ (t.link j).run = .up ∧
      t.out = s.out ++ (l.unacked.filter (fun f => !flitBefore ack.toNat f.fseq)).map (fun f => Out.frame j f)) ∧
    ∃ t, exec .heartbeatSend s = .next (State.drainEngine t) ∧ ∀ k, k < 36 → t.link k = if (s.link k).run = .up then
      { s.link k with queue := (s.link k).queue ++ [⟨1, 0, false, 0, (s.link k).peer, 0, [], false, 0, 0, 0, []⟩] } else s.link k) ∧
  (∀ (s : State) (j : Fin 36) (periods : List (List (List (BitVec 10)))), s.halt = none → (s.link j).run = .up →
    let u := periods.foldl (fun s w => s.pcsPeriod j w) s
    let line := (u.link j).rxLine
    (line.length < 272 → exec (.flitReceive j periods) s = .next u.drainEngine) ∧
    (272 ≤ line.length → exec (.flitReceive j periods) s =
      .next (State.drainEngine (State.takeFlit (u.setLink j { u.link j with rxLine := line.drop 272 }) j (line.take 272))))) ∧
  (∀ (s : State) (j : Nat) (slot : List (BitVec 8 × Bool)),
    let l := s.link j
    let bytes := slot.map Prod.fst
    let w := leNat (bytes.take 16)
    let seq := (l.rxFseq + 1) % 4096
    (slot.any Prod.snd = true ∨ bitsNat w 127 96 ≠ crc32 (bytes.take 12 ++ bytes.drop 16) →
      (s.takeFlit j slot).link j = l ∧ (s.takeFlit j slot).out = s.out ++ [.control j true 4 l.rxFseq]) ∧
    ∀ e, slot.any Prod.snd = false → bitsNat w 127 96 = crc32 (bytes.take 12 ++ bytes.drop 16) → bitsNat w 29 25 < 16 → bitsNat w 11 0 = seq → l.held = [] →
      State.flitFrames (bytes.drop 16) 16 l.rxLeft (if 0 < l.rxLeft ∧ l.rxLeft ≤ 16 then 1 else 0) = some e →
      ((s.takeFlit j slot).link j).rxFseq = seq ∧ ((s.takeFlit j slot).link j).rxLeft = e.2 ∧
      (e.1 = 0 → ((s.takeFlit j slot).link j).ackOut = seq ∧ (s.takeFlit j slot).out = s.out ++ [.control j false 4 seq]) ∧
      (e.1 ≠ 0 → ((s.takeFlit j slot).link j).held = [(seq, e.1, e.2)] ∧ (s.takeFlit j slot).out = s.out)) ∧
  (∀ (s : State) (f : RxFrame), s.halt = none → (s.link f.link).run = .up →
    (s.fidOk f = false → exec (.putLines f) s =
      .next (State.drainEngine ((s.count (ctl 0x000C 0xC) 1).raise 0x000C 0x220F (s.part f.part.toNat).session 0 (s.part f.part.toNat).gen))) ∧
    (s.fidOk f = true → s.rxKey f = false → exec (.putLines f) s =
      .next (State.drainEngine ((s.count (ctl (0x20 + f.link.val) 0x24) 1).linkRaise f.link 0x3010 f.ctr.toNat))) ∧
    (s.fidOk f = true → s.rxKey f = true → s.keys.flipped = [] → f.again = false → s.ctrOk f = false → ∃ t, exec (.putLines f) s = .next (State.drainEngine t) ∧
      (t.link f.link).run = .fastRetrain ∧ t.mem = s.mem) ∧
    (s.fidOk f = true → s.rxKey f = true → s.keys.flipped = [] → f.again = false → s.ctrOk f = true → s.frameTagOk f 0x10 = false →
      ∃ t, exec (.putLines f) s = .next (State.drainEngine t) ∧ (t.link f.link).run = .fastRetrain ∧ t.mem = s.mem) ∧
    (s.arrives f 1 → exec (.heartbeat f) s = .next (s.passed f 1).drainEngine) ∧
    (f.link.val < 28 → (s.link f.link).held = [] → ∀ type, unkeyed f.link type = false →
      ((s.passed f type).link f.link).rxCtr = (f.ctr.toNat + 1) % 2 ^ 64 ∧
      (s.passed f type).out = s.out ++ [.control f.link false f.cls.toNat (f.payload.length / 256 + 1)]))

/-- Rekey of a path (R481, R487): past 2^40 frames it is offered; an offer and an acceptance derive the keys of the next generation, the older staying live; once
both sides are done the older is gone; a group path that cannot rekey trains anew, a far one leaves the store.

Paths (R473, R482, R486): a PATH_SETUP that agrees with this chip's Charter makes the path and is answered; the answer makes it ready; one that does not agree
raises 0x3003; CONFIRM lets a later link of a path go on; where the store has no room the frames that wait for it end.

Commands that complete: rekeyLimit, rekeyOffer, rekeyAccept, rekeyDone, rekeyTimeout, pathSetup, pathReply, confirmFrame, pathStoreFull. -/
def Obligations.PathKeys : Prop :=
  (∀ (s : State), s.halt = none →
    (∀ (peer : BitVec 13) (part : BitVec 5) (p : Path), s.path peer.toNat part.toNat = some p → p.ready = true → p.rekey = .none → 2 ^ 40 ≤ p.tx.1 →
      ∃ t, exec (.rekeyLimit peer part) s = .next (State.drainEngine t) ∧
        t.path peer.toNat part.toNat = some { p with rekey := .offered, eph := (s.entropyBytes 48).1 }) ∧
    (∀ (f : RxFrame) (p : Path) (pub : List (BitVec 8)),
      let src := f.src.toNat
      let part := f.part.toNat
      let agreed := fun (u t : State) (r : Rekey) (eph : List (BitVec 8)) => ∃ q, t.path src part = some q ∧ q.gen = p.gen + 1 ∧ q.older = true ∧ q.rekey = r ∧
        q.oldKeys = p.keys ∧ q.keys = u.agreedKeys src part (p.gen + 1) eph pub
      (s.arrives f 6 → (s.passed f 6).path src part = some p → p.rekey = .none → p.older = false →
        ∃ t, exec (.rekeyOffer f pub) s = .next (State.drainEngine t) ∧ agreed (s.passed f 6) t .answered ((s.passed f 6).entropyBytes 48).1) ∧
      (s.arrives f 7 → (s.passed f 7).path src part = some p → p.rekey = .offered →
        ∃ t, exec (.rekeyAccept f pub) s = .next (State.drainEngine t) ∧ agreed (s.passed f 7) t .switched p.eph) ∧
      (s.arrives f 8 → (s.passed f 8).path src part = some p → p.older = true → p.doneSent = true →
        ∃ t, exec (.rekeyDone f) s = .next (State.drainEngine t) ∧
          t.path src part = some { p with older := false, oldKeys := [], rekey := .none, doneSent := false, doneGot := false })) ∧
    ∀ (peer : BitVec 13) (part : BitVec 5) (p : Path), s.path peer.toNat part.toNat = some p → p.rekey ≠ .none →
      (s.inGroup peer.toNat = true → ∃ t, exec (.rekeyTimeout peer part) s = .next (State.drainEngine t) ∧ t.path peer.toNat part.toNat = none ∧
        ∀ j ∈ s.linksTo peer.toNat, s.linkUsable j = true → (t.link j).run = .training) ∧
      (s.inGroup peer.toNat = false → exec (.rekeyTimeout peer part) s = .next (State.drainEngine
        ((s.linkRaise 28 0x3007 0).dropPaths (fun p => p.peer = peer.toNat && p.part = part.toNat) peer.toNat)))) ∧
  (∀ (s : State), s.halt = none →
    (∀ (f : RxFrame) (fid : BitVec 32) (digest device pub : List (BitVec 8)), let u := s.passed f 9
      s.arrives f 9 →
      (∀ p, u.pathAgrees f.src.toNat fid digest device true = some p → u.inGroup f.src.toNat = true ∨ u.farPaths < 2048 →
        u.path f.src.toNat p = none ∨ f.src.toNat < s.chip →
        ∃ t, exec (.pathSetup f fid digest device true pub) s = .next (State.drainEngine t) ∧
          t.path f.src.toNat p = some (u.pathAgreed (State.freshPath f.src.toNat p (u.entropyBytes 48).1) pub) ∧
          (t.link f.link).queue.length = (u.link f.link).queue.length + 1 ∧ t.mem = s.mem) ∧
      (u.pathAgrees f.src.toNat fid digest device true = none →
        exec (.pathSetup f fid digest device true pub) s = .next (State.drainEngine (u.linkRaise f.link 0x3003 f.ctr.toNat)))) ∧
    (∀ (f : RxFrame) (fid : BitVec 32) (digest device pub : List (BitVec 8)) (p : Nat) (x : Path), let u := s.passed f 0x0A
      s.arrives f 0x0A → u.pathAgrees f.src.toNat fid digest device true = some p → u.path f.src.toNat p = some x →
      ∃ t, exec (.pathReply f fid digest device true pub) s = .next (State.drainEngine t) ∧
        t.path f.src.toNat p = some (if x.ready then x else u.pathAgreed x pub) ∧ t.mem = s.mem) ∧
    (∀ (f : RxFrame) (p : Path), let l := s.link f.link
      l.run = .authenticating → s.path l.peer 0 = some p → p.ready = true →
      (s.frameTagOk f 0x0C = true → exec (.confirmFrame f) s =
        .next (s.setLink f.link { l with phase := 5, run := .training, rxCtr := f.ctr.toNat + 1 }).drainEngine) ∧
      (s.frameTagOk f 0x0C = false → exec (.confirmFrame f) s = .next (State.drainEngine (s.linkFails f.link 0x3003)))) ∧
    ∀ (chip : BitVec 13) (part : BitVec 5) (j : Nat) (l : Link) (f : Frame), s.net.links = [(j, l)] → l.queue = [f] → f.dst = chip.toNat → f.part = part.toNat →
      part ≠ 0 → s.inGroup chip.toNat = false → s.path chip.toNat part.toNat = none → (s.pathRoom chip.toNat).isNone = true →
      ∃ t, exec (.pathStoreFull chip part) s = .next (State.drainEngine t) ∧ (t.link j).queue = [] ∧ t.mem = s.mem)

/-- Fabric time (R491 to R493, R728 to R730): a request leaves for the peer and is answered with t2; the answer's offset steps the clock before the first Charter and
slews it afterwards; a pulse of SYNC_PPS sets it to its second; no source left, LOCKED falls with 0x300C.

Commands that complete: timeReqSend, timeReq, timeRsp, timeUnlocked, syncPps. -/
def Obligations.FabricTime : Prop :=
  ∀ (s : State), s.halt = none →
    (∀ (pos : Fin 8) (j : Nat), s.clock.source ≠ 1 → pos.val ≠ s.chip % 8 → s.chooseLink (s.groupChip pos) 0 = some j →
      exec (.timeReqSend pos) s = .next (s.queueOn j 4 0 0 (s.groupChip pos) 0 []).drainEngine) ∧
    (∀ f : RxFrame, s.arrives f 4 → let u := s.passed f 4
      exec (.timeReq f) s = .next (u.queueOn f.link 5 0 0 f.src.toNat (BitVec.ofNat 64 u.clock.now) (leBytes 8 0)).drainEngine) ∧
    (∀ (f : RxFrame) (t1 : Nat), s.arrives f 5 → let u := s.passed f 5
      u.clock.t1 = some t1 →
      let off : Int := (((f.opw.toNat : Int) - t1) - ((u.clock.now : Int) - (leNat ((s.plain f 5).payload.take 8) : Int))) / 2
      let c := { u.clock with t1 := none, source := 2, peer := f.src.toNat % 8, offset := off, locked := decide (off.natAbs ≤ 20) }
      (u.clock.slewOnly = true → exec (.timeRsp f) s = .next (State.drainEngine { u with clock := { c with slew := off } })) ∧
      (u.clock.slewOnly = false → exec (.timeRsp f) s =
        .next (State.drainEngine { u with clock := { c with now := (Int.toNat (u.clock.now + off)) % 2 ^ 64, slew := 0 } }))) ∧
    (∃ t, exec (.timeUnlocked true) s = .next (State.drainEngine t) ∧ t.clock = { s.clock with source := 0, peer := 0, locked := false } ∧ t.mem = s.mem) ∧
    (∀ sec, s.mgmt.ppsSecond = some sec → (s.reg (ctl 0x000E 0x10)).toNat.testBit 0 = true → (s.pin 3).active = false → (s.pin 3).stuck = false →
      (s.pin 3).accepted = none → s.clock.slewOnly = false → sec * 1000000000 < 2 ^ 64 →
      ∃ t, exec (.syncPps true) s = .next (State.drainEngine t) ∧ t.clock.now = sec * 1000000000 ∧ t.clock.source = 1 ∧ (t.pin 3).active = true ∧
        t.mgmt.ppsSecond = none) ∧
    exec (.syncPps false) s = .next (s.setPin 3 { s.pin 3 with active := false, released := some s.clock.now }).drainEngine

/-- Writes of other chips (R503, R504, R525, R526): lines of a page that is served are written and acknowledged; a partial write whose line is held is applied
and acknowledged, an atomic answered with the old value; one whose line is not held waits for it.

Reads of other chips and replies (R502, R505, R515, R525 to R527): the lines of a page that is served go back, where their checks hold; a reply brings the bytes
of a GET or the old value of an atomic into the square buffer of its operation, which is then done; a frame of teardown fences the session of its partition
(R451, R453).

Commands that complete: putLines, putBytes, signalFrame, atomicReq, getReq, ack, getData, atomicRsp, teardownFrame. -/
def Obligations.RemoteOperations : Prop :=
  (∀ (s : State) (f : RxFrame), s.halt = none →
    let src := f.src.toNat
    let part := f.part.toNat
    (s.arrives f 0x10 → f.cls ≠ 3 → let u := s.passed f 0x10
      let w := linesOp f.opw
      let bytes := (s.plain f 0x10).payload.take (64 * w.lines)
      u.peerWaits src w.core w.slot w.relax = false →
      ∀ a p b, u.access (.peer src) part (w.off / pageSize) true = (a, .served p) → a.lineWrite p (w.off % pageSize) bytes = some b →
        b.mem.dram = (a.mem.write p (w.off % pageSize) bytes).dram ∧
        exec (.putLines f) s = .next (State.drainEngine (((b.heat (.peer src) p w.lines).noteData src w.core w.slot w.off (64 * w.lines) false).queueOn f.link 0x17 part 0 src
          (replyOpw w.core w.slot 0 0) []))) ∧
    (let w := offOp f.opw
      let reply := replyOpw w.core w.slot 0 0
      let at_ := w.off % pageSize
      (s.arrives f 0x11 → let u := s.passed f 0x11
        let payload := (s.plain f 0x11).payload
        let op := PartialOp.bytes (payload.take ((payload[63]?).getD 0).toNat)
        let noted := fun (p : Nat) (z : State) => (z.heat (.peer src) p 1).noteData src w.core w.slot w.off (State.partialLen op) false
        u.peerWaits src w.core w.slot w.relax = false → ∀ a p b, u.access (.peer src) part (w.off / pageSize) true = (a, .served p) →
          (a.partialWrite (.peer part src w.core w.slot f.link) p at_ op = (b, .pending) → exec (.putBytes f) s = .next (State.drainEngine (noted p b))) ∧
          (a.partialWrite (.peer part src w.core w.slot f.link) p at_ op = (b, .landed none) →
            exec (.putBytes f) s = .next (State.drainEngine (((noted p b).brimSees p at_ op 0).queueOn f.link 0x17 part 0 src reply [])))) ∧
      (s.arrives f 0x12 → let u := s.passed f 0x12
        u.peerWaits src w.core w.slot w.relax = false → u.dataFailed src w.core w.slot = false →
        ∀ a p b, u.access (.peer src) part (w.off / pageSize) true = (a, .served p) →
          (a.partialWrite (.signal part src w.core w.slot f.link) p at_ (.add64 1) = (b, .pending) →
            exec (.signalFrame f) s = .next (b.heat (.peer src) p 1).drainEngine) ∧
          ∀ old, a.partialWrite (.signal part src w.core w.slot f.link) p at_ (.add64 1) = (b, .landed (some old)) →
            exec (.signalFrame f) s =
              .next (State.drainEngine (((b.heat (.peer src) p 1).brimSees p at_ (.add64 1) (leNat old)).queueOn f.link 0x17 part 0 src reply []))) ∧
      (s.arrives f 0x15 → let u := s.passed f 0x15
        let payload := (s.plain f 0x15).payload
        let x := BitVec.ofNat 64 (leNat (payload.take 8))
        let op : PartialOp := match w.kind with
          | 0 => .add64 x
          | 1 => .add32 (x.setWidth 32)
          | _ => .cas x (BitVec.ofNat 64 (leNat ((payload.drop 8).take 8)))
        u.peerWaits src w.core w.slot w.relax = false → ∀ a p b, u.access (.peer src) part (w.off / pageSize) true = (a, .served p) →
          (a.partialWrite (.peer part src w.core w.slot f.link) p at_ op = (b, .pending) → exec (.atomicReq f) s = .next (b.heat (.peer src) p 1).drainEngine) ∧
          ∀ old, a.partialWrite (.peer part src w.core w.slot f.link) p at_ op = (b, .landed (some old)) →
            exec (.atomicReq f) s = .next (State.drainEngine (((b.heat (.peer src) p 1).brimSees p at_ op (leNat old)).queueOn f.link 0x16 part 0 src reply old))))) ∧
  (∀ (s : State) (f : RxFrame), s.halt = none →
    let src := f.src.toNat
    (s.arrives f 0x13 → let u := s.passed f 0x13
      let w := linesOp f.opw
      u.peerWaits src w.core w.slot w.relax = false → ∀ a p ev z, u.access (.peer src) f.part.toNat (w.off / pageSize) false = (a, .served p) →
        (a.memRead (.peer src) p (w.off % pageSize / 64) w.lines ev = (z, true) → exec (.getReq f ev) s =
          .next (State.drainEngine ((z.heat (.peer src) p w.lines).queueOn f.link 0x14 f.part.toNat 2 src (replyOpw w.core w.slot 0 0)
            (z.mem.read p (w.off % pageSize) (64 * w.lines))))) ∧
        (a.memRead (.peer src) p (w.off % pageSize / 64) w.lines ev = (z, false) →
          exec (.getReq f ev) s = .next (State.drainEngine (s.memRead (.peer src) p (w.off % pageSize / 64) w.lines ev).1))) ∧
    (∀ (m : MoverOp) (n slot : Nat), n < 511 → slot < 64 → f.opw = replyOpw n slot 0 0 →
      let waits := fun (u : State) (op : Nat) (r : MoverReq) =>
        u.net.relays = [] ∧ u.brim.atomics = [] ∧ (u.core n).mover = [m] ∧ m.slot = slot ∧ m.op = op ∧ m.progress = m.len ∧ m.owed = 0 ∧ m.signalOwed = false ∧ m.status = 0 ∧
        m.reqs = [r] ∧ r.chip = src ∧ r.rel + r.len ≤ m.len ∧ m.al.toNat + m.len ≤ 0x100000
      let ended := fun (u t : State) =>
        (t.core n).mover.map (fun x => (x.slot, x.stage, x.status, x.reqs)) = [(slot, .done, 0, [])] ∧ t.mem = u.mem
      (∀ r, s.arrives f 0x17 → waits (s.passed f 0x17) 0xC1 r →
        ∃ t, exec (.ack f) s = .next (State.drainEngine t) ∧ ended (s.passed f 0x17) t ∧ (t.core n).sqb = (s.core n).sqb) ∧
      (∀ r, s.arrives f 0x14 → waits (s.passed f 0x14) 0xC0 r →
        let bs := ((s.plain f 0x14).payload.drop (m.at_ r.rel % 64)).take r.len
        bs.length = r.len → ∃ t, exec (.getData f) s = .next (State.drainEngine t) ∧ ended (s.passed f 0x14) t ∧ (t.core n).readSqb (m.al.toNat + r.rel) r.len = bs) ∧
      (∀ r, s.arrives f 0x16 → waits (s.passed f 0x16) 0xC4 r →
        let bs := (s.plain f 0x16).payload.take m.len
        bs.length = m.len → ∃ t, exec (.atomicRsp f) s = .next (State.drainEngine t) ∧ ended (s.passed f 0x16) t ∧ (t.core n).readSqb m.al.toNat m.len = bs)) ∧
    (f.part ≠ 0 → s.arrives f 3 → ((s.session (s.part f.part.toNat).session).state = .active) → (s.part f.part.toNat).state ≠ .free →
      ∃ t, exec (.teardownFrame f) s = .next (State.drainEngine t) ∧ (t.session (s.part f.part.toNat).session).state = .ending ∧ t.keySlots = (s.passed f 3).keySlots))

/-- OPEN enters a job in the lowest free entry, CLOSE closes it or removes one that has failed, and a closing job with no bucket in flight is gone and its CLOSE
done (R538 to R541). A neighbour's RED_OPEN waits for this chip's own, or with the last digest that matches makes the job IDLE (R540).

Buckets (R546, R547, R564, R565): one that is full starts with RED_READY to the group predecessor; RED_READY from the fabric successor is kept for the bucket,
or until it starts; the lowest bucket with all its blocks final is freed, and DONE_FLAG rises.

A final block that the group predecessor sends is written in the result range and counted as final (R551, R562); RED_ABORT from a neighbour fails the job,
whose buckets are gone (R567).

Commands that complete: openJob, closeJob, redCloseDone, redOpen, bucketFull, bucketComplete, redReady, redData, redAbort. -/
def Obligations.Reductions : Prop :=
  (∀ (s : State) (part : BitVec 5), s.halt = none →
    let p := part.toNat
    (∀ (t : State) (off : Nat) (c : List (BitVec 8)), s.redSlot p = (t, some (off, c)) →
      let u := t.redConsume p
      let job := leNat ((c.drop 1).take 1)
      let signal := leNat ((c.drop 48).take 8)
      (leNat (c.take 1) = 1 → State.redOpenBad c = true →
        exec (.openJob part) s = .next (State.drainEngine ((u.raise 0x000D 0x320B 0 0 0).slotDone none p off 0x320B signal))) ∧
      (∀ r e, leNat (c.take 1) = 1 → State.redOpenBad c = false → u.redFlagBad p c = false → u.ringPos p job = some r → u.redJob p job = none →
        (List.range 32).find? (fun t => (u.redEntry t).isNone) = some e → u.red.early = [] →
        ∃ t', exec (.openJob part) s = .next (State.drainEngine t') ∧ t'.red.jobs = u.red.jobs ++ [⟨e, p, c, off, .opening, [], 0, [], 0, 0, [], [], [], none⟩] ∧ t'.mem = u.mem) ∧
      (∀ j, leNat (c.take 1) = 2 → leNat ((c.drop 2).take 2) = 0 → leNat ((c.drop 8).take 40) = 0 → u.redJob p job = some j →
        (j.run = .idle → exec (.closeJob part) s = .next (State.drainEngine (u.onJob j.entry (fun j => { j with
          run := .closing, cmd := j.cmd.take 48 ++ leBytes 8 signal ++ j.cmd.drop 56, closeOff := some off })))) ∧
        (j.run = .failed → exec (.closeJob part) s =
          .next (State.drainEngine ((u.onRed (fun q => { q with jobs := q.jobs.filter (fun x => x.entry ≠ j.entry) })).slotDone none p off 0 signal))))) ∧
    (∀ (e : Fin 32) (j : RedJob) (off : Nat), s.red.jobs = [j] → j.entry = e.val → j.closeOff = some off → j.flight = [] →
      exec (.redCloseDone e) s = .next (State.drainEngine (State.slotDone { s with red := { s.red with jobs := [] } } none j.part off 0 j.signal))) ∧
    ∀ (f : RxFrame) (r : RingPos), s.arrives f 0x20 → let u := s.passed f 0x20
      let job := bitsNat f.opw.toNat 7 0
      let digest := bitsNat f.opw.toNat 63 8
      f.src.toNat ∈ r.neighbours →
      ((∀ j, u.redJob f.part.toNat job = some j → j.run = .closing) → u.ringPos f.part.toNat job = some r →
        exec (.redOpen f) s = .next (State.drainEngine (u.onRed (fun q => { q with early := q.early ++ [⟨f.part.toNat, job, f.src.toNat, digest⟩] })))) ∧
      (∀ j, u.red.jobs = [j] → j.part = f.part.toNat → j.job = job → j.run = .opening → u.ringPos j.part job = some r → digest = State.redDigest j.cmd →
        (∀ c ∈ r.neighbours, c = f.src.toNat ∨ c ∈ j.matched) →
        exec (.redOpen f) s = .next (State.drainEngine ((u.onRed (fun q => { q with jobs := [{ j with matched := j.matched ++ [f.src.toNat], run := .idle }] })).slotDone none
          j.part j.slotOff 0 j.signal)))) ∧
  (∀ (s : State) (j : RedJob) (r : RingPos), s.halt = none → s.red.jobs = [j] → s.ringPos j.part j.job = some r →
    let gives := fun (x : RedJob) => ({ s with red := { s.red with jobs := [x] } } : State)
    (∀ e : Fin 32, j.entry = e.val →
      (let n := j.started
       j.run = .idle ∨ j.run = .active → s.ckpt.atRest.toNat.testBit j.part = false → n < j.buckets → j.landedOf n = 2 * j.bucketSize n → j.flight.length < j.inflight → j.early = [] →
        2 ≤ r.cols → exec (.bucketFull e) s = .next (State.drainEngine
          ((gives { j with run := .active, started := n + 1, flight := j.flight ++ [⟨n, false, false, false, [], [], [], [], []⟩] }).redReady j r.groupPred 0 n))) ∧
      (∀ b, j.flight = [b] → b.n = j.complete → j.blocks b.n ≤ b.done.length → b.n + 1 < j.buckets → exec (.bucketComplete e) s = .next (State.drainEngine
        ((gives { j with flight := [], complete := b.n + 1, landed := Sparse.set 0 j.landed b.n 0 }).engineSignal none j.part j.doneFlag))) ∧
      (∀ b, j.flight = [b] → b.n = j.complete → j.blocks b.n ≤ b.done.length → b.n + 1 = j.buckets → j.run = .active →
        exec (.bucketComplete e) s = .next (State.drainEngine ((gives { j with
          flight := [], complete := 0, started := 0, round := j.round + 1, run := .idle, landed := Sparse.set 0 j.landed b.n 0 }).engineSignal none j.part j.doneFlag)))) ∧
    ∀ (f : RxFrame), s.arrives f 0x21 → let u := s.passed f 0x21
      let n := bitsNat f.opw.toNat 25 10
      j.part = f.part.toNat → j.job = bitsNat f.opw.toNat 7 0 → j.run ≠ .failed → bitsNat f.opw.toNat 9 8 = 1 → 2 ≤ r.rows → f.src.toNat = r.fabSucc → n < j.buckets →
      bitsNat f.opw.toNat 33 26 = j.roundOf n % 256 →
      (j.bucket n = none → exec (.redReady f) s =
        .next (State.drainEngine (u.onRed (fun q => { q with jobs := [{ j with early := j.early ++ [(1, n, j.roundOf n % 256)] }] })))) ∧
      (∀ b, j.flight = [b] → b.n = n → b.waitF = [] →
        exec (.redReady f) s = .next (State.drainEngine (u.onRed (fun q => { q with jobs := [{ j with flight := [{ b with fabReady := true }] }] }))))) ∧
  (∀ (s : State) (f : RxFrame) (j : RedJob) (r : RingPos), s.halt = none → s.red.jobs = [j] → s.ringPos j.part j.job = some r → j.part = f.part.toNat →
    j.job = bitsNat f.opw.toNat 7 0 → j.run ≠ .failed →
    (∀ (b : RedBucket) (w : State), s.arrives f 0x22 → let u := s.passed f 0x22
      let payload := (s.plain f 0x22).payload
      let n := bitsNat f.opw.toNat 25 10
      let first := bitsNat f.opw.toNat 45 26
      bitsNat f.opw.toNat 9 8 = 3 → bitsNat f.opw.toNat 52 46 = 1 → f.opw.toNat.testBit 53 = false → payload.length = 256 → 2 ≤ r.cols → f.src.toNat = r.groupPred →
      j.flight = [b] → b.n = n → bitsNat f.opw.toNat 61 54 = j.roundOf n % 256 → (3, first) ∉ b.seen → first < j.blocks n → r.segOf (j.blocks n) first ≠ r.c →
      j.wire = 2 → j.result = 0 →
      let b' := { b with seen := b.seen ++ [(3, first)] }
      (u.onRed (fun q => { q with jobs := [{ j with flight := [b'] }] })).engineWrite j.part (j.resultOff + 2 * (n * j.bucketElems + 32 * first)) (payload.take 64) =
        (w, some true) →
      ∃ t, exec (.redData f 0) s = .next (State.drainEngine t) ∧ t.mem = w.mem ∧ t.red.jobs = [{ j with flight := [{ b' with done := b.done ++ [first] }] }]) ∧
    (s.arrives f 0x23 → f.src.toNat ∈ r.neighbours →
      ∃ t, exec (.redAbort f) s = .next (State.drainEngine t) ∧ t.red.jobs = [{ j with aborted := j.aborted ++ [f.src.toNat], run := .failed, flight := [] }]))

/-- TEST_HOP in 16-bit form adds each received value and each local one in FP32, rounds the sum once to BF16 stochastically under the public seed's stream, and writes the
blocks to its result page (R550, R555, R559, R781); while a session is held it is refused with 0x320B.

Commands that complete: testHop. -/
def Obligations.TestHopAdds : Prop :=
  ∀ (s t : State) (off : Nat) (c : List (BitVec 8)), s.halt = none → s.redSlot 0 = (t, some (off, c)) → leNat (c.take 1) = 3 →
    let f := fun o n => leNat ((c.drop o).take n)
    let count := f 12 1
    (t.sessionsHeld = true → exec .testHop s = .next (State.drainEngine (((t.redConsume 0).raise 0x000D 0x320B 0 0 0).slotDone none 0 off 0x320B (f 48 8)))) ∧
    ∀ (v : State) (inp loc : List (BitVec 8)), t.sessionsHeld = false → f 1 1 = 0 → f 2 2 ≤ 1023 → f 8 1 ≤ 1 → f 9 1 = 0 → 1 ≤ count → count ≤ 64 → f 13 3 = 0 →
      f 32 8 < 2 ^ 48 → f 40 8 = 0 →
      t.engineReads none 0 [(f 16 4 * pageSize, pageSize), (f 20 4 * pageSize, pageSize)] = .got v (inp ++ loc) → inp.length = pageSize → loc.length = pageSize →
      let half := fun (bs : List (BitVec 8)) (i e : Nat) => bf16.decode (leNat ((bs.drop (64 * i + 2 * e)).take 2))
      let rnd := fun x => draw (streamKey (t.seedOf 0) (f 10 2)) (f 32 8) (redDraw x (f 8 1) (f 2 2) 8)
      ∃ data : List (BitVec 8), data.length = 64 * count ∧
        (∀ i e, i < count → e < 32 → leNat ((data.drop (64 * i + 2 * e)).take 2) =
          encode bf16 (.sr (rnd (f 28 4 + 32 * i + e))) (val32 (rne32 ((half inp i e).add (half loc i e))))) ∧
        exec .testHop s = .next (State.drainEngine
          ((((v.redConsume 0).onRed (fun q => { q with adds := (q.adds + 32 * count) % 2 ^ 64 })).enginePut none 0 (f 24 4 * pageSize) data).1.slotDone none 0 off 0 (f 48 8)))

/-- CONFIG (R606, R607, R609): a slot with a field out of its range, or a second CONFIG, is refused with 0x5003, a reservation that finds no room with 0x5002,
and neither changes the configuration; any other slot reserves the areas and makes the controller idle with the slot's values, M starting at M0.

A checkpoint (R610 to R612, R614): once every stream has reached END for step NEXT and every job is IDLE the quiesce begins and the next generation with it; one
that has not come to rest in 1 ms asks for restore; at rest, a page DIRTY or in LAST goes to the area, LAST takes the DIRTY bits copied and DIRTY is cleared;
then work resumes with the pause reported.

Commands that complete: ckptConfig, ckptQuiesce, ckptQuiesceTimeout, ckptCopy, ckptResume. -/
def Obligations.CheckpointTaken : Prop :=
  (∀ (s t : State) (part : BitVec 5) (off : Nat) (b : List (BitVec 8)), s.halt = none → s.ckptSlot part.toNat = (t, some (off, b)) →
    let p := part.toNat
    let u : State := { t with ckpt := { t.ckpt with rings := t.ckpt.rings.map (fun r => if r.part = p then { r with seq := r.seq + 1 } else r) } }
    let i := (u.part p).session
    let refused := fun code => State.drainEngine ((u.raise 0x000A code i 0 0).slotDone none p off code (field_ b 48 8))
    let chips := ((u.session i).charter.map Charter.chips).getD []
    let buddies := if 1 < chips.length then imagePages (u.setPages i).length else 0
    let m := u.reserve i p buddies
    (State.configOk b = false ∨ (u.ckptSess i).cfg.isSome = true ∨ u.leadPart i ≠ some p ∨ u.controlTensor p (field_ b 8 4) = false →
      exec (.ckptConfig part none) s = .next (refused 0x5003)) ∧
    (State.configOk b = true → (u.ckptSess i).cfg = none → u.leadPart i = some p → u.controlTensor p (field_ b 8 4) = true →
      (1 < chips.length → ∃ c t, (u.session i).charter = some c ∧ c.rings.find? (fun t => t.job = field_ b 2 1 && t.part = p) = some t ∧ u.chip ∈ t.chips) →
      (m.good = false → exec (.ckptConfig part none) s = .next (refused 0x5002)) ∧
      (m.good = true → (∀ q ∈ u.partsOf i, m.st.pagesHeld q ≤ ((u.partDecl q).map PartDecl.quotaPages).getD 0) →
        exec (.ckptConfig part none) s = .next (State.drainEngine (((m.finish u).setCkpt i { CkptSess.off with
          cfg := some ⟨p, decide (field_ b 1 1 = 1), field_ b 2 1, field_ b 3 1, field_ b 8 4, field_ b 12 2, field_ b 14 2, field_ b 16 2, field_ b 20 4⟩,
          run := .idle, mean := ⟨field_ b 20 4 * 1000000000, 0⟩, lastRestore := u.clock.now }).slotDone none p off 0 (field_ b 48 8)))))) ∧
  (∀ (s : State) (i : Fin 8), s.halt = none →
    let k := s.ckptSess i
    let lead := (k.cfg.map CkptCfg.lead).getD 0
    (∀ p x, s.partsOf i = [p] → (s.crownPart p).begun = true → (s.crownPart p).held = false → (s.crownPart p).placed = [x] → (s.crownPart p).step = k.plan.next →
      k.run = .idle → k.taken ≠ some k.plan.next → (∀ j ∈ s.red.jobs, (s.part j.part).session = i → j.run = .idle) →
      (x.ended = true → exec (.ckptQuiesce i) s = .next (State.drainEngine ((s.setCkpt i { k with
        run := .quiescing, begun := (k.begun + 1) % 2 ^ 32, taken := some k.plan.next, cursors := s.cursors i, since := s.clock.now, copied := [] }).setRest i true))) ∧
      (x.ended = false → exec (.ckptQuiesce i) s = .next s.drainEngine)) ∧
    (k.run = .quiescing →
      (k.since + 1000000 ≤ s.clock.now → exec (.ckptQuiesceTimeout i) s = .next (State.drainEngine
        (((((s.raise 0x000A 0x5004 i 0 k.begun).pushEvent 6 [i, 0x5004]).onCkpt i (fun k => { k with run := .idle })).setRest i false).askRestore lead))) ∧
      (s.atRestNow i = false → exec (.ckptCopy i) s = .next s.drainEngine) ∧
      ∀ (p a v q : Nat), s.atRestNow i = true → k.copied = [] →
        let m := s.reserve i lead (s.buddyPages i)
        let u := m.finish s
        m.good = true → u.areaPages i (k.begun % 2) = [(p, a, v)] → u.mapped p v = some q →
        (∀ (g : Nat) (x w : State), (u.mem.record q).dirty = true → u.mapped p a = some g → (u.mem.record g).state.toNat = prtPinned → u.readWhole .ld q = (x, true) →
          x.enginePage g (x.newestKgen p) (x.mem.read q 0 16384) = (w, true) →
          ∃ t, exec (.ckptCopy i) s = .next (State.drainEngine t) ∧ t.ckptSess i = { w.ckptSess i with run := .copying, copied := [] } ∧
            t.ckpt.last = w.ckpt.last.filter (fun y => !(y == q)) ++ [q] ∧ t.mem = w.mem.onRecord q (fun y => { y with dirty := false })) ∧
        ((u.mem.record q).dirty = false → q ∉ u.ckpt.last →
          ∃ t, exec (.ckptCopy i) s = .next (State.drainEngine t) ∧ t.ckptSess i = { u.ckptSess i with run := .copying, copied := [] } ∧ t.mem = u.mem)) ∧
    (k.run = .copying →
      let us := (s.clock.now - k.since) / 1000
      let r := s.stateRecord i us
      let many := decide (1 < (s.ckptMembers i).length)
      ∀ v body, s.readPages (if many then (s.areaPages i (k.begun % 2)).filterMap (fun x => s.mapped x.1 x.2.1) else []) = (v, some body) →
        let t := ((v.onCkpt i (fun k => if k.begun % 2 = 0 then { k with even := some r } else { k with odd := some r })).onCkpt i
          (fun k => { k with run := .draining, pause := min us 65535, owed := 0 })).setRest i false
        exec (.ckptResume i) s = .next (State.drainEngine (if many then t.drainTo i r body else (t.makeCk i k.begun).1))))

/-- The buddy's check (R617): an image whose pages have all landed, with the partner's position, the session and a generation of the slot's parity in page 0, is
reported by 1 + pause × 2^20 at report word n mod 64 of the coordinator; any other raises 0x5007 and reports nothing; the drained chip is idle again.

The commit and the interval (R618, R620, R622, R623): when every position has reported, the plan record with the least T of its bounds that reaches √(2·P·M) ÷ τ,
and NEXT the later of S_n + T and two steps beyond the coordinator's, or S_n + 1 in every-step mode, is sent to every chip.

A plan record (R618, R620, R623, R626, R629): a member takes it; one whose NEXT the member has passed records 0x5006 and asks for restore; one that restores and
has the generation resumes at step S_n + 1, with SETTLE steps still to settle.

Commands that complete: ckptDrainDone, ckptImageCheck, ckptCommit, ckptPlanReceive, settleEnd. -/
def Obligations.CheckpointCommitted : Prop :=
  (∀ (s : State) (i : Fin 8), s.halt = none →
    let k := s.ckptSess i
    (k.run = .draining → k.owed = 0 → exec (.ckptDrainDone i) s = .next (s.onCkpt i (fun k => { k with run := .idle })).drainEngine) ∧
    (k.run ≠ .draining → exec (.ckptDrainDone i) s = .next (s.onCkpt i (fun k => k)).drainEngine) ∧
    ∀ (odd : Bool) (c : CkptCfg) (pos : State.CkptPos) (u w : State) (b pause : List (BitVec 8)), k.cfg = some c → s.ckptPos i s.chip = some pos →
      let base := buddyVp (b2n odd) * pageSize
      s.engineReads none c.lead (State.pageParts base pageSize) = .got u b → b.length = pageSize →
      u.engineReads none c.lead (State.pageParts (base + recordPage b * pageSize) 4) = .got w pause → pause.length = 4 →
      let n := field_ b 32 4
      let x := w.onCkpt i (fun k => { k with landed := k.landed.filter (fun x => x.1 ≠ b2n odd) })
      let good := b.take 4 = [0x43, 0x4B, 0x49, 0x4D] ∧ field_ b 4 2 = 0x0100 ∧ (w.ckptPos i pos.partner).map State.CkptPos.g = some (field_ b 6 2) ∧
        (w.ckptPos i pos.partner).map State.CkptPos.c = some (field_ b 8 1) ∧ (b.drop 16).take 16 = ((w.session i).charter.map Charter.sessionId).getD [] ∧
        n % 2 = b2n odd ∧ 1 ≤ field_ b 44 4 ∧ ∀ q, q < 4 * field_ b 44 4 → (b2n odd, q) ∈ k.landed
      (¬ good → exec (.ckptImageCheck i odd) s = .next ((x.raise 0x000A 0x5007 i 0 n).pushEvent 6 [i, 0x5007]).drainEngine) ∧
      ∀ chip, good → x.coordinator i = some chip → exec (.ckptImageCheck i odd) s =
        .next (State.drainEngine (x.engineAdd chip c.lead (c.ctlVp * 16384 + 512 + 8 * (n % 64)) (1 + leNat pause * 2 ^ 20)))) ∧
  (∀ (s : State) (i : Fin 8) (c : CkptCfg), s.halt = none → (s.ckptSess i).cfg = some c → c.tMin ≤ c.tMax →
    let k := s.ckptSess i
    let n := k.begun
    let base := c.ctlVp * 16384
    let due := s.coordinator i = some s.chip ∧ k.plan.n ≠ n ∧ n ≠ 0 ∧ k.run ≠ .restoring ∧ k.wrote ≤ k.rseq ∧
      (if n % 2 = 0 then k.even else k.odd).map CkptRecord.gen = some n
    (¬ due → exec (.ckptCommit i) s = .next s.drainEngine) ∧
    ∀ (u : State) (b : List (BitVec 8)), due → s.engineReads none c.lead (State.pageParts (base + (512 + 8 * (n % 64))) 8) = .got u b → b.length = 8 →
      let word := leNat b
      let members := (u.ckptMembers i).length
      (members ≠ 1 → word % 2 ^ 20 ≠ members → exec (.ckptCommit i) s = .next u.drainEngine) ∧
      ((members = 1 ∧ (k.run = .draining ∨ k.run = .idle) ∨ members ≠ 1 ∧ word % 2 ^ 20 = members) →
        let p := if members = 1 then k.pause else word / 2 ^ 20 / members
        let v := u.writeCtl c (512 + 8 * ((n + 2) % 64)) (leBytes 8 0)
        let enough := fun t => 0 < k.tau.num ∧ 2000 * p * k.mean.num * 2 ^ (2 * k.tau.exp) ≤ t * t * (k.tau.num * k.tau.num) * 2 ^ k.mean.exp
        ∃ t, (c.everyStep = true → t = 1) ∧
          (c.everyStep = false → c.tMin ≤ t ∧ t ≤ c.tMax ∧ (∀ x, c.tMin ≤ x → x < t → ¬ enough x) ∧ (t < c.tMax → enough t)) ∧
          let sN := k.taken.getD 0
          let plan : CkptPlan := ⟨n, sN, if c.everyStep then sN + 1 else max (sN + t) ((v.crownPart c.lead).step + 2), t, p, k.restores, k.mean.num / 2 ^ k.mean.exp / 1000000000⟩
          let w := v.onCkpt i (fun k => { k with plan := plan })
          exec (.ckptCommit i) s = .next (State.drainEngine ((w.ckptChips i).foldl (fun s chip => s.tellChip c chip 0 plan.bytes true) w)))) ∧
  (∀ (s u : State) (i : Fin 8) (vps : List (Nat × Nat)) (c : CkptCfg) (b : List (BitVec 8)), s.halt = none → (s.ckptSess i).cfg = some c →
    s.engineReads none c.lead (State.pageParts (c.ctlVp * 16384 + 0) 64) = .got u b → b.length = 64 →
    let k := u.ckptSess i
    let plan := planFrom b
    let hold := match k.stepEnd with
      | some t => min ((u.clock.now - t) / 1000) 65535
      | none => if c.everyStep then 0 else k.hold
    let taken := u.onCkpt i (fun k => { k with plan := plan, hold := hold, stepEnd := none })
    (k.run ≠ .restoring → plan.n = 0 ∨ (u.crownPart c.lead).step ≤ plan.next → exec (.ckptPlanReceive i vps) s = .next taken.drainEngine) ∧
    (k.run ≠ .restoring → plan.n ≠ 0 → plan.next < (u.crownPart c.lead).step →
      exec (.ckptPlanReceive i vps) s = .next (State.drainEngine (((taken.raise 0x000A 0x5006 i 0 plan.n).pushEvent 6 [i, 0x5006]).askRestore c.lead))) ∧
    (∀ t, k.run = .restoring → k.target = some t → k.phase = .reported → plan.n = t.1 → k.cfg = some c → c.settle = 0 →
      let x := (u.onCkpt i (fun k => { k with plan := plan })).onCkpt i (fun k => { k with phase := .resuming, settleLeft := 0, taken := some t.2 })
      let resumed := { k with plan := plan, run := .idle, target := none, phase := .none, applied := none, settleLeft := 0, taken := some t.2 }
      ((∀ q ∈ u.partsOf i, (u.crownPart q).wg = none) → ∃ t', exec (.ckptPlanReceive i vps) s = .next (State.drainEngine t') ∧ t'.ckptSess i = resumed) ∧
      ∀ (q : Nat) (g : WorkGraph) (v : Nat × List (Nat × Nat) × Bool) (w : State) (images : List (BitVec 8)), x.partsOf i = [q] → (x.crownPart q).wg = some g →
        (x.crownPart q).held = false → (x.crownPart q).step = t.2 → t.2 < 2 ^ 48 → x.chooseVariant q g = some v →
        let placed := x.placeStreams q (g.variants.getD v.1 []) v.2.1
        (x.awake (placed.map (fun y => y.core / 32))).2 = true →
        x.engineReads none q ((placed.map (fun y => State.imageRun (State.streamAt (g.variants.getD v.1 []) y.stream))).flatMap (fun y => State.pageParts y.1 y.2)) = .got w images →
        ∃ t', exec (.ckptPlanReceive i vps) s = .next (State.drainEngine t') ∧ (t'.ckptSess i).run = .idle ∧ (t'.ckptSess i).target = none ∧
          (t'.crownPart q).step = (t.2 + 1) % 2 ^ 48 ∧ (t'.crownPart q).placed = placed)) ∧
  (∀ (s : State) (i : Fin 8) (vps : List (Nat × Nat)) (c : CkptCfg), s.halt = none → (s.ckptSess i).cfg = some c →
    let k := s.ckptSess i
    (0 < c.settle → k.settleLeft = 0 → k.run ≠ .restoring → (∃ t ∈ s.allRegs, t.part ∈ s.partsOf i ∧ t.wide = true) →
      exec (.settleEnd i vps) s = .next (s.modeAll i false vps).drainEngine) ∧
    (k.settleLeft ≠ 0 → exec (.settleEnd i vps) s = .next s.drainEngine))

/-- A restore begins (R625, R632): with nothing committed the session holds with 0x5009, with too few spares with 0x5008; otherwise the coordinator numbers a new
record, clears its report word and sends the replacement list and the header, M moved toward the time since the last restore (R622).

A chip restores (R625, R626, R628): a new restore record makes it restoring with the record's target and number and its restores counted; a fetched image whose
tags fail under its key raises 0x5007, and one that passes is written back and reported; the coordinator, once every position has reported, sends the plan with
NEXT = S_n + T.

Commands that complete: restoreBegin, restoreRecordReceive, restoreImageFetched, restoreComplete. -/
def Obligations.Restores : Prop :=
  (∀ (s u : State) (i : Fin 8) (c : CkptCfg) (x : Charter) (b : List (BitVec 8)), s.halt = none → (s.ckptSess i).cfg = some c → (s.session i).charter = some x →
    s.engineReads none c.lead (State.pageParts (c.ctlVp * 16384 + 1024) 8) = .got u b → b.length = 8 → u.coordinator i = some u.chip →
    let k := u.ckptSess i
    let asked := leNat b
    let n := k.plan.n
    let gone := (u.ckptMembers i).filter (fun m => u.chipAbsent m)
    let spares := x.chips.filter (fun m => !(u.ckptMembers i).contains m && !u.chipAbsent m)
    let new := k.target = none ∧ asked ≠ k.absorbed ∨ gone ≠ []
    (¬ new → exec (.restoreBegin i false) s = .next u.drainEngine) ∧
    (new → k.wrote ≤ k.rseq →
      (n = 0 → exec (.restoreBegin i false) s = .next (u.ckptHold i 0x5009).drainEngine) ∧
      (n ≠ 0 → spares.length < gone.length → exec (.restoreBegin i false) s = .next (u.ckptHold i 0x5008).drainEngine) ∧
      (n ≠ 0 → gone.length ≤ spares.length →
        let step := (State.ckptRecordOf k n).elim k.plan.sN CkptRecord.step
        let rseq := k.rseq + 1
        let mean : CkptMean := ⟨(2 ^ c.alpha - 1) * k.mean.num + (u.clock.now - k.lastRestore) * 2 ^ k.mean.exp, k.mean.exp + c.alpha⟩
        let t := (u.onCkpt i (fun k => { k with absorbed := asked, wrote := rseq, mean := mean, lastRestore := u.clock.now })).writeCtl c (1040 + 8 * (rseq % 16)) (leBytes 8 0)
        let r := restoreBytes n step rseq (gone.zip spares)
        exec (.restoreBegin i false) s =
          .next (State.drainEngine ((t.ckptChips i).foldl (fun s chip => (s.tellChip c chip 128 r.2 false).tellChip c chip 64 r.1 true) t)))) ∧
    (n ≠ 0 → State.ckptRecordOf k (n - 1) = none → exec (.restoreBegin i true) s = .next (u.ckptHold i 0x5009).drainEngine)) ∧
  (∀ (s : State) (i : Fin 8) (c : CkptCfg), s.halt = none → (s.ckptSess i).cfg = some c →
    let k := s.ckptSess i
    (∀ (u : State) (b : List (BitVec 8)), s.engineReads none c.lead (State.pageParts (c.ctlVp * 16384 + 64) 320) = .got u b → b.length = 320 →
      let rseq := field_ b 14 4
      (rseq = 0 → exec (.restoreRecordReceive i) s = .next u.drainEngine) ∧
      (rseq ≠ 0 → rseq = (u.ckptSess i).rseq → exec (.restoreRecordReceive i) s = .next (u.restoreWork i).drainEngine) ∧
      (rseq ≠ 0 → rseq ≠ (u.ckptSess i).rseq → ∃ t, exec (.restoreRecordReceive i) s = .next (State.drainEngine t) ∧ (t.ckptSess i).run = .restoring ∧
        (t.ckptSess i).target = some (field_ b 0 4, field_ b 4 8) ∧ (t.ckptSess i).rseq = rseq ∧ (t.ckptSess i).restores = satAdd 32 (u.ckptSess i).restores 1)) ∧
    (∀ record : CkptRecord, s.imageSource i = none → exec (.restoreImageFetched i record) s = .next s.drainEngine) ∧
    (∀ (record : CkptRecord) (src : Nat × Nat × Nat) (u : State) (h : List (BitVec 8)), s.imageSource i = some src → s.imageRead src pageSize = .got u h →
      let total := field_ h 44 4
      let bad := fun (t : State) => t.ckptRaise i 0x5007 (field_ h 32 4)
      (imageSet total = none ∨ s.imageNamed i h = false → exec (.restoreImageFetched i record) s = .next (State.drainEngine (bad s))) ∧
      ∀ (set : Nat) (t : State) (b : List (BitVec 8)), imageSet total = some set → s.imageNamed i h = true → s.imageRead src (total * pageSize) = .got t b →
        let key := s.imageKey i h
        let d := ceilDiv (8 * set) pageSize
        let ps := (pagesOf b).drop 1
        let tags := (List.range (d + 4 + set)).map (fun j => (((ps.drop (d + 4 + set)).flatten).drop (16 * j)).take 16)
        let opened := fun ck => openPages ck (sha384 h) (field_ h 32 4) (field_ h 6 2 * 8 + field_ h 8 1) d (ps.take (d + 4 + set)) tags
        (key.2 = none → exec (.restoreImageFetched i record) s = .next key.1.drainEngine) ∧
        (∀ ck, key.2 = some ck → opened ck = none → exec (.restoreImageFetched i record) s = .next (State.drainEngine (bad t))) ∧
        ∀ ck texts w v b', key.2 = some ck → opened ck = some texts → ((texts.drop d).take 4).flatten = recordBytes record →
          let dir := (texts.take d).flatten
          let names := (List.range set).map (fun k => (field_ dir (8 * k) 8 % 32, field_ dir (8 * k) 8 / 32))
          key.1.putPages i (names.zip (texts.drop (d + 4))) = (w, true) → w.imageRead src (total * pageSize) = .got v b' →
          let y := (v.applyRecord i record).onCkpt i (fun k => { k with begun := max k.begun record.gen })
          exec (.restoreImageFetched i record) s = .next (State.drainEngine (if (y.ckptSess i).run = .restoring then y.restoreReport i else y))) ∧
    (∀ (t : Nat × Nat) (u : State) (b : List (BitVec 8)), k.run = .restoring → k.phase = .reported → k.target = some t → s.coordinator i = some s.chip →
      s.engineReads none c.lead (State.pageParts (c.ctlVp * 16384 + (1040 + 8 * (k.rseq % 16))) 8 ++ State.pageParts (c.ctlVp * 16384 + 1024) 8) = .got u b → b.length = 16 →
      let reports := leNat (b.take 8)
      (reports < (u.ckptMembers i).length → exec (.restoreComplete i) s = .next u.drainEngine) ∧
      ((u.ckptMembers i).length ≤ reports →
        let x := u.ckptSess i
        let iv := if c.everyStep then 1 else interval c x k.plan.p
        let plan : CkptPlan := ⟨t.1, t.2, t.2 + iv, iv, k.plan.p, x.restores, x.mean.num / 2 ^ x.mean.exp / 1000000000⟩
        let w := u.onCkpt i (fun k => { k with plan := plan, absorbed := leNat (b.drop 8) })
        exec (.restoreComplete i) s = .next (State.drainEngine ((w.ckptChips i).foldl (fun s chip => s.tellChip c chip 0 plan.bytes true) w)))))

/-- The port and its connections (R683 to R686, R703): at most four, whose chain ends at the anchor and whose key is no owner's; a refused one leaves the others as
they are; a restart of the management processor drops connections, staging in progress, the SRAM log and SPDM sessions of its channels.

Every request gets one response with its ID (R687, R688, R695): registers read in order, zero where none is; records, sessions, Visor's report; the log from a SEQ;
an unknown or malformed message 0x0303 and nothing else.

WRITE_REG answers with the code that the write is refused with, or 0 once it is made (R688): the package power limit of 900 to 2 100 W is written, a boot-locked register answers
0x010B, an address outside the blocks 0x0303. TELEM_SET takes 0 or a multiple of 10 ms from 10 to 60 000 (R691), and a push then carries the record and starts the next growth.

Commands that complete: sgmiiLink, mgmtDiscard, mgmtConnect, mgmtConnectionClose, mgmtRestart, mgmtInfo, readReg, flogRead, mgmtSessions, placementRead, visorReport,
mgmtMsgIllegal, writeReg, telemSet, telemPush. -/
def Obligations.ManagementPort : Prop :=
  (∀ (s : State) (key : List (BitVec 8)),
    let m := s.mgmt
    (∀ up addr, exec (.sgmiiLink up addr) s = .next { s with mgmt := { m with phyUp := up, addrOk := up && addr } }) ∧
    (m.phyUp = true → exec .mgmtDiscard s = .next (s.count (ctl 3 0x1C) 1)) ∧
    (m.phyUp = true → m.addrOk = true →
      let owner := ∃ i, i < 8 ∧ ∃ c, (s.session i).charter = some c ∧ key ∈ c.ownerKeys
      (m.conns = [] → ¬ owner → exec (.mgmtConnect key true true) s = .next { s with mgmt := { m with conns := [⟨0, key, 0, []⟩] } }) ∧
      (∀ a b c d, m.conns = [a, b, c, d] → (∀ n, n < 4 → ∃ x ∈ m.conns, x.id = n) → ¬ owner →
        exec (.mgmtConnect key true true) s = .next ((s.raise 3 0x030B 0 0 0).emit (.refused (.mgmt 0 0) 0 0x030B))) ∧
      (m.conns = [] → owner → exec (.mgmtConnect key true true) s = .next ((s.raise 3 0x0302 0 0 0).emit (.refused (.mgmt 0 0) 0 0x0302))) ∧
      (m.conns = [] → ∀ inDate, exec (.mgmtConnect key false inDate) s = .next (((s.count (ctl 3 0x18) 1).raise 3 0x0301 0 0 0).emit (.refused (.mgmt 0 0) 0 0x0301))) ∧
      (m.conns = [] → s.clock.locked = false → exec (.mgmtConnect key true false) s = exec (.mgmtConnect key true true) s)) ∧
    (∀ conn : Fin 4, s.mgmt.conns.any (fun c => c.id = conn.val) = true → exec (.mgmtConnectionClose conn) s = .next { s with mgmt := { m with
      conns := m.conns.filter (fun c => c.id ≠ conn.val), stage := if m.stage.conn = some conn.val ∧ m.stage.state ≠ 3 then Stage.idle else m.stage } }) ∧
    ∃ t, exec .mgmtRestart s = .next t ∧ t.mgmt.conns = [] ∧ t.mgmt.bmcPlimit = m.bmcPlimit ∧ t.mgmt.flash = m.flash ∧ t.mgmt.stage.state ≠ 1 ∧ t.mgmt.stage.state ≠ 2 ∧
      t.keys.secure = s.keys.secure.filter (fun x => x.transport = 1) ∧ t.keys.sessions = s.keys.sessions ∧ t.keySlots = s.keySlots ∧ t.net = s.net ∧ t.crown = s.crown) ∧
  (∀ (s : State) (conn : Fin 4) (id : BitVec 32), s.mgmt.conns.any (fun c => c.id = conn.val) = true →
    let reply := fun (t : State) (type code : Nat) (body : List Nat) => t.emit (.stol conn type code id.toNat body)
    let illegal := fun (type : Nat) => reply (s.raise 3 0x0303 conn type id.toNat) type 0x0303 []
    exec (.mgmtInfo conn id) s = .next (reply s 0x01 0 ([s.readGlobal 0, s.readGlobal 4, s.chip] ++ s.boot.deviceId.map BitVec.toNat ++
      ((List.range 8).flatMap (fun k => ((s.measurement (k + 1)).getD []).map BitVec.toNat)))) ∧
    (∀ addr : BitVec 32, addr.toNat % 4 = 0 → addr.toNat ≠ ctl 0xE 8 → blockOf addr.toNat < 0x66 → 
      exec (.readReg conn id addr 1) s = .next (reply s 0x10 0 [(s.readReg addr.toNat).toNat])) ∧
    (∀ addr : BitVec 32, addr.toNat % 4 = 0 → addr.toNat ≠ ctl 0xE 8 → addr.toNat + 4 ≠ ctl 0xE 8 → blockOf (addr.toNat + 4) < 0x66 →
      exec (.readReg conn id addr 2) s = .next (reply s 0x10 0 [(s.readReg addr.toNat).toNat, (s.readReg (addr.toNat + 4)).toNat])) ∧
    (∀ (addr : BitVec 32) (n : Nat), n = 0 ∨ 64 < n ∨ addr.toNat % 4 ≠ 0 → exec (.readReg conn id addr n) s = .next (illegal 0x10)) ∧
    (∀ seq : BitVec 32, exec (.flogRead conn id seq) s = .next (reply s 0x30 0 (((s.flogAll.filter (fun e => seq.toNat ≤ e.seq)).take 512).flatMap State.flogBody))) ∧
    exec (.mgmtSessions conn id) s = .next (reply s 0x41 0 s.sessionsBody) ∧
    (∀ start, exec (.placementRead conn id start) s = .next (reply s 0x80 0
      (((s.crown.records.drop start).take 256).flatMap (fun r => [r.kind, r.part, r.step, r.time, r.a, r.b, r.c, r.d])))) ∧
    exec (.visorReport conn id) s = .next (reply s 0x90 0 s.visorReport) ∧
    ∀ type : BitVec 16, exec (.mgmtMsgIllegal conn type id) s = .next (illegal type.toNat)) ∧
  (∀ (s : State) (conn : Fin 4) (id : BitVec 32), s.mgmt.conns.any (fun c => c.id = conn.val) = true →
    let reply := fun (t : State) (type code : Nat) => t.emit (.stol conn type code id.toNat [])
    (∀ v : BitVec 32, exec (.writeReg conn id (BitVec.ofNat 32 (ctl 1 0)) v) s = .next (reply (s.raise 1 0x010B 0 0 0) 0x11 0x010B)) ∧
    (∀ addr v : BitVec 32, 0x66 ≤ blockOf addr.toNat ∨ addr.toNat % 4 ≠ 0 →
      exec (.writeReg conn id addr v) s = .next (reply (s.raise 3 0x0303 conn 0x11 id.toNat) 0x11 0x0303)) ∧
    (∀ v : BitVec 32, 900 ≤ v.toNat → v.toNat ≤ 2100 → exec (.writeReg conn id (BitVec.ofNat 32 (ctl 5 0)) v) s = .next (reply (s.setReg (ctl 5 0) v) 0x11 0)) ∧
    (∀ v : BitVec 32, v.toNat < 900 ∨ 2100 < v.toNat →
      exec (.writeReg conn id (BitVec.ofNat 32 (ctl 5 0)) v) s = .next (reply (s.raise 5 0x7007 0 0 0) 0x11 0x7007)) ∧
    (∀ period, (period = 0 ∨ 10 ≤ period ∧ period ≤ 60000 ∧ period % 10 = 0) → exec (.telemSet conn id period) s =
      .next (reply { s with mgmt := { s.mgmt with
        conns := s.mgmt.conns.map (fun c => if c.id = conn.val then { c with telem := period, base := s.telemCounts } else c) } } 0x20 0)) ∧
    (∀ period, period ≠ 0 → period < 10 ∨ 60000 < period ∨ period % 10 ≠ 0 →
      exec (.telemSet conn id period) s = .next (reply (s.raise 3 0x0303 conn 0x20 id.toNat) 0x20 0x0303))) ∧
  (∀ (s : State) (conn : Fin 4) (measured : List Nat),
    (∀ c, s.mgmt.conns.find? (fun c => c.id = conn.val && decide (c.telem ≠ 0)) = some c → exec (.telemPush conn measured) s =
      .next { s.emit (.stol conn 0x21 0 0 (s.telemBody c.base measured)) with
        mgmt := { s.mgmt with conns := s.mgmt.conns.map (fun c => if c.id = conn.val then { c with base := s.telemCounts } else c) } }) ∧
    (s.mgmt.conns.find? (fun c => c.id = conn.val && decide (c.telem ≠ 0)) = none → exec (.telemPush conn measured) s = .next s))

/-- Session requests over Stolulter (R687, R689, R700): a Charter is taken as over DOE and its slot answered, refused with 0x2201 while MGMT_EN is 0; SESSION_END begins
teardown and ROTATE a rotation; SPDM carries one message; PPS_SECOND counts from 100 ms to 900 ms after a pulse. After a halt the first three answer 0x2209.

Staging (R696, R697, R699): the other slot is erased; data is written within TOTAL; a commit whose checks pass writes one selection record with COUNTER one above the
higher, and one that fails changes neither; a second staging gets 0x0305; the booted slot is never written; 60 s of silence abandons it.

Commands that complete: mgmtCharter, sessionEnd, mgmtRotate, mgmtSpdm, ppsSecond, stageBegin, stageData, stageCommit, stageTimeout. -/
def Obligations.ManagementSessions : Prop :=
  (∀ (s : State) (conn : Fin 4) (id : BitVec 32), s.mgmt.conns.any (fun c => c.id = conn.val) = true →
    let reply := fun (t : State) (type code : Nat) (body : List Nat) => t.emit (.stol conn type code id.toNat body)
    (∀ c enc sigs oper, s.halt = none → s.boot.ready = true →
      ((s.reg (ctl 1 0x10)).toNat.testBit 8 = false → exec (.mgmtCharter conn id c enc sigs oper) s = .next (reply (s.raise 0x000C 0x2201 0 0 0) 0x40 0x2201 [])) ∧
      ((s.reg (ctl 1 0x10)).toNat.testBit 8 = true → ∀ code, s.charterCheck c enc sigs oper = some code → code ≠ 0 →
        exec (.mgmtCharter conn id c enc sigs oper) s = .next (reply (s.raise 0x000C code 0 0 0) 0x40 code [])) ∧
      ((s.reg (ctl 1 0x10)).toNat.testBit 8 = true → s.charterCheck c enc sigs oper = none →
        ∃ t i, exec (.mgmtCharter conn id c enc sigs oper) s = .next (reply t 0x40 0 [i]) ∧ t.session i = { Session.none with state := .keying, charter := some c })) ∧
    (∀ slot : Fin 8, s.halt = none → (s.session slot).state ≠ .none → (s.session slot).state ≠ .ending →
      ∃ t, exec (.sessionEnd conn id slot) s = .next (reply t 0x42 0 []) ∧ (t.session slot).state = .ending) ∧
    (∀ slot : Fin 8, s.halt = none → (s.session slot).state = .ending → exec (.sessionEnd conn id slot) s = .next (reply s 0x42 0 [])) ∧
    (∀ (p : BitVec 5) t, s.halt = none → s.rotate p.toNat = (t, 0) → t.out = s.out → exec (.mgmtRotate conn id p) s = .next (reply (t.setReg (ctl 0xC 4) (BitVec.ofNat 32 p.toNat)) 0x43 0 [])) ∧
    (s.halt.isSome = true → (∀ slot, exec (.sessionEnd conn id slot) s = .next (reply s 0x42 0x2209 [])) ∧ (∀ p, exec (.mgmtRotate conn id p) s = .next (reply s 0x43 0x2209 [])) ∧
      ∀ c enc sigs oper, exec (.mgmtCharter conn id c enc sigs oper) s = .next (reply s 0x40 0x2209 [])) ∧
    exec (.mgmtSpdm conn id .getVersion) s = .next (reply (s.setSpdm ⟨0, true, false, false⟩) 0x60 0 [0x84, 0, 0x13]) ∧
    ∀ (sec : BitVec 64) t, (s.pin 3).accepted = some t →
      (t + 100000000 ≤ s.clock.now → s.clock.now ≤ t + 900000000 → exec (.ppsSecond conn id sec) s = .next (reply { s with mgmt := { s.mgmt with ppsSecond := some sec.toNat } } 0x70 0 [])) ∧
      (s.clock.now < t + 100000000 ∨ t + 900000000 < s.clock.now → exec (.ppsSecond conn id sec) s = .next (reply (s.raise 3 0x0306 conn 0x70 id.toNat) 0x70 0x0306 []))) ∧
  (∀ (s : State) (conn : Fin 4) (id : BitVec 32), s.mgmt.conns.any (fun c => c.id = conn.val) = true → s.boot.slot ≤ 1 →
    let reply := fun (t : State) (type code : Nat) => t.emit (.stol conn type code id.toNat [])
    let g := s.mgmt.stage
    let mine := g.state = 1 ∧ g.conn = some conn.val
    let booted := fun (t : State) => ∀ a, imageBase s.boot.slot ≤ a → a < imageBase s.boot.slot + imageMax → Sparse.get 0xFF t.boot.flash a = Sparse.get 0xFF s.boot.flash a
    let other := 1 - s.boot.slot
    (∀ (slot : Fin 2) (total : BitVec 32), slot.val = other → 1 ≤ total.toNat → total.toNat ≤ imageMax → (g.state = 1 ∨ g.state = 2 → g.conn = some conn.val) →
      ∃ t, exec (.stageBegin conn id slot total) s = .next (reply t 0x50 0) ∧ t.mgmt.stage = ⟨1, other, 0, some conn.val, total.toNat⟩ ∧ booted t ∧
        ∀ a, imageBase other ≤ a → a < imageBase other + imageMax → Sparse.get 0xFF t.boot.flash a = 0xFF) ∧
    (∀ slot total, g.state = 1 → g.conn ≠ some conn.val → exec (.stageBegin conn id slot total) s = .next (reply (s.raise 3 0x0305 conn 0x50 id.toNat) 0x50 0x0305)) ∧
    (∀ (slot : Fin 2) total, g.state = 0 → slot.val = s.boot.slot →
      exec (.stageBegin conn id slot total) s = .next (reply (s.raise 3 0x0303 conn 0x50 id.toNat) 0x50 0x0303)) ∧
    (∀ (off : BitVec 32) data, mine → g.slot = other → g.total ≤ imageMax → data.length ≤ 65536 → off.toNat + data.length ≤ g.total →
      ∃ t, exec (.stageData conn id off data true) s = .next (reply t 0x51 0) ∧ booted t ∧ t.flashAt (imageBase other + off.toNat) data.length = data) ∧
    (∀ (off : BitVec 32) data flashOk, mine → g.total < off.toNat + data.length → exec (.stageData conn id off data flashOk) s = .next (reply (s.raise 3 0x0303 conn 0x51 id.toNat) 0x51 0x0303)) ∧
    (∀ unread kSig iSig flashOk,
      let all := fun b : Bool => if b then (3 : BitVec 2) else 0
      let facts : BootFacts := ⟨all unread, all kSig, all iSig, s.boot.deviceId, 0, true, 0, [], none, 0⟩
      (∀ code, mine → s.imageCode facts g.slot = some code → exec (.stageCommit conn id unread kSig iSig flashOk) s = .next (reply s 0x52 code)) ∧
      (∀ a b, mine → s.imageCode facts g.slot = none → s.selection 0 = some a → s.selection 1 = some b → flashOk = true →
        exec (.stageCommit conn id unread kSig iSig flashOk) s = .next (reply (((s.flashWrite (if a.1 < b.1 then 0 else 0x1000) (State.selectionBytes g.slot (max a.1 b.1 + 1))).setStage
          { g with state := 3, svn := (s.readImage g.slot).svn }).pushEvent 11 [g.slot, (s.readImage g.slot).svn]) 0x52 0)) ∧
      (mine → s.imageCode facts g.slot = none → flashOk = false → exec (.stageCommit conn id unread kSig iSig flashOk) s = .next (reply (s.raise 3 0x0307 conn 0x52 id.toNat) 0x52 0x0307))) ∧
    (g.state = 1 → exec .stageTimeout s = .next (s.setStage Stage.idle)) ∧ (g.state = 3 → exec .stageTimeout s = .next s))

/-- The fault log and the board management controller (R694, R701, R702): entries that began a halt or stopped boot reach flash first, 100 others a second, the rest are counted
lost; the controller gets an address, an endpoint ID, HEALTH, the newest 16 entries, and sets a cap of 0 or 900 to 2 100 W, any other being refused with 0x030A.

Register writes (R14, R15, R650): a boot-locked register takes only boot code's writes and only before PROT.LOCK; a read-only one none; a legal write of a writable one is its
new value, an undefined value is refused and changes nothing; a W1C bit is cleared by 1.

Commands that complete: flogFlashWrite, entdaa, mctpControl, bmcHealth, bmcFlog, bmcCap, registerWrite. -/
def Obligations.FaultLogAndRegisters : Prop :=
  (∀ s : State,
    let m := s.mgmt
    (m.toFlash.length ≤ 100 → m.flash.length + m.toFlash.length ≤ 30720 →
      exec .flogFlashWrite s = .next (State.count { s with mgmt := { m with flash := m.flash ++ m.toFlash, flashed := m.flashed + m.toFlash.length, toFlash := [] } } (ctl 3 0xC) 0)) ∧
    (∀ h e es, s.halt = some h → s.boot.phase ≠ 6 → m.toFlash = es ++ [e] → (e.code, e.block) = h → es.length = 101 → (∀ x ∈ es, (x.code, x.block) ≠ h) → es.Nodup →
      m.flash.length + 102 ≤ 30720 → exec .flogFlashWrite s =
        .next (State.count { s with mgmt := { m with flash := m.flash ++ es.take 100 ++ [e], flashed := m.flashed + 101, toFlash := [] } } (ctl 3 0xC) 1)) ∧
    (∀ e, m.toFlash = [e] → m.flashed % 2048 = 0 → 30720 < m.flash.length → ∃ t, exec .flogFlashWrite s = .next t ∧
      t.mgmt.flash = m.flash.drop (m.flash.length - 30720) ++ [e]) ∧
    exec .entdaa s = .next { s with mgmt := { m with i3cAddr := true } } ∧
    (m.i3cAddr = true → ∀ cmd eid : BitVec 8,
      (cmd = 1 → exec (.mctpControl cmd eid) s = .next ({ s with mgmt := { m with eid := eid.toNat } }.emit (.mctp 0 1 [0, eid.toNat]))) ∧
      (cmd = 5 → exec (.mctpControl cmd eid) s = .next (s.emit (.mctp 0 5 [0, 0x00, 0x05, 0x06, 0x7E])))) ∧
    ((∃ x ∈ s.keys.secure, x.transport = 2 ∧ x.finished = true) →
      exec .bmcHealth s = .next (s.emit (.mctp 0x7E 1 [s.readGlobal 4, b2n s.halt.isSome, s.pwr.logic, s.pwr.dram, s.pwr.avg, s.powerLimit])) ∧
      exec .bmcFlog s = .next (s.emit (.mctp 0x7E 2 ((newest 16 s.flogAll).flatMap State.flogBody))) ∧
      ∀ watts : BitVec 16,
        (watts.toNat = 0 ∨ 900 ≤ watts.toNat ∧ watts.toNat ≤ 2100 → exec (.bmcCap watts) s = .next ({ s with mgmt := { m with bmcPlimit := watts.toNat } }.emit (.mctp 0x7E 3 [0]))) ∧
        (watts.toNat ≠ 0 → watts.toNat < 900 ∨ 2100 < watts.toNat → exec (.bmcCap watts) s = .next ((s.raise 3 0x030A 0 3 0).emit (.mctp 0x7E 3 [0x030A])))) ∧
    ((∀ x ∈ s.keys.secure, x.transport ≠ 2) → exec .bmcHealth s = .next s ∧ exec .bmcFlog s = .next s ∧ ∀ watts, exec (.bmcCap watts) s = .next s)) ∧
  (∀ (s : State) (v : BitVec 32), s.halt = none →
    (∀ a ∈ State.bootLocked, ∀ who, who ≠ .boot ∨ s.locked = true →
      exec (.registerWrite who (BitVec.ofNat 32 a) v) s = .next (State.drainEngine (s.refuse who a 0x010B))) ∧
    (∀ a ∈ (List.range 12).map (fun i => ctl 1 (0x40 + 4 * i)), s.locked = false →
      exec (.registerWrite .boot (BitVec.ofNat 32 a) v) s = .next (State.drainEngine (s.setReg a v))) ∧
    (s.locked = false → v.toNat < 512 →
      (1 ≤ v.toNat % 32 → v.toNat % 32 ≤ 16 → exec (.registerWrite .boot (BitVec.ofNat 32 (ctl 1 0x10)) v) s = .next (State.drainEngine (s.setReg (ctl 1 0x10) v))) ∧
      (v.toNat % 32 = 0 ∨ 16 < v.toNat % 32 →
        exec (.registerWrite .boot (BitVec.ofNat 32 (ctl 1 0x10)) v) s = .next (State.drainEngine (s.refuse .boot (ctl 1 0x10) 0x010B)))) ∧
    (s.locked = false → 2 ^ 13 ≤ v.toNat → exec (.registerWrite .boot (BitVec.ofNat 32 (ctl 0xE 0)) v) s = .next (State.drainEngine (s.refuse .boot (ctl 0xE 0) 0x300D))) ∧
    (∀ conn id, exec (.registerWrite (.mgmt conn id) (BitVec.ofNat 32 (ctl 3 8)) v) s = .next (State.drainEngine (s.refuse (.mgmt conn id) (ctl 3 8) 0x0308))) ∧
    (v.toNat < 2 ^ 16 → exec (.registerWrite .processor (BitVec.ofNat 32 (ctl 3 4)) v) s =
      .next (State.drainEngine { s with errs := Sparse.update 0 s.errs (ctl 3 4) (fun w => w &&& ~~~v) })) ∧
    (∀ conn id, 900 ≤ v.toNat → v.toNat ≤ 2100 →
      exec (.registerWrite (.mgmt conn id) (BitVec.ofNat 32 (ctl 5 0)) v) s = .next (State.drainEngine (s.setReg (ctl 5 0) v))) ∧
    (∀ conn id, v.toNat < 900 ∨ 2100 < v.toNat →
      exec (.registerWrite (.mgmt conn id) (BitVec.ofNat 32 (ctl 5 0)) v) s = .next (State.drainEngine (s.refuse (.mgmt conn id) (ctl 5 0) 0x7007))) ∧
    exec (.registerWrite .host (BitVec.ofNat 32 (ctl 5 0)) v) s = .next (State.drainEngine (s.refuse .host (ctl 5 0) 0x7007)) ∧
    (v.toNat < 2 ^ 16 → ∀ conn id, exec (.registerWrite (.mgmt conn id) (BitVec.ofNat 32 (ctl 5 0x14)) v) s =
      .next (State.drainEngine { s with errs := Sparse.update 0 s.errs (ctl 5 0x14) (fun w => w &&& ~~~v) })))

/-- A clock that fails and a Seam that stalls (R708, R709, R713, R715, R716): a REG domain's region is held down, MGMT's restarts management, PCIE's resets the endpoint, any
other begins an integrity halt, as does the crystal; a PLL that locks runs at its frequency; a held region's cores and engine stop.

The operating point (R722 to R724, R757): the lowest of the chip point, POINT_MAX and the thermal clamp, point 0 while THROTTLE_N is honoured or the region tripped and in
SLEEP_SLOW with nothing for its engine; the voltage is the plan's.

Sleep and wake of a region (R357, R358, R720, R721): cores gated and buffer dropped, and before SLEEP_STOP the engine drained (R275); then SLEEP_SLOW or STOP with operating point 0; a wake from SLEEP_SLOW
waits for nothing but its end, when the region is ACTIVE and its enabled cores run.

Commands that complete: pllUnlock, seamStall, pllLock, seamRelease, xtalFail, vrFault, dvfsChange, regionSleep, regionSleepEntryDone, regionWake, regionWakeDone. -/
def Obligations.ClocksAndPoints : Prop :=
  (∀ (s : State) (d : Fin 26) (x : Nat), s.halt = none → 2 ≤ d.val →
    let p := s.pwr
    let r := d.val - 4
    let isReg := 4 ≤ d.val ∧ d.val ≤ 19
    let lost := { s with pwr := { p with running := p.running &&& ~~~dbit d, failed := p.failed ||| dbit d, seams := p.seams &&& ~~~dbit d, freq := Sparse.set 0 p.freq d 0 } }
    let stalled := ({ s with pwr := { p with seams := p.seams &&& ~~~dbit d } }).count (ctl 4 0xC) 1
    (hasBit p.running d = true →
      (isReg → exec (.pllUnlock d x) s = .next (State.drainEngine ((lost.raise 4 0x6001 d 0 x).holdRegion r 0x6001))) ∧
      (d = 3 → exec (.pllUnlock d x) s = .next (State.drainEngine ((lost.raise 4 0x6001 d 0 x).mgmtRestart))) ∧
      (d = 25 → exec (.pllUnlock d x) s = .next (State.drainEngine ((lost.raise 4 0x6001 d 0 x).pcieReset))) ∧
      (d = 2 ∨ 20 ≤ d.val ∧ d.val ≤ 24 → exec (.pllUnlock d x) s = .next (State.drainEngine { lost.raise 4 0x6001 d 0 x with halt := some (0x6001, 4) }))) ∧
    (hasBit p.seams d = true → ∀ near : Fin 26,
      (isReg → exec (.seamStall near d) s = .next (State.drainEngine ((stalled.raise 4 0x6002 d near 0).holdRegion r 0x6002))) ∧
      (d = 3 → exec (.seamStall near d) s = .next (State.drainEngine ((stalled.raise 4 0x6002 d near 0).mgmtRestart))) ∧
      (d = 25 → exec (.seamStall near d) s = .next (State.drainEngine ((stalled.raise 4 0x6002 d near 0).pcieReset))) ∧
      (d = 2 ∨ 20 ≤ d.val ∧ d.val ≤ 24 → exec (.seamStall near d) s = .next (State.drainEngine { stalled.raise 4 0x6002 d near 0 with halt := some (0x6002, 4) }))) ∧
    (hasBit p.seams d = false → ∀ near : Fin 26, exec (.seamStall near d) s = .next s.drainEngine) ∧
    (hasBit p.starting d = true →
      exec (.pllLock d x) s = .next { s with pwr := { p with starting := p.starting &&& ~~~dbit d, running := p.running ||| dbit d, freq := Sparse.set 0 p.freq d (x % 4096) } }) ∧
    (hasBit p.running d = true → hasBit p.failed d = false → exec (.seamRelease d) s = .next { s with pwr := { p with seams := p.seams ||| dbit d } }) ∧
    (hasBit p.failed d = true → exec (.seamRelease d) s = .next s) ∧
    exec .xtalFail s = .next { ({ s with pwr := { p with backup := true } }).raise 4 0x6006 1 0 0 with halt := some (0x6006, 4) } ∧
    ∀ rg : BitVec 4, s.boot.held.toNat.testBit rg.toNat = false →
      ∃ t, exec (.vrFault rg x) s = .next (State.drainEngine t) ∧ t.boot.held.toNat.testBit rg.toNat = true ∧ (t.regPwr rg.toNat).st = .held ∧
        (t.region rg.toNat).ue.enable = false ∧ (t.region rg.toNat).ue.state = 4 ∧ ∀ k, k < 32 → (t.core (32 * rg.toNat + k)).ctl.enable = false) ∧
  (∀ (s : State) (rg : BitVec 4), s.halt = none →
    let r := rg.toNat
    let g := s.regPwr r
    let low := (s.pin 4).active = true ∧ (s.pin 4).stuck = false
    let toPoint := fun k : Nat => { s with pwr := { s.pwr with
      regions := Sparse.set RegPwr.reset s.pwr.regions r { g with point := k, mv := s.planMv r k }, freq := Sparse.set 0 s.pwr.freq (regDomain r) (600 + 100 * k) } }
    let target := min (min s.pwr.chipPoint (s.regField (ctl 5 (0x140 + 4 * r)) 3 0)) g.clamp - if g.alarm = true then 1 else 0
    (g.st = .active ∨ g.st = .slow ∧ (s.region r).ue.window ≠ [] →
      (low ∨ g.trip = true → exec (.dvfsChange rg) s = .next (toPoint 0)) ∧
      (¬ low → g.trip = false → exec (.dvfsChange rg) s = .next (toPoint target))) ∧
    (g.st = .slow → (s.region r).ue.window = [] → exec (.dvfsChange rg) s = .next (toPoint 0)) ∧
    (g.st = .stop ∨ g.st = .held ∨ g.st = .entering ∨ g.st = .waking → exec (.dvfsChange rg) s = .next s)) ∧
  (∀ (s : State) (rg : BitVec 4), s.halt = none →
    let r := rg.toNat
    let g := s.regPwr r
    let e := (s.region r).ue
    ((s.reg (ctl 8 0)).toNat.testBit 2 = true → g.st = .active → s.streamsIn r = false → ∃ t, exec (.regionSleep rg) s = .next (State.drainEngine t) ∧
      t.regPwr r = { g with st := .entering, deep := e.table.isEmpty, pend := false } ∧ (t.region r).rb = [] ∧ (t.region r).fills = [] ∧
      (e.table ≠ [] → (t.region r).ue = e) ∧ (e.table = [] → e.window = [] → (t.region r).ue.enable = false) ∧
      (e.table = [] → e.window ≠ [] → e.enable = true → e.state = 0 → (t.region r).ue = { e with state := 3 }) ∧
      (∀ k, k < 32 → (t.core (32 * r + k)).ctl.enable = false ∧ (t.core (32 * r + k)).ctl.run = (if (s.core (32 * r + k)).ctl.quar then .quarantined else .asleep) ∧
        ∀ i, (t.core (32 * r + k)).getS i = 0) ∧ t.mem = s.mem) ∧
    (g.st ≠ .active ∨ s.streamsIn r = true ∨ (s.reg (ctl 8 0)).toNat.testBit 2 = false → exec (.regionSleep rg) s = .next s.drainEngine) ∧
    (g.st = .entering → g.pend = false → (g.deep = true → e.enable = false ∧ e.table = []) → ∃ t, exec (.regionSleepEntryDone rg) s = .next (State.drainEngine t) ∧
      (t.regPwr r).st = (if g.deep then .stop else .slow) ∧ (t.regPwr r).point = 0) ∧
    (g.st = .slow → ∃ t, exec (.regionWake rg none) s = .next (State.drainEngine t) ∧ t.regPwr r = { g with st := .waking, pend := false, deep := false } ∧
      t.mem = s.mem ∧ t.cores = s.cores) ∧
    (g.st = .held → exec (.regionWake rg none) s = .next (State.drainEngine (s.emit (.refused .crown (ctl 5 (0x100 + 4 * r)) g.cause)))) ∧
    (∀ ns, g.st = .waking → hasBit s.pwr.running (4 + r) = true → hasBit s.pwr.seams (4 + r) = true → ∃ t, exec (.regionWakeDone rg ns) s = .next (State.drainEngine t) ∧
      (t.regPwr r).st = .active ∧ (s.boot.ready = true → e.state ≠ 4 → (t.region r).ue = { e with enable := true }) ∧
      ∀ k, k < 32 → (s.core (32 * r + k)).ctl.run = .asleep → (s.core (32 * r + k)).ctl.enable = true → (t.core (32 * r + k)).ctl.run = .running))

/-- The power controller (R726): the fifth sample in a row above 1.1 × the limit lowers the chip point by two, a millisecond above the limit by one, the tenth at or below
0.95 × the limit raises it by one; the first lowering from point 14 records 0x7001, each counts.

Temperatures (R727, R731): a region at 105 °C trips to point 0, from 100 °C it is clamped until below 97 °C; logic at 115 °C halts the device and the rails go, DRAM at
100 °C halts it, a stack at 95 °C is hot until below 90 °C; a cold reset held by a shutdown comes once logic is below 85 °C.

Commands that complete: powerSample, thermalSample. -/
def Obligations.PowerAndTemperature : Prop :=
  (∀ (s : State) (readings : List (Nat × Nat)), s.halt = none → readings.length ≤ 11 →
    let uw := (readings.map (fun x => x.1 * x.2)).foldl (· + ·) 0
    let lim := s.powerLimit * 1000000
    let p := s.pwr
    let sum := (p.samples ++ [uw]).foldl (· + ·) 0
    let lowered := fun (t : State) (k : Nat) => t.pwr.chipPoint = p.chipPoint - k ∧
      (p.chipPoint ≠ 0 → t.pwr.throttled = true ∧ Sparse.get 0 t.counts (ctl 5 0x18) = satAdd 32 (Sparse.get 0 s.counts (ctl 5 0x18)) 1) ∧
      ((p.chipPoint = 14 → (Sparse.get 0 t.errs (ctl 5 0x14)).toNat.testBit 0 = true) ∧ (p.chipPoint ≠ 14 → t.errs = s.errs))
    ∃ t, exec (.powerSample readings) s = .next t ∧
      (p.samples.length < 9 → p.overMs = 4 → 11 * lim < 10 * uw → lowered t 2 ∧ t.pwr.overMs = 0) ∧
      (p.samples.length < 9 → 10 * uw ≤ 11 * lim → t.pwr.chipPoint = p.chipPoint ∧ t.pwr.overMs = 0 ∧ t.pwr.samples = p.samples ++ [uw]) ∧
      (p.samples.length = 9 → 10 * uw ≤ 11 * lim → t.pwr.samples = [] ∧ t.pwr.avg = sum / 10000000 ∧
        (10 * lim < sum → lowered t 1) ∧
        (20 * sum ≤ 190 * lim → (p.under < 9 → t.pwr.chipPoint = p.chipPoint ∧ t.pwr.under = p.under + 1) ∧
          (p.under = 9 → t.pwr.chipPoint = min 14 (p.chipPoint + 1) ∧ t.pwr.under = 0)) ∧
        (sum ≤ 10 * lim → 190 * lim < 20 * sum → t.pwr.chipPoint = p.chipPoint ∧ t.pwr.under = 0))) ∧
  (∀ (s : State) (regions : List Nat) (ld smd : Nat) (dramStacks : List Nat), regions.length ≤ 16 → dramStacks.length ≤ 8 →
    let logic := max (regions.foldl max 0) (max ld smd)
    let dram := dramStacks.foldl max 0
    ∃ t, exec (.thermalSample regions ld smd dramStacks) s = .next t ∧
      (s.pwr.resetHeld = false →
        (∀ r x, regions[r]? = some x →
          (t.regPwr r).temp = min x 2047 ∧ (1050 ≤ x → (t.regPwr r).trip = true ∧ (t.regPwr r).clamped = true ∧
            ((s.regPwr r).trip = false → (s.regPwr r).st = .active ∨ (s.regPwr r).st = .slow → (t.regPwr r).point = 0)) ∧
          (1000 ≤ x → (t.regPwr r).clamped = true) ∧ (x < 970 → ld < 1000 → smd < 1000 → (t.regPwr r).clamped = false)) ∧
        (∀ k x, dramStacks[k]? = some x → (950 ≤ x → t.pwr.hot.toNat.testBit k = true) ∧ (x < 900 → t.pwr.hot.toNat.testBit k = false)) ∧
        t.pwr.logic = min logic 2047 ∧ t.pwr.dram = min dram 2047 ∧
        (s.halt = none → s.pwr.shutdown = false → 1150 ≤ logic → t.halt = some (0x7004, 5) ∧ t.pwr.shutdown = true ∧ (s.pwr.seq = .up → t.pwr.seq = .falling 8)) ∧
        (s.halt = none → logic < 1150 → 1000 ≤ dram → t.halt = some (0x7006, 5)) ∧
        (s.halt = none → logic < 1150 → dram < 1000 → t.halt = none)) ∧
      (s.pwr.resetHeld = true → logic < 850 → t.halt = none ∧ t.keySlots = [] ∧ t.mem.dram = [] ∧ t.pwr.shutdown = false ∧ t.pwr.resetHeld = false))

/-- The input pins (R717, R718, R728, R729): COLD_RST_N and PWRGD bring cold reset, after which the fuses, flash and quarantine map stand and no key, core or memory content
does; a shutdown that is hot holds it; PERST# resets the endpoint, THROTTLE_N brings every active region to point 0; too soon counts, too long is stuck.

The rail sequencer (R794 to R796): groups rise 1 to 8, each once the one before is in range, and fall 8 to 1; a rail out of range brings cold reset, is kept in the AON log of
four, and takes the rails down in order until COLD_RST_N; losing VDD_AON leaves fuses and flash alone.

Commands that complete: coldRstN, pwrgd, perst, throttleN, inputStuck, powerUp, railInRange, railFall, railFault, aonPowerLoss. -/
def Obligations.PinsAndRails : Prop :=
  (∀ s : State,
    let fresh := fun (t : State) => t.halt = none ∧ t.keySlots = [] ∧ t.cores = [] ∧ t.mem.dram = [] ∧ t.regs = [] ∧ t.errs = [] ∧ t.keys.sessions = [] ∧ t.boot.ready = false ∧
      t.boot.flash = s.boot.flash ∧ t.boot.fused = s.boot.fused ∧ t.keys.svnFuses = s.keys.svnFuses ∧ t.mgmt.flash = s.mgmt.flash ∧ t.quarMap = s.quarMap ∧ t.pending = s.pending
    (s.pwr.logic < 850 ∨ s.pwr.shutdown = false → ∃ t, exec (.coldRstN true) s = .next t ∧ fresh t ∧ (t.pin 0).active = true ∧ t.pwr.shutdown = false ∧ t.clock.now = s.clock.now) ∧
    (850 ≤ s.pwr.logic → s.pwr.shutdown = true →
      exec (.coldRstN true) s = .next ((s.setPin 0 { s.pin 0 with active := true }).onPwr (fun p => { p with resetHeld := true }))) ∧
    ((s.pin 0).active = true → exec (.coldRstN false) s = .next ((s.setPin 0 { s.pin 0 with active := false }).onPwr (fun p => { p with latched := false }))) ∧
    ((s.pin 1).active = false → s.pwr.seq = .up →
      ∃ t, exec (.pwrgd true) s = .next t ∧ fresh t ∧ (t.pin 1).active = true ∧ t.pwr.seq = .falling 8) ∧
    (s.halt = none → (s.pin 2).active = false → (s.pin 2).stuck = false → (∀ t, (s.pin 2).accepted = some t → t ≤ s.clock.now) →
      exec (.perst true) s = .next ((s.setPin 2 { active := true, stuck := false, accepted := some s.clock.now, released := none }).pcieReset)) ∧
    (s.halt = none → exec (.perst false) s = .next (s.setPin 2 { s.pin 2 with active := false, released := some s.clock.now })) ∧
    (s.halt = none → ∃ t, exec (.throttleN false) s = .next t ∧ t.pin 4 = { s.pin 4 with active := false, released := some s.clock.now }) ∧
    (s.halt = none → (s.pin 4).active = false →
      ((s.pin 4).stuck = false → (∀ t, (s.pin 4).accepted = some t → t + 1000000 ≤ s.clock.now) →
        ∃ t, exec (.throttleN true) s = .next t ∧ (t.pin 4).active = true ∧ ∀ r, r < 16 → (s.regPwr r).st = .active → (t.regPwr r).point = 0) ∧
      (∀ x, (s.pin 4).stuck = false → (s.pin 4).accepted = some x → s.clock.now < x + 1000000 →
        ∃ t, exec (.throttleN true) s = .next t ∧ t.pin 4 = s.pin 4 ∧ Sparse.get 0 t.counts (ctl 4 0x18) = satAdd 16 (Sparse.get 0 s.counts (ctl 4 0x18)) 1)) ∧
    ∀ k : Fin 5, s.halt = none →
      ((s.pin k).active = true → (s.pin k).stuck = false → k = 3 ∨ k = 4 →
        exec (.inputStuck k) s = .next ((s.setPin k { s.pin k with stuck := true, active := false }).raise 4 (if k = 3 then 0x6003 else 0x6005) 1 k 0)) ∧
      (k.val < 3 → exec (.inputStuck k) s = .next s)) ∧
  (∀ s : State,
    let p := s.pwr
    let good := fun (is : List Nat) (on : Bool) => is.foldl (fun m i => Sparse.update Rail.off m i (fun r => { r with good := on })) p.rails
    (p.seq = .off → (s.pin 1).active = false → p.latched = false → p.shutdown = false →
      exec .powerUp s = .next { s with pwr := { p with rails := good [0] true, seq := .rising 1, enables := 3 } }) ∧
    (p.seq ≠ .off → exec .powerUp s = .next s) ∧
    (∀ g, p.seq = .rising g → g < 8 → exec .railInRange s = .next
      { s with pwr := { p with rails := good (State.groupRails g) true, seq := .rising (g + 1), enables := p.enables ||| State.groupBits (g + 1) } }) ∧
    (p.seq = .rising 8 → exec .railInRange s = .next { s with pwr := { p with rails := good [10] true, seq := .up } }) ∧
    (∀ g, p.seq = .falling g → 1 < g → exec .railFall s = .next
      { s with pwr := { p with rails := good (State.groupRails g) false, seq := .falling (g - 1), enables := p.enables &&& ~~~State.groupBits g &&& ~~~State.groupBits (g - 1) } }) ∧
    (p.seq = .falling 1 → exec .railFall s = .next { s with pwr := { p with rails := good [1, 2] false, seq := .off, enables := 0 } }) ∧
    (∀ (rail : Fin 11) mv, rail ≠ 0 → p.enables.toNat.testBit (rail - 1) = true → p.seq.isFalling = false →
      ∃ t, exec (.railFault rail mv) s = .next t ∧ t.halt = none ∧ t.keySlots = [] ∧ t.pwr.latched = true ∧ (p.aonLog.length ≤ 3 → t.pwr.aonLog = p.aonLog ++ [(rail.val, mv)]) ∧
        t.pwr.aonLog.length ≤ 4 ∧ t.pwr.aonLog.getLast? = some (rail.val, mv) ∧ (p.seq = .up → t.pwr.seq = .falling 8)) ∧
    (∀ rail mv, p.seq.isFalling = true → exec (.railFault rail mv) s = .next s) ∧
    ∃ t, exec .aonPowerLoss s = .next t ∧ t.boot.flash = s.boot.flash ∧ t.boot.fused = s.boot.fused ∧ t.mgmt.flash = s.mgmt.flash ∧ t.clock = FabTime.reset ∧ t.pwr.running = 0 ∧
      t.pwr.aonLog = [] ∧ t.keySlots = [] ∧ t.halt = none ∧ t.pwr.seq = .off)

/-- A sample of the Visor (R753, R757): a monitor's degradation is its normalised reading less its fused value, Δ of the unit the mean over the last second; Δ beyond its plan's
allowance by ALARM_PS for 1 s records 0x700A and re-plans the unit, beyond twice of it holds a region one point lower; a monitor that has disagreed with the ring oscillators by
more than 5 ps for an hour is excluded with 0x700F, and a region with fewer than 6 monitors runs no higher than point 12.

A plan (R754 to R756): each unit and point gets V_start plus Δ + ρ × D times its sensitivity in steps of 5 mV, no more than V_start + 75 mV; a point beyond that is retired
and POINT_MAX put below it; VISOR.CTRL.RUN plans for management, not for the host; an applied plan moves the voltages alone, goes to the other copy in flash and ends in a report
(R758, R759). How a reading is normalised, a point's sensitivity and what an oscillator implies are values of the device (log entries 9 and 117).

Commands that complete: visorSample, visorPeriod, visorRun, visorPlanApply. -/
def Obligations.Visor : Prop :=
  (∀ (s : State) (days u m d : Nat), u < 18 → m < State.monitors u → (u, m) ∉ s.visor.excluded → s.visor.starting = false →
    let g := s.vUnit u
    let x := s.monitorDelta u m d
    let samples := newest 100 (g.samples ++ [x])
    let delta : Int := samples.foldl (· + ·) 0 / samples.length
    let valid := State.monitors u - (s.visor.excluded.filter (fun b => b.1 = u)).length
    let exceeds := fun n : Nat => ∃ p : Int, g.planned = some p ∧
      (p + ((n * (1000 * s.regField (ctl 6 0) 12 8) : Nat) : Int)) * g.rateDays + ((g.rateNum * s.regField (ctl 6 0) 7 0 : Nat) : Int) ≤ delta * g.rateDays
    (∃ t, exec (.visorSample days [(u, m, d)] []) s = .next t ∧ t.visor.days = min days 255 ∧ t.visor.excluded = s.visor.excluded ∧
      (g.planned = none → t.vUnit u = { g with samples := samples, delta := delta, valid := valid }) ∧
      (g.planned ≠ none → ¬ exceeds 1 → t.vUnit u = { g with samples := samples, delta := delta, valid := valid, overSince := none }) ∧
      (exceeds 1 → g.overSince = none → t.vUnit u = { g with samples := samples, delta := delta, valid := valid, overSince := some s.clock.now }) ∧
      (exceeds 2 → u < 16 → (t.regPwr u).alarm = true) ∧
      (∀ t₀, exceeds 1 → g.overSince = some t₀ → t₀ + 1000000000 ≤ s.clock.now → (t.vUnit u).planned = some delta ∧ ∃ es, t.visor.fresh = some (es, 2)) ∧
      (u < 16 → valid < 6 → t.regField (ctl 5 (0x140 + 4 * u)) 3 0 ≤ 12)) ∧
    ∀ ring count, ∃ t, exec (.visorSample days [(u, m, d)] [(u, ring, count)]) s = .next t ∧
      let at_ := s.visorPlace u
      let far := 5000 < (x - Config.ringDelta u [(ring, count)] at_.1 at_.2.1 at_.2.2).natAbs
      (¬ far → t.visor.doubts = s.visor.doubts.filter (fun b => b.1 ≠ (u, m)) ∧ t.visor.excluded = s.visor.excluded) ∧
      (far → s.visor.doubts.find? (fun b => b.1 = (u, m)) = none → t.visor.doubts = s.visor.doubts ++ [((u, m), s.clock.now)] ∧ t.visor.excluded = s.visor.excluded) ∧
      (far → ∀ b, s.visor.doubts.find? (fun b => b.1 = (u, m)) = some b → b.2 + 3600000000000 ≤ s.clock.now →
        t.visor.excluded = s.visor.excluded ++ [(u, m)] ∧ (t.vUnit u).valid = valid - 1)) ∧
  (∀ s : State,
    let period := s.regField (ctl 6 0) 7 0
    let planned := fun (s t : State) (cause : Nat) => ∃ es, t.visor.fresh = some (es, cause) ∧ t.visor.days = 0 ∧ ∀ u k, u < 18 → k ∈ State.points u →
      let g := s.vUnit u
      let rate : Nat × Nat := match g.planned with
        | some p => if s.visor.days ≤ g.planDay then (g.rateNum, g.rateDays) else ((g.delta - p).toNat, s.visor.days - g.planDay)
        | none => (0, 1)
      let v := State.vStart u k + 5 * ceilDiv ((g.delta * (rate.2 : Int) + ((rate.1 * period : Nat) : Int)).toNat * Config.sensitivity u k) (rate.2 * 5000000)
      (u, k, min v (State.vStart u k + 75)) ∈ es ∧
        (State.vStart u k + 75 < v → (u, k) ∈ t.visor.retired ∧ (u < 16 → t.regField (ctl 5 (0x140 + 4 * u)) 3 0 ≤ k - 1))
    (∀ days, days < period → exec (.visorPeriod days) s = .next s) ∧
    (∀ days, period ≤ days → ∃ t, exec (.visorPeriod days) s = .next t ∧ planned { s with visor := { s.visor with days := min days 255 } } t 1) ∧
    (∀ conn id, ∃ t, exec (.visorRun (.mgmt conn id)) s = .next t ∧ planned s t 3) ∧
    exec (.visorRun .host) s = .next (s.refuse .host (ctl 6 0) 0x700E) ∧
    (s.visor.fresh = none → ∀ flashOk, exec (.visorPlanApply flashOk) s = .next s) ∧
    ∀ es cause flashOk, s.visor.fresh = some (es, cause) →
      ∃ t, exec (.visorPlanApply flashOk) s = .next t ∧ t.visor.fresh = none ∧ (∀ e ∈ es, e ∈ t.visor.plan) ∧ t.visor.report = s.visor.report + 1 ∧ t.visor.reportCause = cause ∧
        t.visor.reportTime = s.clock.now ∧ (∀ r, r < 16 → (∃ e ∈ es, e.1 = r) → (t.regPwr r).point = (s.regPwr r).point ∧ (t.regPwr r).alarm = false ∧
          (t.regPwr r).mv = t.planMv r (s.regPwr r).point) ∧
        (flashOk = false → t.visor.copyA = s.visor.copyA ∧ t.visor.copyB = s.visor.copyB ∧ t.visor.inB = s.visor.inB) ∧
        (flashOk = true → t.visor.inB = !s.visor.inB ∧ ∃ c, (if s.visor.inB then t.visor.copyA else t.visor.copyB) = some c ∧ c.plan = t.visor.plan ∧
          c.retired = s.visor.retired ∧ c.count = ((if s.visor.inB then s.visor.copyB else s.visor.copyA).elim 0 VisorCopy.count) + 1 ∧ State.planValid s.visorKey c = true))

/-- The core diagnostic (R780, R784): GO runs on a quarantined core with no stream while no other runs in its region and is refused otherwise; its end gives the verdict,
a failure 0x1015 with the class that failed first.

A loopback run (R765 to R768): a MODE of 1 to 5 on a link that is off starts a run with DONE, PASS and counters clear, one on an enabled link or of an undefined value is
refused; a run's end gives DONE and the verdict of its mode; MODE 4 has no end of its own and shows its counts; MODE 0 before that gives DONE 1 and PASS 0; MODE 3 holds a key in its Cuff for the run.

Field BIST (R771, R772, R775): only under a token with scope DRAM; it destroys the cells' contents; a channel's failing rows are repaired with its
64 spares, and one that has none left is shown in BIST.FAIL with 0x200C and its region held down.

Commands that complete: coreDiag, coreDiagDone, linkLoop, linkLoopEnd, fieldBist. -/
def Obligations.FieldTests : Prop :=
  (∀ (s : State) (rg : BitVec 4) (k : Fin 32), s.halt = none →
    let n := 32 * rg.toNat + k.val
    let t := s.regTest rg.toNat
    ((s.core n).ctl.quar = true → s.placedOn n = false → t.running = none → exec (.coreDiag rg k .crown) s = .next
      (s.setRegTest rg.toNat { t with core := k, running := some k.val, done := false, pass := false, failOp := 0 })) ∧
    ((s.core n).ctl.quar = false ∨ s.placedOn n = true ∨ t.running ≠ none →
      exec (.coreDiag rg k .crown) s = .next (s.refuse .crown (ctl (regionBlock rg.toNat) 0xB04) 0x1006)) ∧
    (∀ op : BitVec 16, t.running = some k.val →
      (∃ u, exec (.coreDiagDone rg true op) s = .next u ∧ u.regTest rg.toNat = { t with running := none, done := true, pass := true, failOp := 0 } ∧
        (u.core n).ctl.diagPassed = true ∧ u.errs = s.errs) ∧
      ∃ u, exec (.coreDiagDone rg false op) s = .next u ∧ u.regTest rg.toNat = { t with running := none, done := true, pass := false, failOp := op.toNat } ∧
        (u.core n).ctl.diagPassed = false) ∧
    (∀ pass op, t.running = none → exec (.coreDiagDone rg pass op) s = .next s)) ∧
  (∀ (s : State) (j : Fin 36) (mode : BitVec 3) (seconds : BitVec 8) (conn id : Nat), s.halt = none →
    let l := s.link j
    let who := Writer.mgmt conn id
    let enabled := (s.reg (ctl (0x20 + j.val) 0)).toNat.testBit 0
    let key := fun (t : State) => (Sparse.get 0 t.keySlots (22 + j.val)).toNat.testBit 0
    (1 ≤ mode.toNat → mode.toNat ≤ 5 → seconds ≠ 0 → enabled = false → l.run = .off → l.loop.mode = 0 →
      ∃ t, exec (.linkLoop j who mode seconds) s = .next t ∧ t.link j = { l with loop := ⟨mode.toNat, seconds.toNat, false, false, 0, 0, l.loop.latched⟩ } ∧ (mode = 3 → key t = true)) ∧
    (5 < mode.toNat ∨ seconds = 0 ∨ mode ≠ 0 ∧ (enabled = true ∨ l.run ≠ .off ∧ l.loop.mode = 0) →
      exec (.linkLoop j who mode seconds) s = .next (s.refuse who (ctl (0x20 + j.val) 0x2C) 0x300D)) ∧
    (seconds ≠ 0 → l.loop.mode ≠ 0 → l.loop.done = false →
      ∃ t, exec (.linkLoop j who 0 seconds) s = .next t ∧ t.link j = { l with loop := ⟨0, seconds.toNat, true, false, 0, 0, false⟩ } ∧ (l.loop.mode = 3 → key t = false) ∧
        (l.loop.latched = true → t.reg (ctl (0x20 + j.val) 0) = 1)) ∧
    ∀ cnt err, (l.loop.mode = 0 ∨ l.loop.done = true → exec (.linkLoopEnd j cnt err) s = .next s) ∧
      (l.loop.mode = 4 → l.loop.done = false → ∃ t, exec (.linkLoopEnd j cnt err) s = .next t ∧
        t.link j = { l with loop := { l.loop with cnt := cnt % 2 ^ 64, err := satAdd 32 0 err } }) ∧
      (l.loop.mode ≠ 0 → l.loop.mode ≠ 4 → l.loop.done = false →
        ∃ t, exec (.linkLoopEnd j cnt err) s = .next t ∧ (l.loop.mode = 3 → key t = false) ∧
          t.link j = { l with loop := { l.loop with done := true, cnt := cnt % 2 ^ 64, err := satAdd 32 0 err,
                                                    pass := if l.loop.mode = 1 then decide (err * 1000000000 ≤ cnt) else decide (err = 0) } })) ∧
  (∀ (s : State) (r c n : Nat), s.halt = none →
    let open_ := s.test.opened = true ∧ s.test.scope.toNat.testBit 3 = true
    let wiped := { s with mem := { s.mem with dram := [], seals := [], flips := [] } }
    let g := s.regTest r
    let used := Sparse.get 0 g.rows c
    (∀ rows, ¬ open_ → exec (.fieldBist rows) s = .next s.drainEngine) ∧
    (open_ → exec (.fieldBist []) s = .next (State.drainEngine wiped)) ∧
    (open_ → r < 16 → c < 16 → 0 < n →
      (used + n ≤ 64 → exec (.fieldBist [(r, c, n)]) s = .next (State.drainEngine (wiped.setRegTest r { g with rows := Sparse.set 0 g.rows c (used + n) }))) ∧
      (64 < used + n → s.boot.held.toNat.testBit r = false → ∃ t, exec (.fieldBist [(r, c, n)]) s = .next (State.drainEngine t) ∧
        (t.regTest r).bistFail = g.bistFail ||| 1#16 <<< c ∧ (t.regTest r).rows = g.rows ∧ t.boot.held.toNat.testBit r = true ∧ (t.regPwr r).st = .held)))

/-- The test access port (R773, R774): IDCODE, BYPASS and DBG_STATUS shift out what they name; an instruction that drives the pins puts a chip without sessions in board test,
and while a session is held it acts as BYPASS with 0x0110.

The debug token (R776 to R778): a nonce serves one token; a token whose fields, digest, nonce and signature are right, unlocked and with no session held, opens the chip for its
SCOPE with every key, path and plaintext store zeroised; any other records 0x010E and the nonce is spent.

Commands that complete: idcode, tapBypass, dbgStatus, samplePreload, extest, extestPulse, extestTrain, tapClamp, tapHighz, dbgChallenge, dbgToken. -/
def Obligations.TestPortAndDebug : Prop :=
  (∀ (s : State) (pins shift : List Bool),
    let out := fun (t : State) (instr : Nat) (bits : List Nat) => ({ t with test := { t.test with tap := instr } }).emit (.tap instr bits)
    let cells := (shift ++ List.replicate 2836 false).take 2836
    let bypassed := out (s.raise 0 0x0110 s.boot.slot 0 s.boot.phase) 0xFF []
    let driven := fun (t : State) (instr : Nat) => t.test.bscan = true ∧ t.test.tap = instr ∧ (s.test.bscan = false → ∀ j, j < 36 → (t.link j).run = .off)
    exec .idcode s = .next (out s 1 [0x25120D6B]) ∧
    exec .tapBypass s = .next (out s 0xFF []) ∧
    exec .dbgStatus s = .next (out s 0x22 [s.debugReg.toNat]) ∧
    exec (.samplePreload pins shift) s = .next (out { s with test := { s.test with cells := cells } } 2 (pins.map b2n)) ∧
    (s.sessionsHeld = true → exec (.extest pins shift) s = .next bypassed ∧ exec (.extestPulse pins shift) s = .next bypassed ∧
      exec (.extestTrain pins shift) s = .next bypassed ∧ exec .tapClamp s = .next bypassed ∧ exec .tapHighz s = .next bypassed) ∧
    (s.sessionsHeld = false →
      (∃ t, exec (.extest pins shift) s = .next (t.emit (.tap 3 (pins.map b2n))) ∧ driven t 3 ∧ t.test.cells = cells) ∧
      (∃ t, exec (.extestPulse pins shift) s = .next (t.emit (.tap 4 (pins.map b2n))) ∧ driven t 4 ∧ t.test.cells = cells) ∧
      (∃ t, exec (.extestTrain pins shift) s = .next (t.emit (.tap 5 (pins.map b2n))) ∧ driven t 5 ∧ t.test.cells = cells) ∧
      (∃ t, exec .tapClamp s = .next (t.emit (.tap 6 [])) ∧ driven t 6 ∧ t.test.cells = s.test.cells) ∧
      ∃ t, exec .tapHighz s = .next (t.emit (.tap 7 [])) ∧ driven t 7 ∧ t.test.cells = s.test.cells)) ∧
  (∀ (s : State) (token : List (BitVec 8)),
    let nonce := (List.range 16).map (fun i => Config.entropy (s.free + i))
    let good := (s.reg (ctl 1 0xC)).toNat.testBit 0 = false ∧ s.sessionsHeld = false ∧ token.length = 192 ∧ token.take 6 = [0x4B, 0x44, 0x42, 0x47, 0, 1] ∧
      field_ token 6 2 ≠ 0 ∧ field_ token 6 2 < 32 ∧ (token.drop 72).take 24 = List.replicate 24 0 ∧ (token.drop 8).take 48 = s.boot.deviceId ∧
      s.test.nonce = some ((token.drop 56).take 16)
    exec .dbgChallenge s = .next (({ s with free := s.free + 16, test := { s.test with nonce := some nonce, tap := 0x20 } }).emit (.tap 0x20 (nonce.map BitVec.toNat))) ∧
    (good → ∃ t, exec (.dbgToken token true) s = .next t ∧ t.test.opened = true ∧ t.test.scope.toNat = field_ token 6 2 ∧ t.test.nonce = none ∧ t.keySlots = [] ∧
      t.keys.secure = [] ∧ t.keys.slotKeys = [] ∧ t.net.paths = [] ∧ (∀ i, i < 8 → (t.session i).seed = none ∧ (t.session i).pairs = []) ∧ (∀ j, j < 36 → (t.link j).run = .off) ∧ (∀ e ∈ t.cores, e.2.sqb = [] ∧ e.2.acc = [] ∧ e.2.v = []) ∧
      ∀ r, r < 16 → (t.region r).rb = [] ∧ (t.region r).cuff.merge = []) ∧
    (∀ sigOk, ¬ good ∨ sigOk = false → exec (.dbgToken token sigOk) s = .next (({ s with test := { s.test with nonce := none, tap := 0x21 } }).raise 0 0x010E s.boot.slot 0 s.boot.phase)))

/-- The words of a core's instructions (R94, R101 to R104, R105, R117, R132, R138, R143): the decoding of an encoded instruction is that instruction with every operand bit it was
given, for every value of the 56 operand bits, and every 64-bit word is the encoding of the one instruction it decodes to. -/
def Obligations.CoreWordsRoundTrip : Prop :=
  (∀ (i : Instr) (cr : BitVec 9) (word : BitVec 64), issuingCore i = some cr → wellFormed i = true → encodeWord i = some word →
    ∃ w ev, decodeCoreWord cr w ev word = i) ∧
  (∀ (cr : BitVec 9) (w : Waits) (ev : CheckEvent) (word : BitVec 64),
    encodeWord (decodeCoreWord cr w ev word) = some word ∧ issuingCore (decodeCoreWord cr w ev word) = some cr ∧ wellFormed (decodeCoreWord cr w ev word) = true)

/-- An integrity halt ends by cold reset alone (R407 to R409): from every state that has halted, every step, of the queue or of the clock, that is not one of those that bring a
cold reset leaves the device halted for the same first cause. -/
def Obligations.HaltStays : Prop :=
  ∀ (s : State) (h : Nat × Nat), s.halt = some h → (∀ c rest, s.pending = c :: rest → resets c = false) →
    ∃ t, step s = .next t ∧ t.halt = some h

/-- What an instruction of a core can reach in its own step (R69, R92 to R99, R407): its core, its region's count of late slots, the record of its codes and the
messages it sends on Brim. Memory, keys, registers,
other cores, links, sessions, the host and every engine are as they were, whatever its operands: operations move bytes by commands of their own. -/
def Obligations.CoresReachOnlyThemselves : Prop :=
  ∀ (i : Instr) (cr : BitVec 9) (s : State), issuingCore i = some cr →
    ∃ t, exec i s = .next t ∧ (∀ m, m ≠ cr.toNat → t.core m = s.core m) ∧ t.mem = s.mem ∧
      (∀ r, (t.region r).ue = (s.region r).ue ∧ (t.region r).cuff = (s.region r).cuff ∧ (t.region r).tc = (s.region r).tc ∧ (t.region r).rb = (s.region r).rb) ∧ t.keys = s.keys ∧ t.keySlots = s.keySlots ∧ t.d2d = s.d2d ∧
      t.regs = s.regs ∧ t.counts = s.counts ∧ t.crown = s.crown ∧ t.net = s.net ∧ t.host = s.host ∧ t.red = s.red ∧ t.ckpt = s.ckpt ∧ t.pwr = s.pwr ∧ t.visor = s.visor ∧
      t.test = s.test ∧ t.clock = s.clock ∧ t.halt = s.halt ∧ t.quarMap = s.quarMap ∧ t.pending = s.pending ∧
      (∀ h, s.halt = some h → t = s)
end

