-- ==== Sys2Proof/Laws/Aes.lean ====
section
/-!
SUPPORT. Laws of AES-256-GCM as the Cuffs use it: a text keeps its length, and deciphering undoes enciphering. A frame sealed for a device passes its check and
gives back its payload.
-/
namespace Sys2Proof.Machine

@[simp] theorem length_xorBytes (x y : Bytes) : (xorBytes x y).length = min x.length y.length := List.length_zipWith

theorem xorBytes_xorBytes (x y : Bytes) (h : x.length ≤ y.length) : xorBytes (xorBytes x y) y = x := by
  refine List.ext_getElem ?_ (fun i _ _ => ?_)
  · simp only [length_xorBytes]; omega
  · simp only [xorBytes, List.getElem_zipWith, BitVec.xor_assoc, BitVec.xor_self, BitVec.xor_zero]

/-- Every word of a key schedule has four bytes. -/
theorem aesExpand_words : ∀ (n i : Nat) (rcon : Byte) (ws : List Bytes), 8 ≤ ws.length → (∀ w ∈ ws, w.length = 4) →
    (aesExpand n i rcon ws).length = n + ws.length ∧ ∀ w ∈ aesExpand n i rcon ws, w.length = 4
  | 0, _, _, ws, _, h => by simp only [aesExpand, Nat.zero_add]; exact ⟨trivial, h⟩
  | n + 1, i, rcon, ws, hl, h => by
    have pick (k : Nat) (hk : k < ws.length) : ((ws.drop k).headD []).length = 4 := by
      rw [List.drop_eq_getElem_cons hk]; exact h _ (List.getElem_mem hk)
    have last := pick 0 (by omega)
    have old := pick 7 (by omega)
    simp only [List.drop_zero] at last
    unfold aesExpand
    refine (aesExpand_words n _ _ _ (by simp only [List.length_cons]; omega) (fun w hw => ?_)).imp (fun e => ?_) id
    · rcases List.mem_cons.mp hw with rfl | hw
      · simp only [length_xorBytes, old]
        split
        · simp only [length_xorBytes, List.length_map, List.length_append, List.length_drop, List.length_take, last, List.length_cons, List.length_nil]; rfl
        · split <;> simp only [List.length_map, last] <;> rfl
      · exact h w hw
    · rw [e, List.length_cons]; omega

theorem length_aesWith (ks : List Bytes) (b : Bytes) : (aesWith ks b).length = min 16 ((ks.drop 14).headD []).length := by
  simp only [aesWith, length_xorBytes, pick, List.length_map]; rfl

/-- A block under the round keys of a whole key has sixteen bytes. -/
theorem length_block (key : Bytes) (b : Bytes) (h : 32 ≤ key.length) : (aesWith (aesKeys key) b).length = 16 := by
  have first : ∀ w ∈ ((List.range 8).map (fun i => (key.drop (4 * i)).take 4)).reverse, w.length = 4 := by
    intro w hw
    simp only [List.mem_reverse, List.mem_map, List.mem_range] at hw
    obtain ⟨i, hi, rfl⟩ := hw
    simp only [List.length_take, List.length_drop]; omega
  have e := aesExpand_words 52 8 1 _ (by simp) first
  have four : ∀ ws : List Bytes, ws.length = 4 → (∀ w ∈ ws, w.length = 4) → ws.flatten.length = 16 := by
    intro ws hl hw
    rw [List.length_flatten, (List.eq_replicate_iff.mpr ⟨(List.length_map (as := ws) List.length), fun x hx => ?_⟩ : ws.map List.length = List.replicate ws.length 4), hl]
    · rfl
    · obtain ⟨w, hm, rfl⟩ := List.mem_map.mp hx; exact hw w hm
  have last : (((aesKeys key).drop 14).headD []).length = 16 := by
    have k : ((aesKeys key).drop 14).headD [] = (((aesExpand 52 8 1 ((List.range 8).map (fun i => (key.drop (4 * i)).take 4)).reverse).reverse.drop 56).take 4).flatten := rfl
    rw [k]
    refine four _ ?_ (fun w hw => e.2 w ?_)
    · simp only [List.length_take, List.length_drop, List.length_reverse, e.1, List.length_map, List.length_range]; rfl
    · exact List.mem_reverse.mp (List.mem_of_mem_drop (List.mem_of_mem_take hw))
  rw [length_aesWith, last]; rfl

theorem length_gcmStream (key iv : Bytes) (n : Nat) (h : 32 ≤ key.length) : n ≤ (gcmStream (aesKeys key) iv n).length := by
  simp only [gcmStream, List.length_flatMap, length_block key _ h, List.map_const', List.length_range, List.sum_replicate_nat]
  unfold ceilDiv; omega

/-- A tag has sixteen bytes. -/
theorem length_gcmTag (key iv aad ct : Bytes) (h : 32 ≤ key.length) : (gcmTag key iv aad ct).length = 16 := by
  simp only [gcmTag, length_xorBytes, length_block key _ h, ghash, beBytes, List.length_reverse, leBytes]; rfl

/-- A text under GCM keeps its length. -/
theorem length_gcmText (key iv text : Bytes) (h : 32 ≤ key.length) : (gcmText key iv text).length = text.length := by
  have := length_gcmStream key iv text.length h
  simp only [gcmText, length_xorBytes]; omega

/-- Deciphering undoes enciphering. -/
theorem gcmText_gcmText (key iv text : Bytes) (h : 32 ≤ key.length) : gcmText key iv (gcmText key iv text) = text := by
  have l := length_gcmText key iv text h
  have s := length_gcmStream key iv text.length h
  unfold gcmText at l ⊢
  rw [l]
  exact xorBytes_xorBytes _ _ s

namespace State

/-- A frame as its sender seals it, under the keys that the receiving device holds for the path (R483). -/
def sealedFor (s : State) (f : RxFrame) (type : Nat) : RxFrame :=
  let x := s.rxSeal f type
  { f with payload := gcmText x.1 x.2.1 f.payload, tag := gcmTag x.1 x.2.1 x.2.2 (gcmText x.1 x.2.1 f.payload) }

theorem rxSeal_sealedFor (s : State) (f : RxFrame) (type t : Nat) (h : 32 ≤ (s.rxSeal f type).1.length) : s.rxSeal (s.sealedFor f type) t = s.rxSeal f t := by
  have l := length_gcmText (s.rxSeal f type).1 (s.rxSeal f type).2.1 f.payload h
  unfold rxSeal at l ⊢
  simp only [sealedFor, rxSeal] at l ⊢
  rw [l]; rfl

/-- A frame so sealed carries the tag that the device looks for. -/
theorem frameTagOk_sealedFor (s : State) (f : RxFrame) (type : Nat) (h : 32 ≤ (s.rxSeal f type).1.length) : s.frameTagOk (s.sealedFor f type) type = true := by
  simp only [frameTagOk, rxSeal_sealedFor s f type type h, decide_eq_true_eq]; rfl

/-- The device deciphers its payload. -/
theorem frameText_sealedFor (s : State) (f : RxFrame) (type : Nat) (h : 32 ≤ (s.rxSeal f type).1.length) : s.frameText (s.sealedFor f type) = f.payload := by
  have k : (s.rxSeal f 0).1 = (s.rxSeal f type).1 ∧ (s.rxSeal f 0).2.1 = (s.rxSeal f type).2.1 := ⟨rfl, rfl⟩
  simp only [frameText, rxSeal_sealedFor s f type 0 h]
  rw [k.1, k.2]
  exact gcmText_gcmText _ _ _ h

end State
end Sys2Proof.Machine
end

