-- ==== Sys2Proof/Laws/Flits.lean ====
section
/-!
SUPPORT. Laws of flits: one that leaves under a key, a salt and a counter passes the receiver's checks under the same three.
-/
namespace Sys2Proof.Machine

theorem crcStep_lt {c : Nat} (h : c < 2 ^ 32) : (if c.testBit 0 then (c >>> 1) ^^^ 0xEDB88320 else c >>> 1) < 2 ^ 32 := by
  have hs : c >>> 1 < 2 ^ 32 := by simp only [Nat.shiftRight_eq_div_pow]; omega
  split
  · exact Nat.xor_lt_two_pow hs (by decide)
  · exact hs

theorem crcByte_lt {c : Nat} (b : Byte) (h : c < 2 ^ 32) : crcByte c b < 2 ^ 32 := by
  unfold crcByte
  refine List.foldlRecOn _ _ (motive := fun c : Nat => c < 2 ^ 32) ?_ (fun c hc _ _ => crcStep_lt hc)
  exact Nat.xor_lt_two_pow h (by have := b.isLt; omega)

/-- A CRC-32 has 32 bits. -/
theorem crc32_lt (m : Bytes) : crc32 m < 2 ^ 32 := by
  unfold crc32
  refine Nat.xor_lt_two_pow ?_ (by decide)
  exact List.foldlRecOn m _ (motive := fun c : Nat => c < 2 ^ 32) (by decide) (fun c hc b _ => crcByte_lt b hc)

namespace State

@[simp] theorem flitCrcOk_sealFlit (key salt ctr : Nat) (h : BitVec 64) (payload : Bytes) : flitCrcOk (sealFlit key salt ctr h payload) = true := by
  simp only [flitCrcOk, sealFlit, BitVec.toNat_ofNat, decide_eq_true_eq]
  exact Nat.mod_eq_of_lt (crc32_lt _)

@[simp] theorem flitTagOk_sealFlit (key salt ctr : Nat) (h : BitVec 64) (payload : Bytes) : flitTagOk key salt ctr (sealFlit key salt ctr h payload) = true := by
  simp [flitTagOk, sealFlit]

@[simp] theorem sealFlit_header (key salt ctr : Nat) (h : BitVec 64) (payload : Bytes) : (sealFlit key salt ctr h payload).header = h := rfl

end State
end Sys2Proof.Machine
end

