-- ==== Sys2Proof/Laws/Sparse.lean ====
section
/-!
SUPPORT. Laws of the sparse map: what a read gives after a write, and that every operation keeps the canonical form.
-/
namespace Sys2Proof.Sparse
variable {α : Type} [DecidableEq α]

theorem wfFrom_mono (d : α) {lo lo' : Nat} (h : lo' ≤ lo) : ∀ {m : Sparse α}, wfFrom d lo m = true → wfFrom d lo' m = true
  | [], _ => rfl
  | (j, v) :: m, hm => by
    simp only [wfFrom, Bool.and_eq_true, decide_eq_true_eq] at hm ⊢
    exact ⟨⟨by omega, hm.1.2⟩, hm.2⟩

omit [DecidableEq α] in
theorem get_filter (d : α) (q : Nat → Bool) (k : Nat) : ∀ m : Sparse α,
    get d (m.filter (fun e => q e.1)) k = if q k then get d m k else d
  | [] => by simp [get]
  | (j, v) :: m => by
    have ih := get_filter d q k m
    by_cases hj : q j = true
    · by_cases hk : k = j
      · subst hk; simp [hj, get]
      · simp [hj, get, hk, ih]
    · by_cases hk : k = j
      · subst hk
        simp only [List.filter_cons, hj, get]
        simpa [hj] using ih
      · simp [hj, get, hk, ih]

omit [DecidableEq α] in
theorem get_erase (d : α) (m : Sparse α) (k i : Nat) : get d (erase m k) i = if i = k then d else get d m i := by
  have h := get_filter d (fun j => decide (j ≠ k)) i m
  unfold erase
  rw [h]
  by_cases hi : i = k <;> simp [hi]

omit [DecidableEq α] in
theorem get_insert (d v : α) (k i : Nat) : ∀ m : Sparse α, get d (insert m k v) i = if i = k then v else get d m i
  | [] => by simp [insert, get]
  | (j, w) :: m => by
    have ih := get_insert d v k i m
    simp only [insert]
    split
    · simp [get]
    · split
      · rename_i h; subst h; by_cases hi : i = k <;> simp [get, hi]
      · simp only [get, ih]
        by_cases hi : i = j
        · subst hi; rename_i h1 h2; simp; intro h; exact absurd h.symm h2
        · simp [hi]

/-- A read after a write. -/
@[simp] theorem get_set (d : α) (m : Sparse α) (k i : Nat) (v : α) : get d (set d m k v) i = if i = k then v else get d m i := by
  unfold set
  split
  · rename_i h; subst h; rw [get_erase]
  · rw [get_insert, get_erase]; by_cases hi : i = k <;> simp [hi]

theorem get_set_same (d : α) (m : Sparse α) (k : Nat) (v : α) : get d (set d m k v) k = v := by simp

theorem get_set_other (d : α) (m : Sparse α) {k i : Nat} (v : α) (h : i ≠ k) : get d (set d m k v) i = get d m i := by simp [h]

@[simp] theorem get_update (d : α) (m : Sparse α) (k i : Nat) (f : α → α) :
    get d (update d m k f) i = if i = k then f (get d m k) else get d m i := by simp [update]

theorem wfFrom_filter (d : α) (q : Nat × α → Bool) : ∀ {lo : Nat} {m : Sparse α}, wfFrom d lo m = true → wfFrom d lo (m.filter q) = true
  | _, [], _ => rfl
  | lo, (j, v) :: m, h => by
    simp only [wfFrom, Bool.and_eq_true, decide_eq_true_eq] at h
    have ih := wfFrom_filter d q h.2
    by_cases hq : q (j, v) = true
    · simp only [List.filter_cons, hq, if_true, wfFrom, Bool.and_eq_true, decide_eq_true_eq]
      exact ⟨h.1, ih⟩
    · simp only [List.filter_cons, hq]
      exact wfFrom_mono d (by omega) ih

theorem wfFrom_insert (d v : α) (hv : v ≠ d) (k : Nat) : ∀ {lo : Nat} {m : Sparse α}, lo ≤ k → wfFrom d lo m = true →
    wfFrom d lo (insert m k v) = true
  | lo, [], hk, _ => by simp [insert, wfFrom, hk, hv]
  | lo, (j, w) :: m, hk, h => by
    simp only [wfFrom, Bool.and_eq_true, decide_eq_true_eq] at h
    simp only [insert]
    split
    · simp only [wfFrom, Bool.and_eq_true, decide_eq_true_eq]
      exact ⟨⟨hk, hv⟩, ⟨by omega, h.1.2⟩, h.2⟩
    · split
      · rename_i h2
        simp only [wfFrom, Bool.and_eq_true, decide_eq_true_eq]
        exact ⟨⟨hk, hv⟩, h2 ▸ h.2⟩
      · simp only [wfFrom, Bool.and_eq_true, decide_eq_true_eq]
        exact ⟨h.1, wfFrom_insert d v hv k (by omega) h.2⟩

theorem wf_erase {d : α} {m : Sparse α} (h : wf d m = true) (k : Nat) : wf d (erase m k) = true := wfFrom_filter d _ h

/-- A write keeps the canonical form. -/
theorem wf_set {d : α} {m : Sparse α} (h : wf d m = true) (k : Nat) (v : α) : wf d (set d m k v) = true := by
  unfold set
  split
  · exact wf_erase h k
  · rename_i hv; exact wfFrom_insert d v hv k (Nat.zero_le k) (wf_erase h k)

theorem wf_update {d : α} {m : Sparse α} (h : wf d m = true) (k : Nat) (f : α → α) : wf d (update d m k f) = true := wf_set h k _

theorem wf_filter {d : α} {m : Sparse α} (h : wf d m = true) (q : Nat × α → Bool) : wf d (m.filter q) = true := wfFrom_filter d q h

omit [DecidableEq α] in
/-- Keys below the start are not listed. -/
theorem get_below (d : α) {k : Nat} : ∀ {m : Sparse α}, (∀ e ∈ m, e.1 ≠ k) → get d m k = d
  | [], _ => rfl
  | (j, v) :: m, h => by
    have h1 : k ≠ j := fun e => h (j, v) (by simp) e.symm
    simp only [get, h1, if_false]
    exact get_below d (fun e he => h e (by simp [he]))

omit [DecidableEq α] in
theorem get_append (d : α) (k : Nat) (n : Sparse α) : ∀ m : Sparse α,
    get d (m ++ n) k = if m.any (fun e => decide (e.1 = k)) then get d m k else get d n k
  | [] => by simp
  | (j, w) :: m => by
    have ih := get_append d k n m
    by_cases hk : k = j
    · subst hk; simp [get]
    · have : ¬ j = k := fun h => hk h.symm
      rw [List.cons_append, get, if_neg hk, ih, get, if_neg hk, List.any_cons]
      simp only [this, decide_false, Bool.false_or]

theorem run_key (d : α) : ∀ (vs : List α) (a : Nat) (e : Nat × α), e ∈ run d a vs → a ≤ e.1 ∧ e.1 < a + vs.length
  | [], _, _, h => by simp [run] at h
  | v :: vs, a, e, h => by
    simp only [run] at h
    split at h
    · have := run_key d vs (a + 1) e h; simp only [List.length_cons]; omega
    · rcases List.mem_cons.1 h with h | h
      · subst h; simp
      · have := run_key d vs (a + 1) e h; simp only [List.length_cons]; omega

theorem get_run (d : α) : ∀ (vs : List α) (a k : Nat), get d (run d a vs) k = if a ≤ k then vs.getD (k - a) d else d
  | [], a, k => by simp [run, get]
  | v :: vs, a, k => by
    have ih := get_run d vs (a + 1) k
    simp only [run]
    by_cases hk : k = a
    · subst hk
      split
      · rename_i hv
        rw [ih, if_neg (by omega)]; simp [hv]
      · simp [get]
    · have hs : get d (run d (a + 1) vs) k = if a ≤ k then (v :: vs).getD (k - a) d else d := by
        rw [ih]
        by_cases ha : a ≤ k
        · have h1 : a + 1 ≤ k := by omega
          have h2 : k - a = (k - (a + 1)) + 1 := by omega
          simp [ha, h1, h2]
        · have h1 : ¬ a + 1 ≤ k := by omega
          simp [ha, h1]
      split
      · exact hs
      · simp only [get, hk, if_false]; exact hs

theorem wfFrom_run (d : α) : ∀ (vs : List α) (a lo : Nat), lo ≤ a → wfFrom d lo (run d a vs) = true
  | [], _, _, _ => rfl
  | v :: vs, a, lo, h => by
    simp only [run]
    split
    · exact wfFrom_run d vs (a + 1) lo (by omega)
    · rename_i hv
      simp only [wfFrom, Bool.and_eq_true, decide_eq_true_eq]
      exact ⟨⟨h, hv⟩, wfFrom_run d vs (a + 1) (a + 1) (Nat.le_refl _)⟩

theorem wfFrom_append (d : α) (b : Nat) : ∀ {m n : Sparse α} {lo : Nat}, wfFrom d lo m = true → wfFrom d b n = true → lo ≤ b →
    (∀ e ∈ m, e.1 < b) → wfFrom d lo (m ++ n) = true
  | [], n, lo, _, hn, hb, _ => by simpa using wfFrom_mono d hb hn
  | (j, v) :: m, n, lo, hm, hn, hb, hlt => by
    simp only [wfFrom, Bool.and_eq_true, decide_eq_true_eq] at hm
    simp only [List.cons_append, wfFrom, Bool.and_eq_true, decide_eq_true_eq]
    have hj : j < b := hlt (j, v) (by simp)
    exact ⟨hm.1, wfFrom_append d b hm.2 hn (by omega) (fun e he => hlt e (by simp [he]))⟩

theorem wfFrom_above (d : α) (b : Nat) : ∀ {m : Sparse α} {lo : Nat}, wfFrom d lo m = true → (∀ e ∈ m, b ≤ e.1) → wfFrom d b m = true
  | [], _, _, _ => rfl
  | (j, v) :: m, lo, h, hb => by
    simp only [wfFrom, Bool.and_eq_true, decide_eq_true_eq] at h ⊢
    exact ⟨⟨hb (j, v) (by simp), h.1.2⟩, h.2⟩

/-- Writing consecutive values keeps the canonical form. -/
theorem wf_setRun {d : α} {m : Sparse α} (h : wf d m = true) (a : Nat) (vs : List α) : wf d (setRun d m a vs) = true := by
  unfold setRun wf
  refine wfFrom_append d (a + vs.length) (wfFrom_append d a (wfFrom_filter d _ h) (wfFrom_run d vs a a (Nat.le_refl _)) (Nat.zero_le _) ?_)
    (wfFrom_above d _ (wfFrom_filter d _ h) ?_) (Nat.zero_le _) ?_
  · intro e he; simpa using (List.mem_filter.1 he).2
  · intro e he; simpa using (List.mem_filter.1 he).2
  · intro e he
    rcases List.mem_append.1 he with he | he
    · have := (List.mem_filter.1 he).2; simp at this; omega
    · exact (run_key d vs a e he).2

/-- A read after consecutive writes. -/
theorem get_setRun (d : α) (m : Sparse α) (a : Nat) (vs : List α) (k : Nat) :
    get d (setRun d m a vs) k = if a ≤ k ∧ k < a + vs.length then vs.getD (k - a) d else get d m k := by
  have f1 := get_filter d (fun j => decide (j < a)) k m
  have f2 := get_filter d (fun j => decide (a + vs.length ≤ j)) k m
  unfold setRun
  rw [List.append_assoc, get_append]
  split
  · rename_i h
    obtain ⟨e, he, hek⟩ := List.any_eq_true.1 h
    have hk : k < a := by
      have := (List.mem_filter.1 he).2
      simp only [decide_eq_true_eq] at this hek; omega
    rw [f1]; simp [hk, Nat.not_le.2 hk]
  · rename_i h
    rw [get_append]
    by_cases hlo : k < a
    · have g1 : get d (m.filter (fun e => decide (e.1 < a))) k = d := by
        apply get_below; intro e he hek
        exact h (List.any_eq_true.2 ⟨e, he, by simpa using hek⟩)
      rw [f1] at g1
      have hr : ¬ (run d a vs).any (fun e => decide (e.1 = k)) = true := by
        intro hh
        obtain ⟨e, he, hek⟩ := List.any_eq_true.1 hh
        have := run_key d vs a e he
        simp only [decide_eq_true_eq] at hek; omega
      rw [if_neg hr, f2]
      simp only [hlo, decide_true, if_true] at g1
      have h1 : ¬ a + vs.length ≤ k := by omega
      have h2 : ¬ a ≤ k := by omega
      simp [h1, h2, g1]
    · by_cases hhi : k < a + vs.length
      · have hin : a ≤ k ∧ k < a + vs.length := by omega
        rw [if_pos hin]
        split
        · rw [get_run]; simp [hin.1]
        · rename_i hn
          have g : get d (run d a vs) k = d := by
            apply get_below; intro e he hek
            exact hn (List.any_eq_true.2 ⟨e, he, by simpa using hek⟩)
          rw [get_run] at g; simp only [hin.1, if_true] at g
          rw [f2]
          have h1 : ¬ a + vs.length ≤ k := by omega
          simp only [h1, decide_false]; simpa using g.symm
      · have hr : ¬ (run d a vs).any (fun e => decide (e.1 = k)) = true := by
          intro hh
          obtain ⟨e, he, hek⟩ := List.any_eq_true.1 hh
          have := run_key d vs a e he
          simp only [decide_eq_true_eq] at hek; omega
        rw [if_neg hr, f2]
        have h1 : a + vs.length ≤ k := by omega
        have h2 : ¬ (a ≤ k ∧ k < a + vs.length) := by omega
        simp [h1, h2]

omit [DecidableEq α] in
/-- The consecutive values are the single ones. -/
theorem getRun_eq (d : α) (m : Sparse α) (a n : Nat) : getRun d m a n = (List.range n).map (fun i => get d m (a + i)) := by
  unfold getRun
  apply List.map_congr_left
  intro i hi
  have hi : i < n := List.mem_range.1 hi
  have h := get_filter d (fun j => decide (a ≤ j ∧ j < a + n)) (a + i) m
  rw [h]
  have : a ≤ a + i ∧ a + i < a + n := by omega
  simp [this]

omit [DecidableEq α] in
@[simp] theorem length_getRun (d : α) (m : Sparse α) (a n : Nat) : (getRun d m a n).length = n := by simp [getRun_eq]

omit [DecidableEq α] in
theorem getD_getRun (d : α) (m : Sparse α) (a n i : Nat) (h : i < n) (x : α) : (getRun d m a n).getD i x = get d m (a + i) := by
  simp [getRun_eq, List.getD_eq_getElem?_getD, h]

/-- Values written and read back. -/
theorem getRun_setRun_same (d : α) (m : Sparse α) (a : Nat) (vs : List α) : getRun d (setRun d m a vs) a vs.length = vs := by
  rw [getRun_eq]
  apply List.ext_getElem
  · simp
  · intro i h1 h2
    have hi : i < vs.length := h2
    simp [get_setRun, hi]

/-- A run apart from the one written is as before. -/
theorem getRun_setRun_other (d : α) (m : Sparse α) (a : Nat) (vs : List α) (b n : Nat) (h : b + n ≤ a ∨ a + vs.length ≤ b) :
    getRun d (setRun d m a vs) b n = getRun d m b n := by
  rw [getRun_eq, getRun_eq]
  apply List.map_congr_left
  intro i hi
  have hi : i < n := List.mem_range.1 hi
  rw [get_setRun]
  have : ¬ (a ≤ b + i ∧ b + i < a + vs.length) := by omega
  simp [this]

end Sys2Proof.Sparse
end

