-- ==== Sys2Proof/Laws/Memory.lean ====
section
/-!
SUPPORT. Laws of bonded memory: what a read gives after a write, records after an update, lookups, and that every operation keeps the canonical form.
-/
namespace Sys2Proof.Machine.Memory

/-! Bytes. -/

theorem read_write_same (m : Memory) (p off : Nat) (bs : List (BitVec 8)) : (m.write p off bs).read p off bs.length = bs := by
  simp only [read, write, Sparse.getRun_setRun_same]

theorem read_write_other (m : Memory) (p off q o n : Nat) (bs : List (BitVec 8))
    (h : q * pageSize + o + n ≤ p * pageSize + off ∨ p * pageSize + off + bs.length ≤ q * pageSize + o) :
    (m.write p off bs).read q o n = m.read q o n := by
  simp only [read, write, Sparse.getRun_setRun_other _ _ _ _ _ _ h]

@[simp] theorem length_read (m : Memory) (p off n : Nat) : (m.read p off n).length = n := by simp [read]

/-! Records. -/

@[simp] theorem record_setRecord (m : Memory) (p q : Nat) (r : PrtRec) : (m.setRecord p r).record q = if q = p then r else m.record q := by
  simp [record, setRecord]

@[simp] theorem record_onRecord (m : Memory) (p q : Nat) (f : PrtRec → PrtRec) :
    (m.onRecord p f).record q = if q = p then f (m.record p) else m.record q := by simp [onRecord]

@[simp] theorem record_write (m : Memory) (p off q : Nat) (bs : List (BitVec 8)) : (m.write p off bs).record q = m.record q := rfl
@[simp] theorem read_setRecord (m : Memory) (p q off n : Nat) (r : PrtRec) : (m.setRecord p r).read q off n = m.read q off n := rfl
@[simp] theorem read_onRecord (m : Memory) (p q off n : Nat) (f : PrtRec → PrtRec) : (m.onRecord p f).read q off n = m.read q off n := rfl

/-! A lookup reads the records alone. -/

theorem record_dram (m : Memory) (d : Sparse Byte) (p : Nat) : record { m with dram := d } p = m.record p := rfl

theorem walk_dram (m : Memory) (d : Sparse Byte) (part vpage : Nat) : ∀ (n : Nat) (i : Option Nat) (k : Nat),
    walk { m with dram := d } part vpage n i k = walk m part vpage n i k
  | 0, _, _ => rfl
  | n + 1, none, k => rfl
  | n + 1, some i, k => by
    simp only [walk]
    rw [walk_dram m d part vpage n]
    rfl

theorem lookup_dram (m : Memory) (d : Sparse Byte) (part vpage : Nat) : lookup { m with dram := d } part vpage = lookup m part vpage := by
  simp only [lookup, walk_dram]
  rfl

theorem lookup_write (m : Memory) (p off part vpage : Nat) (bs : List (BitVec 8)) : (m.write p off bs).lookup part vpage = m.lookup part vpage :=
  lookup_dram m _ part vpage

/-! The canonical form. -/

theorem wf_iff (m : Memory) : m.wf = true ↔
    Sparse.wf 0 m.dram = true ∧ Sparse.wf Seal.blank m.seals = true ∧ Sparse.wf [] m.flips = true ∧ Sparse.wf PrtRec.free m.prt = true := by
  simp [wf, and_assoc]

theorem wf_reset : Memory.reset.wf = true := rfl

theorem wf_write {m : Memory} (h : m.wf = true) (p off : Nat) (bs : List (BitVec 8)) : (m.write p off bs).wf = true := by
  rw [wf_iff] at *
  exact ⟨Sparse.wf_setRun h.1 _ _, h.2⟩

theorem wf_sealLines {m : Memory} (h : m.wf = true) (p i : Nat) (xs : List Seal) : (m.sealLines p i xs).wf = true := by
  rw [wf_iff] at *
  exact ⟨h.1, Sparse.wf_setRun h.2.1 _ _, Sparse.wf_filter h.2.2.1 _, h.2.2.2⟩

theorem wf_flipSymbol {m : Memory} (h : m.wf = true) (p i k : Nat) (x : Byte) : (m.flipSymbol p i k x).wf = true := by
  rw [wf_iff] at *
  refine ⟨h.1, h.2.1, ?_, h.2.2.2⟩
  simp only [flipSymbol]
  exact Sparse.wf_update h.2.2.1 _ _

theorem wf_setRecord {m : Memory} (h : m.wf = true) (p : Nat) (r : PrtRec) : (m.setRecord p r).wf = true := by
  rw [wf_iff] at *
  exact ⟨h.1, h.2.1, h.2.2.1, Sparse.wf_set h.2.2.2 _ _⟩

theorem wf_onRecord {m : Memory} (h : m.wf = true) (p : Nat) (f : PrtRec → PrtRec) : (m.onRecord p f).wf = true := wf_setRecord h p _

theorem wf_link {m m' : Memory} (h : m.wf = true) (p : Nat) (f : PrtRec → PrtRec) (hl : m.link p f = some m') : m'.wf = true := by
  unfold link at hl
  dsimp only at hl
  split at hl
  · cases hl
  · cases hl; exact wf_onRecord (wf_setRecord h _ _) _ _

theorem wf_unlink {m : Memory} (h : m.wf = true) (p : Nat) : (m.unlink p).wf = true := by
  unfold unlink
  refine List.foldlRecOn _ _ (motive := fun m : Memory => m.wf = true) ?_ ?_
  · split
    · exact wf_onRecord h _ _
    · exact h
  · intro m' hm i _
    split
    · exact wf_onRecord hm _ _
    · exact hm

/-- A page linked at a virtual page of its partition is written into its own record and its bucket's anchor alone. -/
theorem link_read {m m' : Memory} {p : Nat} {f : PrtRec → PrtRec} (hl : m.link p f = some m') : m'.dram = m.dram ∧ m'.salt = m.salt := by
  unfold link at hl
  dsimp only at hl
  split at hl
  · cases hl
  · cases hl; exact ⟨rfl, rfl⟩

theorem unlink_dram (m : Memory) (p : Nat) : (m.unlink p).dram = m.dram := by
  unfold unlink
  refine List.foldlRecOn _ _ (motive := fun m' : Memory => m'.dram = m.dram) ?_ ?_
  · split <;> rfl
  · intro m' hm i _
    split
    · exact hm
    · exact hm

end Sys2Proof.Machine.Memory
end

