-- ==== Sys2Proof/Laws/State.lean ====
section
/-!
SUPPORT. What each update of the device or of a core leaves as it was, field by field, and what a read gives after an update.
-/
namespace Sys2Proof.Machine
namespace State

/-! setCore -/
@[simp] theorem setCore_pending (s : State) (n : Nat) (c : Core) : (s.setCore n c).pending = s.pending := rfl
@[simp] theorem setCore_regions (s : State) (n : Nat) (c : Core) : (s.setCore n c).regions = s.regions := rfl
@[simp] theorem setCore_mem (s : State) (n : Nat) (c : Core) : (s.setCore n c).mem = s.mem := rfl
@[simp] theorem setCore_keySlots (s : State) (n : Nat) (c : Core) : (s.setCore n c).keySlots = s.keySlots := rfl
@[simp] theorem setCore_d2d (s : State) (n : Nat) (c : Core) : (s.setCore n c).d2d = s.d2d := rfl
@[simp] theorem setCore_regs (s : State) (n : Nat) (c : Core) : (s.setCore n c).regs = s.regs := rfl
@[simp] theorem setCore_errs (s : State) (n : Nat) (c : Core) : (s.setCore n c).errs = s.errs := rfl
@[simp] theorem setCore_counts (s : State) (n : Nat) (c : Core) : (s.setCore n c).counts = s.counts := rfl
@[simp] theorem setCore_keys (s : State) (n : Nat) (c : Core) : (s.setCore n c).keys = s.keys := rfl
@[simp] theorem setCore_crown (s : State) (n : Nat) (c : Core) : (s.setCore n c).crown = s.crown := rfl
@[simp] theorem setCore_brim (s : State) (n : Nat) (c : Core) : (s.setCore n c).brim = s.brim := rfl
@[simp] theorem setCore_mgmt (s : State) (n : Nat) (c : Core) : (s.setCore n c).mgmt = s.mgmt := rfl
@[simp] theorem setCore_net (s : State) (n : Nat) (c : Core) : (s.setCore n c).net = s.net := rfl
@[simp] theorem setCore_host (s : State) (n : Nat) (c : Core) : (s.setCore n c).host = s.host := rfl
@[simp] theorem setCore_boot (s : State) (n : Nat) (c : Core) : (s.setCore n c).boot = s.boot := rfl
@[simp] theorem setCore_red (s : State) (n : Nat) (c : Core) : (s.setCore n c).red = s.red := rfl
@[simp] theorem setCore_ckpt (s : State) (n : Nat) (c : Core) : (s.setCore n c).ckpt = s.ckpt := rfl
@[simp] theorem setCore_pwr (s : State) (n : Nat) (c : Core) : (s.setCore n c).pwr = s.pwr := rfl
@[simp] theorem setCore_visor (s : State) (n : Nat) (c : Core) : (s.setCore n c).visor = s.visor := rfl
@[simp] theorem setCore_test (s : State) (n : Nat) (c : Core) : (s.setCore n c).test = s.test := rfl
@[simp] theorem setCore_clock (s : State) (n : Nat) (c : Core) : (s.setCore n c).clock = s.clock := rfl
@[simp] theorem setCore_halt (s : State) (n : Nat) (c : Core) : (s.setCore n c).halt = s.halt := rfl
@[simp] theorem setCore_haltLow (s : State) (n : Nat) (c : Core) : (s.setCore n c).haltLow = s.haltLow := rfl
@[simp] theorem setCore_werr (s : State) (n : Nat) (c : Core) : (s.setCore n c).werr = s.werr := rfl
@[simp] theorem setCore_quarMap (s : State) (n : Nat) (c : Core) : (s.setCore n c).quarMap = s.quarMap := rfl
@[simp] theorem setCore_out (s : State) (n : Nat) (c : Core) : (s.setCore n c).out = s.out := rfl
@[simp] theorem setCore_free (s : State) (n : Nat) (c : Core) : (s.setCore n c).free = s.free := rfl

/-! mapCore -/
@[simp] theorem mapCore_pending (s : State) (n : Nat) (f : Core → Core) : (s.mapCore n f).pending = s.pending := rfl
@[simp] theorem mapCore_regions (s : State) (n : Nat) (f : Core → Core) : (s.mapCore n f).regions = s.regions := rfl
@[simp] theorem mapCore_mem (s : State) (n : Nat) (f : Core → Core) : (s.mapCore n f).mem = s.mem := rfl
@[simp] theorem mapCore_keySlots (s : State) (n : Nat) (f : Core → Core) : (s.mapCore n f).keySlots = s.keySlots := rfl
@[simp] theorem mapCore_d2d (s : State) (n : Nat) (f : Core → Core) : (s.mapCore n f).d2d = s.d2d := rfl
@[simp] theorem mapCore_regs (s : State) (n : Nat) (f : Core → Core) : (s.mapCore n f).regs = s.regs := rfl
@[simp] theorem mapCore_errs (s : State) (n : Nat) (f : Core → Core) : (s.mapCore n f).errs = s.errs := rfl
@[simp] theorem mapCore_counts (s : State) (n : Nat) (f : Core → Core) : (s.mapCore n f).counts = s.counts := rfl
@[simp] theorem mapCore_keys (s : State) (n : Nat) (f : Core → Core) : (s.mapCore n f).keys = s.keys := rfl
@[simp] theorem mapCore_crown (s : State) (n : Nat) (f : Core → Core) : (s.mapCore n f).crown = s.crown := rfl
@[simp] theorem mapCore_brim (s : State) (n : Nat) (f : Core → Core) : (s.mapCore n f).brim = s.brim := rfl
@[simp] theorem mapCore_mgmt (s : State) (n : Nat) (f : Core → Core) : (s.mapCore n f).mgmt = s.mgmt := rfl
@[simp] theorem mapCore_net (s : State) (n : Nat) (f : Core → Core) : (s.mapCore n f).net = s.net := rfl
@[simp] theorem mapCore_host (s : State) (n : Nat) (f : Core → Core) : (s.mapCore n f).host = s.host := rfl
@[simp] theorem mapCore_boot (s : State) (n : Nat) (f : Core → Core) : (s.mapCore n f).boot = s.boot := rfl
@[simp] theorem mapCore_red (s : State) (n : Nat) (f : Core → Core) : (s.mapCore n f).red = s.red := rfl
@[simp] theorem mapCore_ckpt (s : State) (n : Nat) (f : Core → Core) : (s.mapCore n f).ckpt = s.ckpt := rfl
@[simp] theorem mapCore_pwr (s : State) (n : Nat) (f : Core → Core) : (s.mapCore n f).pwr = s.pwr := rfl
@[simp] theorem mapCore_visor (s : State) (n : Nat) (f : Core → Core) : (s.mapCore n f).visor = s.visor := rfl
@[simp] theorem mapCore_test (s : State) (n : Nat) (f : Core → Core) : (s.mapCore n f).test = s.test := rfl
@[simp] theorem mapCore_clock (s : State) (n : Nat) (f : Core → Core) : (s.mapCore n f).clock = s.clock := rfl
@[simp] theorem mapCore_halt (s : State) (n : Nat) (f : Core → Core) : (s.mapCore n f).halt = s.halt := rfl
@[simp] theorem mapCore_haltLow (s : State) (n : Nat) (f : Core → Core) : (s.mapCore n f).haltLow = s.haltLow := rfl
@[simp] theorem mapCore_werr (s : State) (n : Nat) (f : Core → Core) : (s.mapCore n f).werr = s.werr := rfl
@[simp] theorem mapCore_quarMap (s : State) (n : Nat) (f : Core → Core) : (s.mapCore n f).quarMap = s.quarMap := rfl
@[simp] theorem mapCore_out (s : State) (n : Nat) (f : Core → Core) : (s.mapCore n f).out = s.out := rfl
@[simp] theorem mapCore_free (s : State) (n : Nat) (f : Core → Core) : (s.mapCore n f).free = s.free := rfl

/-! setRegion -/
@[simp] theorem setRegion_pending (s : State) (r : Nat) (g : Region) : (s.setRegion r g).pending = s.pending := rfl
@[simp] theorem setRegion_cores (s : State) (r : Nat) (g : Region) : (s.setRegion r g).cores = s.cores := rfl
@[simp] theorem setRegion_mem (s : State) (r : Nat) (g : Region) : (s.setRegion r g).mem = s.mem := rfl
@[simp] theorem setRegion_keySlots (s : State) (r : Nat) (g : Region) : (s.setRegion r g).keySlots = s.keySlots := rfl
@[simp] theorem setRegion_d2d (s : State) (r : Nat) (g : Region) : (s.setRegion r g).d2d = s.d2d := rfl
@[simp] theorem setRegion_regs (s : State) (r : Nat) (g : Region) : (s.setRegion r g).regs = s.regs := rfl
@[simp] theorem setRegion_errs (s : State) (r : Nat) (g : Region) : (s.setRegion r g).errs = s.errs := rfl
@[simp] theorem setRegion_counts (s : State) (r : Nat) (g : Region) : (s.setRegion r g).counts = s.counts := rfl
@[simp] theorem setRegion_keys (s : State) (r : Nat) (g : Region) : (s.setRegion r g).keys = s.keys := rfl
@[simp] theorem setRegion_crown (s : State) (r : Nat) (g : Region) : (s.setRegion r g).crown = s.crown := rfl
@[simp] theorem setRegion_brim (s : State) (r : Nat) (g : Region) : (s.setRegion r g).brim = s.brim := rfl
@[simp] theorem setRegion_mgmt (s : State) (r : Nat) (g : Region) : (s.setRegion r g).mgmt = s.mgmt := rfl
@[simp] theorem setRegion_net (s : State) (r : Nat) (g : Region) : (s.setRegion r g).net = s.net := rfl
@[simp] theorem setRegion_host (s : State) (r : Nat) (g : Region) : (s.setRegion r g).host = s.host := rfl
@[simp] theorem setRegion_boot (s : State) (r : Nat) (g : Region) : (s.setRegion r g).boot = s.boot := rfl
@[simp] theorem setRegion_red (s : State) (r : Nat) (g : Region) : (s.setRegion r g).red = s.red := rfl
@[simp] theorem setRegion_ckpt (s : State) (r : Nat) (g : Region) : (s.setRegion r g).ckpt = s.ckpt := rfl
@[simp] theorem setRegion_pwr (s : State) (r : Nat) (g : Region) : (s.setRegion r g).pwr = s.pwr := rfl
@[simp] theorem setRegion_visor (s : State) (r : Nat) (g : Region) : (s.setRegion r g).visor = s.visor := rfl
@[simp] theorem setRegion_test (s : State) (r : Nat) (g : Region) : (s.setRegion r g).test = s.test := rfl
@[simp] theorem setRegion_clock (s : State) (r : Nat) (g : Region) : (s.setRegion r g).clock = s.clock := rfl
@[simp] theorem setRegion_halt (s : State) (r : Nat) (g : Region) : (s.setRegion r g).halt = s.halt := rfl
@[simp] theorem setRegion_haltLow (s : State) (r : Nat) (g : Region) : (s.setRegion r g).haltLow = s.haltLow := rfl
@[simp] theorem setRegion_werr (s : State) (r : Nat) (g : Region) : (s.setRegion r g).werr = s.werr := rfl
@[simp] theorem setRegion_quarMap (s : State) (r : Nat) (g : Region) : (s.setRegion r g).quarMap = s.quarMap := rfl
@[simp] theorem setRegion_out (s : State) (r : Nat) (g : Region) : (s.setRegion r g).out = s.out := rfl
@[simp] theorem setRegion_free (s : State) (r : Nat) (g : Region) : (s.setRegion r g).free = s.free := rfl

/-! onRegion -/
@[simp] theorem onRegion_pending (s : State) (r : Nat) (f : Region → Region) : (s.onRegion r f).pending = s.pending := rfl
@[simp] theorem onRegion_cores (s : State) (r : Nat) (f : Region → Region) : (s.onRegion r f).cores = s.cores := rfl
@[simp] theorem onRegion_mem (s : State) (r : Nat) (f : Region → Region) : (s.onRegion r f).mem = s.mem := rfl
@[simp] theorem onRegion_keySlots (s : State) (r : Nat) (f : Region → Region) : (s.onRegion r f).keySlots = s.keySlots := rfl
@[simp] theorem onRegion_d2d (s : State) (r : Nat) (f : Region → Region) : (s.onRegion r f).d2d = s.d2d := rfl
@[simp] theorem onRegion_regs (s : State) (r : Nat) (f : Region → Region) : (s.onRegion r f).regs = s.regs := rfl
@[simp] theorem onRegion_errs (s : State) (r : Nat) (f : Region → Region) : (s.onRegion r f).errs = s.errs := rfl
@[simp] theorem onRegion_counts (s : State) (r : Nat) (f : Region → Region) : (s.onRegion r f).counts = s.counts := rfl
@[simp] theorem onRegion_keys (s : State) (r : Nat) (f : Region → Region) : (s.onRegion r f).keys = s.keys := rfl
@[simp] theorem onRegion_crown (s : State) (r : Nat) (f : Region → Region) : (s.onRegion r f).crown = s.crown := rfl
@[simp] theorem onRegion_brim (s : State) (r : Nat) (f : Region → Region) : (s.onRegion r f).brim = s.brim := rfl
@[simp] theorem onRegion_mgmt (s : State) (r : Nat) (f : Region → Region) : (s.onRegion r f).mgmt = s.mgmt := rfl
@[simp] theorem onRegion_net (s : State) (r : Nat) (f : Region → Region) : (s.onRegion r f).net = s.net := rfl
@[simp] theorem onRegion_host (s : State) (r : Nat) (f : Region → Region) : (s.onRegion r f).host = s.host := rfl
@[simp] theorem onRegion_boot (s : State) (r : Nat) (f : Region → Region) : (s.onRegion r f).boot = s.boot := rfl
@[simp] theorem onRegion_red (s : State) (r : Nat) (f : Region → Region) : (s.onRegion r f).red = s.red := rfl
@[simp] theorem onRegion_ckpt (s : State) (r : Nat) (f : Region → Region) : (s.onRegion r f).ckpt = s.ckpt := rfl
@[simp] theorem onRegion_pwr (s : State) (r : Nat) (f : Region → Region) : (s.onRegion r f).pwr = s.pwr := rfl
@[simp] theorem onRegion_visor (s : State) (r : Nat) (f : Region → Region) : (s.onRegion r f).visor = s.visor := rfl
@[simp] theorem onRegion_test (s : State) (r : Nat) (f : Region → Region) : (s.onRegion r f).test = s.test := rfl
@[simp] theorem onRegion_clock (s : State) (r : Nat) (f : Region → Region) : (s.onRegion r f).clock = s.clock := rfl
@[simp] theorem onRegion_halt (s : State) (r : Nat) (f : Region → Region) : (s.onRegion r f).halt = s.halt := rfl
@[simp] theorem onRegion_haltLow (s : State) (r : Nat) (f : Region → Region) : (s.onRegion r f).haltLow = s.haltLow := rfl
@[simp] theorem onRegion_werr (s : State) (r : Nat) (f : Region → Region) : (s.onRegion r f).werr = s.werr := rfl
@[simp] theorem onRegion_quarMap (s : State) (r : Nat) (f : Region → Region) : (s.onRegion r f).quarMap = s.quarMap := rfl
@[simp] theorem onRegion_out (s : State) (r : Nat) (f : Region → Region) : (s.onRegion r f).out = s.out := rfl
@[simp] theorem onRegion_free (s : State) (r : Nat) (f : Region → Region) : (s.onRegion r f).free = s.free := rfl

/-! setPart -/
@[simp] theorem setPart_pending (s : State) (p : Nat) (x : Partition) : (s.setPart p x).pending = s.pending := rfl
@[simp] theorem setPart_cores (s : State) (p : Nat) (x : Partition) : (s.setPart p x).cores = s.cores := rfl
@[simp] theorem setPart_regions (s : State) (p : Nat) (x : Partition) : (s.setPart p x).regions = s.regions := rfl
@[simp] theorem setPart_mem (s : State) (p : Nat) (x : Partition) : (s.setPart p x).mem = s.mem := rfl
@[simp] theorem setPart_keySlots (s : State) (p : Nat) (x : Partition) : (s.setPart p x).keySlots = s.keySlots := rfl
@[simp] theorem setPart_d2d (s : State) (p : Nat) (x : Partition) : (s.setPart p x).d2d = s.d2d := rfl
@[simp] theorem setPart_regs (s : State) (p : Nat) (x : Partition) : (s.setPart p x).regs = s.regs := rfl
@[simp] theorem setPart_errs (s : State) (p : Nat) (x : Partition) : (s.setPart p x).errs = s.errs := rfl
@[simp] theorem setPart_counts (s : State) (p : Nat) (x : Partition) : (s.setPart p x).counts = s.counts := rfl
@[simp] theorem setPart_crown (s : State) (p : Nat) (x : Partition) : (s.setPart p x).crown = s.crown := rfl
@[simp] theorem setPart_brim (s : State) (p : Nat) (x : Partition) : (s.setPart p x).brim = s.brim := rfl
@[simp] theorem setPart_mgmt (s : State) (p : Nat) (x : Partition) : (s.setPart p x).mgmt = s.mgmt := rfl
@[simp] theorem setPart_net (s : State) (p : Nat) (x : Partition) : (s.setPart p x).net = s.net := rfl
@[simp] theorem setPart_host (s : State) (p : Nat) (x : Partition) : (s.setPart p x).host = s.host := rfl
@[simp] theorem setPart_boot (s : State) (p : Nat) (x : Partition) : (s.setPart p x).boot = s.boot := rfl
@[simp] theorem setPart_red (s : State) (p : Nat) (x : Partition) : (s.setPart p x).red = s.red := rfl
@[simp] theorem setPart_ckpt (s : State) (p : Nat) (x : Partition) : (s.setPart p x).ckpt = s.ckpt := rfl
@[simp] theorem setPart_pwr (s : State) (p : Nat) (x : Partition) : (s.setPart p x).pwr = s.pwr := rfl
@[simp] theorem setPart_visor (s : State) (p : Nat) (x : Partition) : (s.setPart p x).visor = s.visor := rfl
@[simp] theorem setPart_test (s : State) (p : Nat) (x : Partition) : (s.setPart p x).test = s.test := rfl
@[simp] theorem setPart_clock (s : State) (p : Nat) (x : Partition) : (s.setPart p x).clock = s.clock := rfl
@[simp] theorem setPart_halt (s : State) (p : Nat) (x : Partition) : (s.setPart p x).halt = s.halt := rfl
@[simp] theorem setPart_haltLow (s : State) (p : Nat) (x : Partition) : (s.setPart p x).haltLow = s.haltLow := rfl
@[simp] theorem setPart_werr (s : State) (p : Nat) (x : Partition) : (s.setPart p x).werr = s.werr := rfl
@[simp] theorem setPart_quarMap (s : State) (p : Nat) (x : Partition) : (s.setPart p x).quarMap = s.quarMap := rfl
@[simp] theorem setPart_out (s : State) (p : Nat) (x : Partition) : (s.setPart p x).out = s.out := rfl
@[simp] theorem setPart_free (s : State) (p : Nat) (x : Partition) : (s.setPart p x).free = s.free := rfl

/-! setSession -/
@[simp] theorem setSession_pending (s : State) (i : Nat) (x : Session) : (s.setSession i x).pending = s.pending := rfl
@[simp] theorem setSession_cores (s : State) (i : Nat) (x : Session) : (s.setSession i x).cores = s.cores := rfl
@[simp] theorem setSession_regions (s : State) (i : Nat) (x : Session) : (s.setSession i x).regions = s.regions := rfl
@[simp] theorem setSession_mem (s : State) (i : Nat) (x : Session) : (s.setSession i x).mem = s.mem := rfl
@[simp] theorem setSession_keySlots (s : State) (i : Nat) (x : Session) : (s.setSession i x).keySlots = s.keySlots := rfl
@[simp] theorem setSession_d2d (s : State) (i : Nat) (x : Session) : (s.setSession i x).d2d = s.d2d := rfl
@[simp] theorem setSession_regs (s : State) (i : Nat) (x : Session) : (s.setSession i x).regs = s.regs := rfl
@[simp] theorem setSession_errs (s : State) (i : Nat) (x : Session) : (s.setSession i x).errs = s.errs := rfl
@[simp] theorem setSession_counts (s : State) (i : Nat) (x : Session) : (s.setSession i x).counts = s.counts := rfl
@[simp] theorem setSession_crown (s : State) (i : Nat) (x : Session) : (s.setSession i x).crown = s.crown := rfl
@[simp] theorem setSession_brim (s : State) (i : Nat) (x : Session) : (s.setSession i x).brim = s.brim := rfl
@[simp] theorem setSession_mgmt (s : State) (i : Nat) (x : Session) : (s.setSession i x).mgmt = s.mgmt := rfl
@[simp] theorem setSession_net (s : State) (i : Nat) (x : Session) : (s.setSession i x).net = s.net := rfl
@[simp] theorem setSession_host (s : State) (i : Nat) (x : Session) : (s.setSession i x).host = s.host := rfl
@[simp] theorem setSession_boot (s : State) (i : Nat) (x : Session) : (s.setSession i x).boot = s.boot := rfl
@[simp] theorem setSession_red (s : State) (i : Nat) (x : Session) : (s.setSession i x).red = s.red := rfl
@[simp] theorem setSession_ckpt (s : State) (i : Nat) (x : Session) : (s.setSession i x).ckpt = s.ckpt := rfl
@[simp] theorem setSession_pwr (s : State) (i : Nat) (x : Session) : (s.setSession i x).pwr = s.pwr := rfl
@[simp] theorem setSession_visor (s : State) (i : Nat) (x : Session) : (s.setSession i x).visor = s.visor := rfl
@[simp] theorem setSession_test (s : State) (i : Nat) (x : Session) : (s.setSession i x).test = s.test := rfl
@[simp] theorem setSession_clock (s : State) (i : Nat) (x : Session) : (s.setSession i x).clock = s.clock := rfl
@[simp] theorem setSession_halt (s : State) (i : Nat) (x : Session) : (s.setSession i x).halt = s.halt := rfl
@[simp] theorem setSession_haltLow (s : State) (i : Nat) (x : Session) : (s.setSession i x).haltLow = s.haltLow := rfl
@[simp] theorem setSession_werr (s : State) (i : Nat) (x : Session) : (s.setSession i x).werr = s.werr := rfl
@[simp] theorem setSession_quarMap (s : State) (i : Nat) (x : Session) : (s.setSession i x).quarMap = s.quarMap := rfl
@[simp] theorem setSession_out (s : State) (i : Nat) (x : Session) : (s.setSession i x).out = s.out := rfl
@[simp] theorem setSession_free (s : State) (i : Nat) (x : Session) : (s.setSession i x).free = s.free := rfl

/-! setCkpt -/
@[simp] theorem setCkpt_pending (s : State) (i : Nat) (x : CkptSess) : (s.setCkpt i x).pending = s.pending := rfl
@[simp] theorem setCkpt_cores (s : State) (i : Nat) (x : CkptSess) : (s.setCkpt i x).cores = s.cores := rfl
@[simp] theorem setCkpt_regions (s : State) (i : Nat) (x : CkptSess) : (s.setCkpt i x).regions = s.regions := rfl
@[simp] theorem setCkpt_mem (s : State) (i : Nat) (x : CkptSess) : (s.setCkpt i x).mem = s.mem := rfl
@[simp] theorem setCkpt_keySlots (s : State) (i : Nat) (x : CkptSess) : (s.setCkpt i x).keySlots = s.keySlots := rfl
@[simp] theorem setCkpt_d2d (s : State) (i : Nat) (x : CkptSess) : (s.setCkpt i x).d2d = s.d2d := rfl
@[simp] theorem setCkpt_regs (s : State) (i : Nat) (x : CkptSess) : (s.setCkpt i x).regs = s.regs := rfl
@[simp] theorem setCkpt_errs (s : State) (i : Nat) (x : CkptSess) : (s.setCkpt i x).errs = s.errs := rfl
@[simp] theorem setCkpt_counts (s : State) (i : Nat) (x : CkptSess) : (s.setCkpt i x).counts = s.counts := rfl
@[simp] theorem setCkpt_keys (s : State) (i : Nat) (x : CkptSess) : (s.setCkpt i x).keys = s.keys := rfl
@[simp] theorem setCkpt_crown (s : State) (i : Nat) (x : CkptSess) : (s.setCkpt i x).crown = s.crown := rfl
@[simp] theorem setCkpt_brim (s : State) (i : Nat) (x : CkptSess) : (s.setCkpt i x).brim = s.brim := rfl
@[simp] theorem setCkpt_mgmt (s : State) (i : Nat) (x : CkptSess) : (s.setCkpt i x).mgmt = s.mgmt := rfl
@[simp] theorem setCkpt_net (s : State) (i : Nat) (x : CkptSess) : (s.setCkpt i x).net = s.net := rfl
@[simp] theorem setCkpt_host (s : State) (i : Nat) (x : CkptSess) : (s.setCkpt i x).host = s.host := rfl
@[simp] theorem setCkpt_boot (s : State) (i : Nat) (x : CkptSess) : (s.setCkpt i x).boot = s.boot := rfl
@[simp] theorem setCkpt_red (s : State) (i : Nat) (x : CkptSess) : (s.setCkpt i x).red = s.red := rfl
@[simp] theorem setCkpt_pwr (s : State) (i : Nat) (x : CkptSess) : (s.setCkpt i x).pwr = s.pwr := rfl
@[simp] theorem setCkpt_visor (s : State) (i : Nat) (x : CkptSess) : (s.setCkpt i x).visor = s.visor := rfl
@[simp] theorem setCkpt_test (s : State) (i : Nat) (x : CkptSess) : (s.setCkpt i x).test = s.test := rfl
@[simp] theorem setCkpt_clock (s : State) (i : Nat) (x : CkptSess) : (s.setCkpt i x).clock = s.clock := rfl
@[simp] theorem setCkpt_halt (s : State) (i : Nat) (x : CkptSess) : (s.setCkpt i x).halt = s.halt := rfl
@[simp] theorem setCkpt_haltLow (s : State) (i : Nat) (x : CkptSess) : (s.setCkpt i x).haltLow = s.haltLow := rfl
@[simp] theorem setCkpt_werr (s : State) (i : Nat) (x : CkptSess) : (s.setCkpt i x).werr = s.werr := rfl
@[simp] theorem setCkpt_quarMap (s : State) (i : Nat) (x : CkptSess) : (s.setCkpt i x).quarMap = s.quarMap := rfl
@[simp] theorem setCkpt_out (s : State) (i : Nat) (x : CkptSess) : (s.setCkpt i x).out = s.out := rfl
@[simp] theorem setCkpt_free (s : State) (i : Nat) (x : CkptSess) : (s.setCkpt i x).free = s.free := rfl

/-! count -/
@[simp] theorem count_pending (s : State) (addr n : Nat) : (s.count addr n).pending = s.pending := rfl
@[simp] theorem count_cores (s : State) (addr n : Nat) : (s.count addr n).cores = s.cores := rfl
@[simp] theorem count_regions (s : State) (addr n : Nat) : (s.count addr n).regions = s.regions := rfl
@[simp] theorem count_mem (s : State) (addr n : Nat) : (s.count addr n).mem = s.mem := rfl
@[simp] theorem count_keySlots (s : State) (addr n : Nat) : (s.count addr n).keySlots = s.keySlots := rfl
@[simp] theorem count_d2d (s : State) (addr n : Nat) : (s.count addr n).d2d = s.d2d := rfl
@[simp] theorem count_regs (s : State) (addr n : Nat) : (s.count addr n).regs = s.regs := rfl
@[simp] theorem count_errs (s : State) (addr n : Nat) : (s.count addr n).errs = s.errs := rfl
@[simp] theorem count_keys (s : State) (addr n : Nat) : (s.count addr n).keys = s.keys := rfl
@[simp] theorem count_crown (s : State) (addr n : Nat) : (s.count addr n).crown = s.crown := rfl
@[simp] theorem count_brim (s : State) (addr n : Nat) : (s.count addr n).brim = s.brim := rfl
@[simp] theorem count_mgmt (s : State) (addr n : Nat) : (s.count addr n).mgmt = s.mgmt := rfl
@[simp] theorem count_net (s : State) (addr n : Nat) : (s.count addr n).net = s.net := rfl
@[simp] theorem count_host (s : State) (addr n : Nat) : (s.count addr n).host = s.host := rfl
@[simp] theorem count_boot (s : State) (addr n : Nat) : (s.count addr n).boot = s.boot := rfl
@[simp] theorem count_red (s : State) (addr n : Nat) : (s.count addr n).red = s.red := rfl
@[simp] theorem count_ckpt (s : State) (addr n : Nat) : (s.count addr n).ckpt = s.ckpt := rfl
@[simp] theorem count_pwr (s : State) (addr n : Nat) : (s.count addr n).pwr = s.pwr := rfl
@[simp] theorem count_visor (s : State) (addr n : Nat) : (s.count addr n).visor = s.visor := rfl
@[simp] theorem count_test (s : State) (addr n : Nat) : (s.count addr n).test = s.test := rfl
@[simp] theorem count_clock (s : State) (addr n : Nat) : (s.count addr n).clock = s.clock := rfl
@[simp] theorem count_halt (s : State) (addr n : Nat) : (s.count addr n).halt = s.halt := rfl
@[simp] theorem count_haltLow (s : State) (addr n : Nat) : (s.count addr n).haltLow = s.haltLow := rfl
@[simp] theorem count_werr (s : State) (addr n : Nat) : (s.count addr n).werr = s.werr := rfl
@[simp] theorem count_quarMap (s : State) (addr n : Nat) : (s.count addr n).quarMap = s.quarMap := rfl
@[simp] theorem count_out (s : State) (addr n : Nat) : (s.count addr n).out = s.out := rfl
@[simp] theorem count_free (s : State) (addr n : Nat) : (s.count addr n).free = s.free := rfl

/-! emit -/
@[simp] theorem emit_pending (s : State) (o : Out) : (s.emit o).pending = s.pending := rfl
@[simp] theorem emit_cores (s : State) (o : Out) : (s.emit o).cores = s.cores := rfl
@[simp] theorem emit_regions (s : State) (o : Out) : (s.emit o).regions = s.regions := rfl
@[simp] theorem emit_mem (s : State) (o : Out) : (s.emit o).mem = s.mem := rfl
@[simp] theorem emit_keySlots (s : State) (o : Out) : (s.emit o).keySlots = s.keySlots := rfl
@[simp] theorem emit_d2d (s : State) (o : Out) : (s.emit o).d2d = s.d2d := rfl
@[simp] theorem emit_regs (s : State) (o : Out) : (s.emit o).regs = s.regs := rfl
@[simp] theorem emit_errs (s : State) (o : Out) : (s.emit o).errs = s.errs := rfl
@[simp] theorem emit_counts (s : State) (o : Out) : (s.emit o).counts = s.counts := rfl
@[simp] theorem emit_keys (s : State) (o : Out) : (s.emit o).keys = s.keys := rfl
@[simp] theorem emit_crown (s : State) (o : Out) : (s.emit o).crown = s.crown := rfl
@[simp] theorem emit_brim (s : State) (o : Out) : (s.emit o).brim = s.brim := rfl
@[simp] theorem emit_mgmt (s : State) (o : Out) : (s.emit o).mgmt = s.mgmt := rfl
@[simp] theorem emit_net (s : State) (o : Out) : (s.emit o).net = s.net := rfl
@[simp] theorem emit_host (s : State) (o : Out) : (s.emit o).host = s.host := rfl
@[simp] theorem emit_boot (s : State) (o : Out) : (s.emit o).boot = s.boot := rfl
@[simp] theorem emit_red (s : State) (o : Out) : (s.emit o).red = s.red := rfl
@[simp] theorem emit_ckpt (s : State) (o : Out) : (s.emit o).ckpt = s.ckpt := rfl
@[simp] theorem emit_pwr (s : State) (o : Out) : (s.emit o).pwr = s.pwr := rfl
@[simp] theorem emit_visor (s : State) (o : Out) : (s.emit o).visor = s.visor := rfl
@[simp] theorem emit_test (s : State) (o : Out) : (s.emit o).test = s.test := rfl
@[simp] theorem emit_clock (s : State) (o : Out) : (s.emit o).clock = s.clock := rfl
@[simp] theorem emit_halt (s : State) (o : Out) : (s.emit o).halt = s.halt := rfl
@[simp] theorem emit_haltLow (s : State) (o : Out) : (s.emit o).haltLow = s.haltLow := rfl
@[simp] theorem emit_werr (s : State) (o : Out) : (s.emit o).werr = s.werr := rfl
@[simp] theorem emit_quarMap (s : State) (o : Out) : (s.emit o).quarMap = s.quarMap := rfl
@[simp] theorem emit_free (s : State) (o : Out) : (s.emit o).free = s.free := rfl

/-! logRaise -/
@[simp] theorem logRaise_pending (s : State) (r : Raise) : (s.logRaise r).pending = s.pending := by simp only [logRaise]
@[simp] theorem logRaise_cores (s : State) (r : Raise) : (s.logRaise r).cores = s.cores := by simp only [logRaise]
@[simp] theorem logRaise_regions (s : State) (r : Raise) : (s.logRaise r).regions = s.regions := by simp only [logRaise]
@[simp] theorem logRaise_mem (s : State) (r : Raise) : (s.logRaise r).mem = s.mem := by simp only [logRaise]
@[simp] theorem logRaise_keySlots (s : State) (r : Raise) : (s.logRaise r).keySlots = s.keySlots := by simp only [logRaise]
@[simp] theorem logRaise_d2d (s : State) (r : Raise) : (s.logRaise r).d2d = s.d2d := by simp only [logRaise]
@[simp] theorem logRaise_regs (s : State) (r : Raise) : (s.logRaise r).regs = s.regs := by simp only [logRaise]
@[simp] theorem logRaise_errs (s : State) (r : Raise) : (s.logRaise r).errs = s.errs := by simp only [logRaise]
@[simp] theorem logRaise_counts (s : State) (r : Raise) : (s.logRaise r).counts = s.counts := by simp only [logRaise]
@[simp] theorem logRaise_keys (s : State) (r : Raise) : (s.logRaise r).keys = s.keys := by simp only [logRaise]
@[simp] theorem logRaise_crown (s : State) (r : Raise) : (s.logRaise r).crown = s.crown := by simp only [logRaise]
@[simp] theorem logRaise_brim (s : State) (r : Raise) : (s.logRaise r).brim = s.brim := by simp only [logRaise]
@[simp] theorem logRaise_net (s : State) (r : Raise) : (s.logRaise r).net = s.net := by simp only [logRaise]
@[simp] theorem logRaise_host (s : State) (r : Raise) : (s.logRaise r).host = s.host := by simp only [logRaise]
@[simp] theorem logRaise_boot (s : State) (r : Raise) : (s.logRaise r).boot = s.boot := by simp only [logRaise]
@[simp] theorem logRaise_red (s : State) (r : Raise) : (s.logRaise r).red = s.red := by simp only [logRaise]
@[simp] theorem logRaise_ckpt (s : State) (r : Raise) : (s.logRaise r).ckpt = s.ckpt := by simp only [logRaise]
@[simp] theorem logRaise_pwr (s : State) (r : Raise) : (s.logRaise r).pwr = s.pwr := by simp only [logRaise]
@[simp] theorem logRaise_visor (s : State) (r : Raise) : (s.logRaise r).visor = s.visor := by simp only [logRaise]
@[simp] theorem logRaise_test (s : State) (r : Raise) : (s.logRaise r).test = s.test := by simp only [logRaise]
@[simp] theorem logRaise_clock (s : State) (r : Raise) : (s.logRaise r).clock = s.clock := by simp only [logRaise]
@[simp] theorem logRaise_halt (s : State) (r : Raise) : (s.logRaise r).halt = s.halt := by simp only [logRaise]
@[simp] theorem logRaise_haltLow (s : State) (r : Raise) : (s.logRaise r).haltLow = s.haltLow := by simp only [logRaise]
@[simp] theorem logRaise_werr (s : State) (r : Raise) : (s.logRaise r).werr = s.werr := by simp only [logRaise]
@[simp] theorem logRaise_quarMap (s : State) (r : Raise) : (s.logRaise r).quarMap = s.quarMap := by simp only [logRaise]
@[simp] theorem logRaise_out (s : State) (r : Raise) : (s.logRaise r).out = s.out := by simp only [logRaise]
@[simp] theorem logRaise_free (s : State) (r : Raise) : (s.logRaise r).free = s.free := by simp only [logRaise]

/-! raiseOne -/
@[simp] theorem raiseOne_pending (s : State) (r : Raise) : (s.raiseOne r).pending = s.pending := by simp only [raiseOne, logRaise_pending]
@[simp] theorem raiseOne_cores (s : State) (r : Raise) : (s.raiseOne r).cores = s.cores := by simp only [raiseOne, logRaise_cores]
@[simp] theorem raiseOne_regions (s : State) (r : Raise) : (s.raiseOne r).regions = s.regions := by simp only [raiseOne, logRaise_regions]
@[simp] theorem raiseOne_mem (s : State) (r : Raise) : (s.raiseOne r).mem = s.mem := by simp only [raiseOne, logRaise_mem]
@[simp] theorem raiseOne_keySlots (s : State) (r : Raise) : (s.raiseOne r).keySlots = s.keySlots := by simp only [raiseOne, logRaise_keySlots]
@[simp] theorem raiseOne_d2d (s : State) (r : Raise) : (s.raiseOne r).d2d = s.d2d := by simp only [raiseOne, logRaise_d2d]
@[simp] theorem raiseOne_regs (s : State) (r : Raise) : (s.raiseOne r).regs = s.regs := by simp only [raiseOne, logRaise_regs]
@[simp] theorem raiseOne_counts (s : State) (r : Raise) : (s.raiseOne r).counts = s.counts := by simp only [raiseOne, logRaise_counts]
@[simp] theorem raiseOne_keys (s : State) (r : Raise) : (s.raiseOne r).keys = s.keys := by simp only [raiseOne, logRaise_keys]
@[simp] theorem raiseOne_crown (s : State) (r : Raise) : (s.raiseOne r).crown = s.crown := by simp only [raiseOne, logRaise_crown]
@[simp] theorem raiseOne_brim (s : State) (r : Raise) : (s.raiseOne r).brim = s.brim := by simp only [raiseOne, logRaise_brim]
@[simp] theorem raiseOne_net (s : State) (r : Raise) : (s.raiseOne r).net = s.net := by simp only [raiseOne, logRaise_net]
@[simp] theorem raiseOne_host (s : State) (r : Raise) : (s.raiseOne r).host = s.host := by simp only [raiseOne, logRaise_host]
@[simp] theorem raiseOne_red (s : State) (r : Raise) : (s.raiseOne r).red = s.red := by simp only [raiseOne, logRaise_red]
@[simp] theorem raiseOne_ckpt (s : State) (r : Raise) : (s.raiseOne r).ckpt = s.ckpt := by simp only [raiseOne, logRaise_ckpt]
@[simp] theorem raiseOne_pwr (s : State) (r : Raise) : (s.raiseOne r).pwr = s.pwr := by simp only [raiseOne, logRaise_pwr]
@[simp] theorem raiseOne_visor (s : State) (r : Raise) : (s.raiseOne r).visor = s.visor := by simp only [raiseOne, logRaise_visor]
@[simp] theorem raiseOne_test (s : State) (r : Raise) : (s.raiseOne r).test = s.test := by simp only [raiseOne, logRaise_test]
@[simp] theorem raiseOne_clock (s : State) (r : Raise) : (s.raiseOne r).clock = s.clock := by simp only [raiseOne, logRaise_clock]
@[simp] theorem raiseOne_halt (s : State) (r : Raise) : (s.raiseOne r).halt = s.halt := by simp only [raiseOne, logRaise_halt]
@[simp] theorem raiseOne_haltLow (s : State) (r : Raise) : (s.raiseOne r).haltLow = s.haltLow := by simp only [raiseOne, logRaise_haltLow]
@[simp] theorem raiseOne_werr (s : State) (r : Raise) : (s.raiseOne r).werr = s.werr := by simp only [raiseOne, logRaise_werr]
@[simp] theorem raiseOne_quarMap (s : State) (r : Raise) : (s.raiseOne r).quarMap = s.quarMap := by simp only [raiseOne, logRaise_quarMap]
@[simp] theorem raiseOne_out (s : State) (r : Raise) : (s.raiseOne r).out = s.out := by simp only [raiseOne, logRaise_out]
@[simp] theorem raiseOne_free (s : State) (r : Raise) : (s.raiseOne r).free = s.free := by simp only [raiseOne, logRaise_free]

/-! raise -/
@[simp] theorem raise_pending (s : State) (block code a0 a1 a2 : Nat) : (s.raise block code a0 a1 a2).pending = s.pending := by simp only [raise, raiseOne_pending]
@[simp] theorem raise_cores (s : State) (block code a0 a1 a2 : Nat) : (s.raise block code a0 a1 a2).cores = s.cores := by simp only [raise, raiseOne_cores]
@[simp] theorem raise_regions (s : State) (block code a0 a1 a2 : Nat) : (s.raise block code a0 a1 a2).regions = s.regions := by simp only [raise, raiseOne_regions]
@[simp] theorem raise_mem (s : State) (block code a0 a1 a2 : Nat) : (s.raise block code a0 a1 a2).mem = s.mem := by simp only [raise, raiseOne_mem]
@[simp] theorem raise_keySlots (s : State) (block code a0 a1 a2 : Nat) : (s.raise block code a0 a1 a2).keySlots = s.keySlots := by simp only [raise, raiseOne_keySlots]
@[simp] theorem raise_d2d (s : State) (block code a0 a1 a2 : Nat) : (s.raise block code a0 a1 a2).d2d = s.d2d := by simp only [raise, raiseOne_d2d]
@[simp] theorem raise_regs (s : State) (block code a0 a1 a2 : Nat) : (s.raise block code a0 a1 a2).regs = s.regs := by simp only [raise, raiseOne_regs]
@[simp] theorem raise_counts (s : State) (block code a0 a1 a2 : Nat) : (s.raise block code a0 a1 a2).counts = s.counts := by simp only [raise, raiseOne_counts]
@[simp] theorem raise_keys (s : State) (block code a0 a1 a2 : Nat) : (s.raise block code a0 a1 a2).keys = s.keys := by simp only [raise, raiseOne_keys]
@[simp] theorem raise_crown (s : State) (block code a0 a1 a2 : Nat) : (s.raise block code a0 a1 a2).crown = s.crown := by simp only [raise, raiseOne_crown]
@[simp] theorem raise_brim (s : State) (block code a0 a1 a2 : Nat) : (s.raise block code a0 a1 a2).brim = s.brim := by simp only [raise, raiseOne_brim]
@[simp] theorem raise_net (s : State) (block code a0 a1 a2 : Nat) : (s.raise block code a0 a1 a2).net = s.net := by simp only [raise, raiseOne_net]
@[simp] theorem raise_host (s : State) (block code a0 a1 a2 : Nat) : (s.raise block code a0 a1 a2).host = s.host := by simp only [raise, raiseOne_host]
@[simp] theorem raise_red (s : State) (block code a0 a1 a2 : Nat) : (s.raise block code a0 a1 a2).red = s.red := by simp only [raise, raiseOne_red]
@[simp] theorem raise_ckpt (s : State) (block code a0 a1 a2 : Nat) : (s.raise block code a0 a1 a2).ckpt = s.ckpt := by simp only [raise, raiseOne_ckpt]
@[simp] theorem raise_pwr (s : State) (block code a0 a1 a2 : Nat) : (s.raise block code a0 a1 a2).pwr = s.pwr := by simp only [raise, raiseOne_pwr]
@[simp] theorem raise_visor (s : State) (block code a0 a1 a2 : Nat) : (s.raise block code a0 a1 a2).visor = s.visor := by simp only [raise, raiseOne_visor]
@[simp] theorem raise_test (s : State) (block code a0 a1 a2 : Nat) : (s.raise block code a0 a1 a2).test = s.test := by simp only [raise, raiseOne_test]
@[simp] theorem raise_clock (s : State) (block code a0 a1 a2 : Nat) : (s.raise block code a0 a1 a2).clock = s.clock := by simp only [raise, raiseOne_clock]
@[simp] theorem raise_halt (s : State) (block code a0 a1 a2 : Nat) : (s.raise block code a0 a1 a2).halt = s.halt := by simp only [raise, raiseOne_halt]
@[simp] theorem raise_haltLow (s : State) (block code a0 a1 a2 : Nat) : (s.raise block code a0 a1 a2).haltLow = s.haltLow := by simp only [raise, raiseOne_haltLow]
@[simp] theorem raise_werr (s : State) (block code a0 a1 a2 : Nat) : (s.raise block code a0 a1 a2).werr = s.werr := by simp only [raise, raiseOne_werr]
@[simp] theorem raise_quarMap (s : State) (block code a0 a1 a2 : Nat) : (s.raise block code a0 a1 a2).quarMap = s.quarMap := by simp only [raise, raiseOne_quarMap]
@[simp] theorem raise_out (s : State) (block code a0 a1 a2 : Nat) : (s.raise block code a0 a1 a2).out = s.out := by simp only [raise, raiseOne_out]
@[simp] theorem raise_free (s : State) (block code a0 a1 a2 : Nat) : (s.raise block code a0 a1 a2).free = s.free := by simp only [raise, raiseOne_free]

/-! onMem -/
@[simp] theorem onMem_pending (s : State) (f : Memory → Memory) : (s.onMem f).pending = s.pending := rfl
@[simp] theorem onMem_cores (s : State) (f : Memory → Memory) : (s.onMem f).cores = s.cores := rfl
@[simp] theorem onMem_regions (s : State) (f : Memory → Memory) : (s.onMem f).regions = s.regions := rfl
@[simp] theorem onMem_keySlots (s : State) (f : Memory → Memory) : (s.onMem f).keySlots = s.keySlots := rfl
@[simp] theorem onMem_d2d (s : State) (f : Memory → Memory) : (s.onMem f).d2d = s.d2d := rfl
@[simp] theorem onMem_regs (s : State) (f : Memory → Memory) : (s.onMem f).regs = s.regs := rfl
@[simp] theorem onMem_errs (s : State) (f : Memory → Memory) : (s.onMem f).errs = s.errs := rfl
@[simp] theorem onMem_counts (s : State) (f : Memory → Memory) : (s.onMem f).counts = s.counts := rfl
@[simp] theorem onMem_keys (s : State) (f : Memory → Memory) : (s.onMem f).keys = s.keys := rfl
@[simp] theorem onMem_crown (s : State) (f : Memory → Memory) : (s.onMem f).crown = s.crown := rfl
@[simp] theorem onMem_brim (s : State) (f : Memory → Memory) : (s.onMem f).brim = s.brim := rfl
@[simp] theorem onMem_mgmt (s : State) (f : Memory → Memory) : (s.onMem f).mgmt = s.mgmt := rfl
@[simp] theorem onMem_net (s : State) (f : Memory → Memory) : (s.onMem f).net = s.net := rfl
@[simp] theorem onMem_host (s : State) (f : Memory → Memory) : (s.onMem f).host = s.host := rfl
@[simp] theorem onMem_boot (s : State) (f : Memory → Memory) : (s.onMem f).boot = s.boot := rfl
@[simp] theorem onMem_red (s : State) (f : Memory → Memory) : (s.onMem f).red = s.red := rfl
@[simp] theorem onMem_ckpt (s : State) (f : Memory → Memory) : (s.onMem f).ckpt = s.ckpt := rfl
@[simp] theorem onMem_pwr (s : State) (f : Memory → Memory) : (s.onMem f).pwr = s.pwr := rfl
@[simp] theorem onMem_visor (s : State) (f : Memory → Memory) : (s.onMem f).visor = s.visor := rfl
@[simp] theorem onMem_test (s : State) (f : Memory → Memory) : (s.onMem f).test = s.test := rfl
@[simp] theorem onMem_clock (s : State) (f : Memory → Memory) : (s.onMem f).clock = s.clock := rfl
@[simp] theorem onMem_halt (s : State) (f : Memory → Memory) : (s.onMem f).halt = s.halt := rfl
@[simp] theorem onMem_haltLow (s : State) (f : Memory → Memory) : (s.onMem f).haltLow = s.haltLow := rfl
@[simp] theorem onMem_werr (s : State) (f : Memory → Memory) : (s.onMem f).werr = s.werr := rfl
@[simp] theorem onMem_quarMap (s : State) (f : Memory → Memory) : (s.onMem f).quarMap = s.quarMap := rfl
@[simp] theorem onMem_out (s : State) (f : Memory → Memory) : (s.onMem f).out = s.out := rfl
@[simp] theorem onMem_free (s : State) (f : Memory → Memory) : (s.onMem f).free = s.free := rfl

/-! onCuff -/
@[simp] theorem onCuff_pending (s : State) (r : Nat) (f : MemCuff → MemCuff) : (s.onCuff r f).pending = s.pending := rfl
@[simp] theorem onCuff_cores (s : State) (r : Nat) (f : MemCuff → MemCuff) : (s.onCuff r f).cores = s.cores := rfl
@[simp] theorem onCuff_mem (s : State) (r : Nat) (f : MemCuff → MemCuff) : (s.onCuff r f).mem = s.mem := rfl
@[simp] theorem onCuff_keySlots (s : State) (r : Nat) (f : MemCuff → MemCuff) : (s.onCuff r f).keySlots = s.keySlots := rfl
@[simp] theorem onCuff_d2d (s : State) (r : Nat) (f : MemCuff → MemCuff) : (s.onCuff r f).d2d = s.d2d := rfl
@[simp] theorem onCuff_regs (s : State) (r : Nat) (f : MemCuff → MemCuff) : (s.onCuff r f).regs = s.regs := rfl
@[simp] theorem onCuff_errs (s : State) (r : Nat) (f : MemCuff → MemCuff) : (s.onCuff r f).errs = s.errs := rfl
@[simp] theorem onCuff_counts (s : State) (r : Nat) (f : MemCuff → MemCuff) : (s.onCuff r f).counts = s.counts := rfl
@[simp] theorem onCuff_keys (s : State) (r : Nat) (f : MemCuff → MemCuff) : (s.onCuff r f).keys = s.keys := rfl
@[simp] theorem onCuff_crown (s : State) (r : Nat) (f : MemCuff → MemCuff) : (s.onCuff r f).crown = s.crown := rfl
@[simp] theorem onCuff_brim (s : State) (r : Nat) (f : MemCuff → MemCuff) : (s.onCuff r f).brim = s.brim := rfl
@[simp] theorem onCuff_mgmt (s : State) (r : Nat) (f : MemCuff → MemCuff) : (s.onCuff r f).mgmt = s.mgmt := rfl
@[simp] theorem onCuff_net (s : State) (r : Nat) (f : MemCuff → MemCuff) : (s.onCuff r f).net = s.net := rfl
@[simp] theorem onCuff_host (s : State) (r : Nat) (f : MemCuff → MemCuff) : (s.onCuff r f).host = s.host := rfl
@[simp] theorem onCuff_boot (s : State) (r : Nat) (f : MemCuff → MemCuff) : (s.onCuff r f).boot = s.boot := rfl
@[simp] theorem onCuff_red (s : State) (r : Nat) (f : MemCuff → MemCuff) : (s.onCuff r f).red = s.red := rfl
@[simp] theorem onCuff_ckpt (s : State) (r : Nat) (f : MemCuff → MemCuff) : (s.onCuff r f).ckpt = s.ckpt := rfl
@[simp] theorem onCuff_pwr (s : State) (r : Nat) (f : MemCuff → MemCuff) : (s.onCuff r f).pwr = s.pwr := rfl
@[simp] theorem onCuff_visor (s : State) (r : Nat) (f : MemCuff → MemCuff) : (s.onCuff r f).visor = s.visor := rfl
@[simp] theorem onCuff_test (s : State) (r : Nat) (f : MemCuff → MemCuff) : (s.onCuff r f).test = s.test := rfl
@[simp] theorem onCuff_clock (s : State) (r : Nat) (f : MemCuff → MemCuff) : (s.onCuff r f).clock = s.clock := rfl
@[simp] theorem onCuff_halt (s : State) (r : Nat) (f : MemCuff → MemCuff) : (s.onCuff r f).halt = s.halt := rfl
@[simp] theorem onCuff_haltLow (s : State) (r : Nat) (f : MemCuff → MemCuff) : (s.onCuff r f).haltLow = s.haltLow := rfl
@[simp] theorem onCuff_werr (s : State) (r : Nat) (f : MemCuff → MemCuff) : (s.onCuff r f).werr = s.werr := rfl
@[simp] theorem onCuff_quarMap (s : State) (r : Nat) (f : MemCuff → MemCuff) : (s.onCuff r f).quarMap = s.quarMap := rfl
@[simp] theorem onCuff_out (s : State) (r : Nat) (f : MemCuff → MemCuff) : (s.onCuff r f).out = s.out := rfl
@[simp] theorem onCuff_free (s : State) (r : Nat) (f : MemCuff → MemCuff) : (s.onCuff r f).free = s.free := rfl

/-! onUe -/
@[simp] theorem onUe_pending (s : State) (r : Nat) (f : UpdateEngine → UpdateEngine) : (s.onUe r f).pending = s.pending := rfl
@[simp] theorem onUe_cores (s : State) (r : Nat) (f : UpdateEngine → UpdateEngine) : (s.onUe r f).cores = s.cores := rfl
@[simp] theorem onUe_mem (s : State) (r : Nat) (f : UpdateEngine → UpdateEngine) : (s.onUe r f).mem = s.mem := rfl
@[simp] theorem onUe_keySlots (s : State) (r : Nat) (f : UpdateEngine → UpdateEngine) : (s.onUe r f).keySlots = s.keySlots := rfl
@[simp] theorem onUe_d2d (s : State) (r : Nat) (f : UpdateEngine → UpdateEngine) : (s.onUe r f).d2d = s.d2d := rfl
@[simp] theorem onUe_regs (s : State) (r : Nat) (f : UpdateEngine → UpdateEngine) : (s.onUe r f).regs = s.regs := rfl
@[simp] theorem onUe_errs (s : State) (r : Nat) (f : UpdateEngine → UpdateEngine) : (s.onUe r f).errs = s.errs := rfl
@[simp] theorem onUe_counts (s : State) (r : Nat) (f : UpdateEngine → UpdateEngine) : (s.onUe r f).counts = s.counts := rfl
@[simp] theorem onUe_keys (s : State) (r : Nat) (f : UpdateEngine → UpdateEngine) : (s.onUe r f).keys = s.keys := rfl
@[simp] theorem onUe_crown (s : State) (r : Nat) (f : UpdateEngine → UpdateEngine) : (s.onUe r f).crown = s.crown := rfl
@[simp] theorem onUe_brim (s : State) (r : Nat) (f : UpdateEngine → UpdateEngine) : (s.onUe r f).brim = s.brim := rfl
@[simp] theorem onUe_mgmt (s : State) (r : Nat) (f : UpdateEngine → UpdateEngine) : (s.onUe r f).mgmt = s.mgmt := rfl
@[simp] theorem onUe_net (s : State) (r : Nat) (f : UpdateEngine → UpdateEngine) : (s.onUe r f).net = s.net := rfl
@[simp] theorem onUe_host (s : State) (r : Nat) (f : UpdateEngine → UpdateEngine) : (s.onUe r f).host = s.host := rfl
@[simp] theorem onUe_boot (s : State) (r : Nat) (f : UpdateEngine → UpdateEngine) : (s.onUe r f).boot = s.boot := rfl
@[simp] theorem onUe_red (s : State) (r : Nat) (f : UpdateEngine → UpdateEngine) : (s.onUe r f).red = s.red := rfl
@[simp] theorem onUe_ckpt (s : State) (r : Nat) (f : UpdateEngine → UpdateEngine) : (s.onUe r f).ckpt = s.ckpt := rfl
@[simp] theorem onUe_pwr (s : State) (r : Nat) (f : UpdateEngine → UpdateEngine) : (s.onUe r f).pwr = s.pwr := rfl
@[simp] theorem onUe_visor (s : State) (r : Nat) (f : UpdateEngine → UpdateEngine) : (s.onUe r f).visor = s.visor := rfl
@[simp] theorem onUe_test (s : State) (r : Nat) (f : UpdateEngine → UpdateEngine) : (s.onUe r f).test = s.test := rfl
@[simp] theorem onUe_clock (s : State) (r : Nat) (f : UpdateEngine → UpdateEngine) : (s.onUe r f).clock = s.clock := rfl
@[simp] theorem onUe_halt (s : State) (r : Nat) (f : UpdateEngine → UpdateEngine) : (s.onUe r f).halt = s.halt := rfl
@[simp] theorem onUe_haltLow (s : State) (r : Nat) (f : UpdateEngine → UpdateEngine) : (s.onUe r f).haltLow = s.haltLow := rfl
@[simp] theorem onUe_werr (s : State) (r : Nat) (f : UpdateEngine → UpdateEngine) : (s.onUe r f).werr = s.werr := rfl
@[simp] theorem onUe_quarMap (s : State) (r : Nat) (f : UpdateEngine → UpdateEngine) : (s.onUe r f).quarMap = s.quarMap := rfl
@[simp] theorem onUe_out (s : State) (r : Nat) (f : UpdateEngine → UpdateEngine) : (s.onUe r f).out = s.out := rfl
@[simp] theorem onUe_free (s : State) (r : Nat) (f : UpdateEngine → UpdateEngine) : (s.onUe r f).free = s.free := rfl

/-! onCrown -/
@[simp] theorem onCrown_pending (s : State) (f : Crown → Crown) : (s.onCrown f).pending = s.pending := rfl
@[simp] theorem onCrown_cores (s : State) (f : Crown → Crown) : (s.onCrown f).cores = s.cores := rfl
@[simp] theorem onCrown_regions (s : State) (f : Crown → Crown) : (s.onCrown f).regions = s.regions := rfl
@[simp] theorem onCrown_mem (s : State) (f : Crown → Crown) : (s.onCrown f).mem = s.mem := rfl
@[simp] theorem onCrown_keySlots (s : State) (f : Crown → Crown) : (s.onCrown f).keySlots = s.keySlots := rfl
@[simp] theorem onCrown_d2d (s : State) (f : Crown → Crown) : (s.onCrown f).d2d = s.d2d := rfl
@[simp] theorem onCrown_regs (s : State) (f : Crown → Crown) : (s.onCrown f).regs = s.regs := rfl
@[simp] theorem onCrown_errs (s : State) (f : Crown → Crown) : (s.onCrown f).errs = s.errs := rfl
@[simp] theorem onCrown_counts (s : State) (f : Crown → Crown) : (s.onCrown f).counts = s.counts := rfl
@[simp] theorem onCrown_keys (s : State) (f : Crown → Crown) : (s.onCrown f).keys = s.keys := rfl
@[simp] theorem onCrown_brim (s : State) (f : Crown → Crown) : (s.onCrown f).brim = s.brim := rfl
@[simp] theorem onCrown_mgmt (s : State) (f : Crown → Crown) : (s.onCrown f).mgmt = s.mgmt := rfl
@[simp] theorem onCrown_net (s : State) (f : Crown → Crown) : (s.onCrown f).net = s.net := rfl
@[simp] theorem onCrown_host (s : State) (f : Crown → Crown) : (s.onCrown f).host = s.host := rfl
@[simp] theorem onCrown_boot (s : State) (f : Crown → Crown) : (s.onCrown f).boot = s.boot := rfl
@[simp] theorem onCrown_red (s : State) (f : Crown → Crown) : (s.onCrown f).red = s.red := rfl
@[simp] theorem onCrown_ckpt (s : State) (f : Crown → Crown) : (s.onCrown f).ckpt = s.ckpt := rfl
@[simp] theorem onCrown_pwr (s : State) (f : Crown → Crown) : (s.onCrown f).pwr = s.pwr := rfl
@[simp] theorem onCrown_visor (s : State) (f : Crown → Crown) : (s.onCrown f).visor = s.visor := rfl
@[simp] theorem onCrown_test (s : State) (f : Crown → Crown) : (s.onCrown f).test = s.test := rfl
@[simp] theorem onCrown_clock (s : State) (f : Crown → Crown) : (s.onCrown f).clock = s.clock := rfl
@[simp] theorem onCrown_halt (s : State) (f : Crown → Crown) : (s.onCrown f).halt = s.halt := rfl
@[simp] theorem onCrown_haltLow (s : State) (f : Crown → Crown) : (s.onCrown f).haltLow = s.haltLow := rfl
@[simp] theorem onCrown_werr (s : State) (f : Crown → Crown) : (s.onCrown f).werr = s.werr := rfl
@[simp] theorem onCrown_quarMap (s : State) (f : Crown → Crown) : (s.onCrown f).quarMap = s.quarMap := rfl
@[simp] theorem onCrown_out (s : State) (f : Crown → Crown) : (s.onCrown f).out = s.out := rfl
@[simp] theorem onCrown_free (s : State) (f : Crown → Crown) : (s.onCrown f).free = s.free := rfl

/-! onHost -/
@[simp] theorem onHost_pending (s : State) (f : HostPort → HostPort) : (s.onHost f).pending = s.pending := rfl
@[simp] theorem onHost_cores (s : State) (f : HostPort → HostPort) : (s.onHost f).cores = s.cores := rfl
@[simp] theorem onHost_regions (s : State) (f : HostPort → HostPort) : (s.onHost f).regions = s.regions := rfl
@[simp] theorem onHost_mem (s : State) (f : HostPort → HostPort) : (s.onHost f).mem = s.mem := rfl
@[simp] theorem onHost_keySlots (s : State) (f : HostPort → HostPort) : (s.onHost f).keySlots = s.keySlots := rfl
@[simp] theorem onHost_d2d (s : State) (f : HostPort → HostPort) : (s.onHost f).d2d = s.d2d := rfl
@[simp] theorem onHost_regs (s : State) (f : HostPort → HostPort) : (s.onHost f).regs = s.regs := rfl
@[simp] theorem onHost_errs (s : State) (f : HostPort → HostPort) : (s.onHost f).errs = s.errs := rfl
@[simp] theorem onHost_counts (s : State) (f : HostPort → HostPort) : (s.onHost f).counts = s.counts := rfl
@[simp] theorem onHost_keys (s : State) (f : HostPort → HostPort) : (s.onHost f).keys = s.keys := rfl
@[simp] theorem onHost_crown (s : State) (f : HostPort → HostPort) : (s.onHost f).crown = s.crown := rfl
@[simp] theorem onHost_brim (s : State) (f : HostPort → HostPort) : (s.onHost f).brim = s.brim := rfl
@[simp] theorem onHost_mgmt (s : State) (f : HostPort → HostPort) : (s.onHost f).mgmt = s.mgmt := rfl
@[simp] theorem onHost_net (s : State) (f : HostPort → HostPort) : (s.onHost f).net = s.net := rfl
@[simp] theorem onHost_boot (s : State) (f : HostPort → HostPort) : (s.onHost f).boot = s.boot := rfl
@[simp] theorem onHost_red (s : State) (f : HostPort → HostPort) : (s.onHost f).red = s.red := rfl
@[simp] theorem onHost_ckpt (s : State) (f : HostPort → HostPort) : (s.onHost f).ckpt = s.ckpt := rfl
@[simp] theorem onHost_pwr (s : State) (f : HostPort → HostPort) : (s.onHost f).pwr = s.pwr := rfl
@[simp] theorem onHost_visor (s : State) (f : HostPort → HostPort) : (s.onHost f).visor = s.visor := rfl
@[simp] theorem onHost_test (s : State) (f : HostPort → HostPort) : (s.onHost f).test = s.test := rfl
@[simp] theorem onHost_clock (s : State) (f : HostPort → HostPort) : (s.onHost f).clock = s.clock := rfl
@[simp] theorem onHost_halt (s : State) (f : HostPort → HostPort) : (s.onHost f).halt = s.halt := rfl
@[simp] theorem onHost_haltLow (s : State) (f : HostPort → HostPort) : (s.onHost f).haltLow = s.haltLow := rfl
@[simp] theorem onHost_werr (s : State) (f : HostPort → HostPort) : (s.onHost f).werr = s.werr := rfl
@[simp] theorem onHost_quarMap (s : State) (f : HostPort → HostPort) : (s.onHost f).quarMap = s.quarMap := rfl
@[simp] theorem onHost_out (s : State) (f : HostPort → HostPort) : (s.onHost f).out = s.out := rfl
@[simp] theorem onHost_free (s : State) (f : HostPort → HostPort) : (s.onHost f).free = s.free := rfl

/-! onRed -/
@[simp] theorem onRed_pending (s : State) (f : Reduce → Reduce) : (s.onRed f).pending = s.pending := rfl
@[simp] theorem onRed_cores (s : State) (f : Reduce → Reduce) : (s.onRed f).cores = s.cores := rfl
@[simp] theorem onRed_regions (s : State) (f : Reduce → Reduce) : (s.onRed f).regions = s.regions := rfl
@[simp] theorem onRed_mem (s : State) (f : Reduce → Reduce) : (s.onRed f).mem = s.mem := rfl
@[simp] theorem onRed_keySlots (s : State) (f : Reduce → Reduce) : (s.onRed f).keySlots = s.keySlots := rfl
@[simp] theorem onRed_d2d (s : State) (f : Reduce → Reduce) : (s.onRed f).d2d = s.d2d := rfl
@[simp] theorem onRed_regs (s : State) (f : Reduce → Reduce) : (s.onRed f).regs = s.regs := rfl
@[simp] theorem onRed_errs (s : State) (f : Reduce → Reduce) : (s.onRed f).errs = s.errs := rfl
@[simp] theorem onRed_counts (s : State) (f : Reduce → Reduce) : (s.onRed f).counts = s.counts := rfl
@[simp] theorem onRed_keys (s : State) (f : Reduce → Reduce) : (s.onRed f).keys = s.keys := rfl
@[simp] theorem onRed_crown (s : State) (f : Reduce → Reduce) : (s.onRed f).crown = s.crown := rfl
@[simp] theorem onRed_brim (s : State) (f : Reduce → Reduce) : (s.onRed f).brim = s.brim := rfl
@[simp] theorem onRed_mgmt (s : State) (f : Reduce → Reduce) : (s.onRed f).mgmt = s.mgmt := rfl
@[simp] theorem onRed_net (s : State) (f : Reduce → Reduce) : (s.onRed f).net = s.net := rfl
@[simp] theorem onRed_host (s : State) (f : Reduce → Reduce) : (s.onRed f).host = s.host := rfl
@[simp] theorem onRed_boot (s : State) (f : Reduce → Reduce) : (s.onRed f).boot = s.boot := rfl
@[simp] theorem onRed_ckpt (s : State) (f : Reduce → Reduce) : (s.onRed f).ckpt = s.ckpt := rfl
@[simp] theorem onRed_pwr (s : State) (f : Reduce → Reduce) : (s.onRed f).pwr = s.pwr := rfl
@[simp] theorem onRed_visor (s : State) (f : Reduce → Reduce) : (s.onRed f).visor = s.visor := rfl
@[simp] theorem onRed_test (s : State) (f : Reduce → Reduce) : (s.onRed f).test = s.test := rfl
@[simp] theorem onRed_clock (s : State) (f : Reduce → Reduce) : (s.onRed f).clock = s.clock := rfl
@[simp] theorem onRed_halt (s : State) (f : Reduce → Reduce) : (s.onRed f).halt = s.halt := rfl
@[simp] theorem onRed_haltLow (s : State) (f : Reduce → Reduce) : (s.onRed f).haltLow = s.haltLow := rfl
@[simp] theorem onRed_werr (s : State) (f : Reduce → Reduce) : (s.onRed f).werr = s.werr := rfl
@[simp] theorem onRed_quarMap (s : State) (f : Reduce → Reduce) : (s.onRed f).quarMap = s.quarMap := rfl
@[simp] theorem onRed_out (s : State) (f : Reduce → Reduce) : (s.onRed f).out = s.out := rfl
@[simp] theorem onRed_free (s : State) (f : Reduce → Reduce) : (s.onRed f).free = s.free := rfl

/-! onPwr -/
@[simp] theorem onPwr_pending (s : State) (f : Pwr → Pwr) : (s.onPwr f).pending = s.pending := rfl
@[simp] theorem onPwr_cores (s : State) (f : Pwr → Pwr) : (s.onPwr f).cores = s.cores := rfl
@[simp] theorem onPwr_regions (s : State) (f : Pwr → Pwr) : (s.onPwr f).regions = s.regions := rfl
@[simp] theorem onPwr_mem (s : State) (f : Pwr → Pwr) : (s.onPwr f).mem = s.mem := rfl
@[simp] theorem onPwr_keySlots (s : State) (f : Pwr → Pwr) : (s.onPwr f).keySlots = s.keySlots := rfl
@[simp] theorem onPwr_d2d (s : State) (f : Pwr → Pwr) : (s.onPwr f).d2d = s.d2d := rfl
@[simp] theorem onPwr_regs (s : State) (f : Pwr → Pwr) : (s.onPwr f).regs = s.regs := rfl
@[simp] theorem onPwr_errs (s : State) (f : Pwr → Pwr) : (s.onPwr f).errs = s.errs := rfl
@[simp] theorem onPwr_counts (s : State) (f : Pwr → Pwr) : (s.onPwr f).counts = s.counts := rfl
@[simp] theorem onPwr_keys (s : State) (f : Pwr → Pwr) : (s.onPwr f).keys = s.keys := rfl
@[simp] theorem onPwr_crown (s : State) (f : Pwr → Pwr) : (s.onPwr f).crown = s.crown := rfl
@[simp] theorem onPwr_brim (s : State) (f : Pwr → Pwr) : (s.onPwr f).brim = s.brim := rfl
@[simp] theorem onPwr_mgmt (s : State) (f : Pwr → Pwr) : (s.onPwr f).mgmt = s.mgmt := rfl
@[simp] theorem onPwr_net (s : State) (f : Pwr → Pwr) : (s.onPwr f).net = s.net := rfl
@[simp] theorem onPwr_host (s : State) (f : Pwr → Pwr) : (s.onPwr f).host = s.host := rfl
@[simp] theorem onPwr_boot (s : State) (f : Pwr → Pwr) : (s.onPwr f).boot = s.boot := rfl
@[simp] theorem onPwr_red (s : State) (f : Pwr → Pwr) : (s.onPwr f).red = s.red := rfl
@[simp] theorem onPwr_ckpt (s : State) (f : Pwr → Pwr) : (s.onPwr f).ckpt = s.ckpt := rfl
@[simp] theorem onPwr_visor (s : State) (f : Pwr → Pwr) : (s.onPwr f).visor = s.visor := rfl
@[simp] theorem onPwr_test (s : State) (f : Pwr → Pwr) : (s.onPwr f).test = s.test := rfl
@[simp] theorem onPwr_clock (s : State) (f : Pwr → Pwr) : (s.onPwr f).clock = s.clock := rfl
@[simp] theorem onPwr_halt (s : State) (f : Pwr → Pwr) : (s.onPwr f).halt = s.halt := rfl
@[simp] theorem onPwr_haltLow (s : State) (f : Pwr → Pwr) : (s.onPwr f).haltLow = s.haltLow := rfl
@[simp] theorem onPwr_werr (s : State) (f : Pwr → Pwr) : (s.onPwr f).werr = s.werr := rfl
@[simp] theorem onPwr_quarMap (s : State) (f : Pwr → Pwr) : (s.onPwr f).quarMap = s.quarMap := rfl
@[simp] theorem onPwr_out (s : State) (f : Pwr → Pwr) : (s.onPwr f).out = s.out := rfl
@[simp] theorem onPwr_free (s : State) (f : Pwr → Pwr) : (s.onPwr f).free = s.free := rfl

/-! onBoot -/
@[simp] theorem onBoot_pending (s : State) (f : Boot → Boot) : (s.onBoot f).pending = s.pending := rfl
@[simp] theorem onBoot_cores (s : State) (f : Boot → Boot) : (s.onBoot f).cores = s.cores := rfl
@[simp] theorem onBoot_regions (s : State) (f : Boot → Boot) : (s.onBoot f).regions = s.regions := rfl
@[simp] theorem onBoot_mem (s : State) (f : Boot → Boot) : (s.onBoot f).mem = s.mem := rfl
@[simp] theorem onBoot_keySlots (s : State) (f : Boot → Boot) : (s.onBoot f).keySlots = s.keySlots := rfl
@[simp] theorem onBoot_d2d (s : State) (f : Boot → Boot) : (s.onBoot f).d2d = s.d2d := rfl
@[simp] theorem onBoot_regs (s : State) (f : Boot → Boot) : (s.onBoot f).regs = s.regs := rfl
@[simp] theorem onBoot_errs (s : State) (f : Boot → Boot) : (s.onBoot f).errs = s.errs := rfl
@[simp] theorem onBoot_counts (s : State) (f : Boot → Boot) : (s.onBoot f).counts = s.counts := rfl
@[simp] theorem onBoot_keys (s : State) (f : Boot → Boot) : (s.onBoot f).keys = s.keys := rfl
@[simp] theorem onBoot_crown (s : State) (f : Boot → Boot) : (s.onBoot f).crown = s.crown := rfl
@[simp] theorem onBoot_brim (s : State) (f : Boot → Boot) : (s.onBoot f).brim = s.brim := rfl
@[simp] theorem onBoot_mgmt (s : State) (f : Boot → Boot) : (s.onBoot f).mgmt = s.mgmt := rfl
@[simp] theorem onBoot_net (s : State) (f : Boot → Boot) : (s.onBoot f).net = s.net := rfl
@[simp] theorem onBoot_host (s : State) (f : Boot → Boot) : (s.onBoot f).host = s.host := rfl
@[simp] theorem onBoot_red (s : State) (f : Boot → Boot) : (s.onBoot f).red = s.red := rfl
@[simp] theorem onBoot_ckpt (s : State) (f : Boot → Boot) : (s.onBoot f).ckpt = s.ckpt := rfl
@[simp] theorem onBoot_pwr (s : State) (f : Boot → Boot) : (s.onBoot f).pwr = s.pwr := rfl
@[simp] theorem onBoot_visor (s : State) (f : Boot → Boot) : (s.onBoot f).visor = s.visor := rfl
@[simp] theorem onBoot_test (s : State) (f : Boot → Boot) : (s.onBoot f).test = s.test := rfl
@[simp] theorem onBoot_clock (s : State) (f : Boot → Boot) : (s.onBoot f).clock = s.clock := rfl
@[simp] theorem onBoot_halt (s : State) (f : Boot → Boot) : (s.onBoot f).halt = s.halt := rfl
@[simp] theorem onBoot_haltLow (s : State) (f : Boot → Boot) : (s.onBoot f).haltLow = s.haltLow := rfl
@[simp] theorem onBoot_werr (s : State) (f : Boot → Boot) : (s.onBoot f).werr = s.werr := rfl
@[simp] theorem onBoot_quarMap (s : State) (f : Boot → Boot) : (s.onBoot f).quarMap = s.quarMap := rfl
@[simp] theorem onBoot_out (s : State) (f : Boot → Boot) : (s.onBoot f).out = s.out := rfl
@[simp] theorem onBoot_free (s : State) (f : Boot → Boot) : (s.onBoot f).free = s.free := rfl

/-! onBrim -/
@[simp] theorem onBrim_pending (s : State) (f : BrimNet → BrimNet) : (s.onBrim f).pending = s.pending := rfl
@[simp] theorem onBrim_cores (s : State) (f : BrimNet → BrimNet) : (s.onBrim f).cores = s.cores := rfl
@[simp] theorem onBrim_regions (s : State) (f : BrimNet → BrimNet) : (s.onBrim f).regions = s.regions := rfl
@[simp] theorem onBrim_mem (s : State) (f : BrimNet → BrimNet) : (s.onBrim f).mem = s.mem := rfl
@[simp] theorem onBrim_keySlots (s : State) (f : BrimNet → BrimNet) : (s.onBrim f).keySlots = s.keySlots := rfl
@[simp] theorem onBrim_d2d (s : State) (f : BrimNet → BrimNet) : (s.onBrim f).d2d = s.d2d := rfl
@[simp] theorem onBrim_regs (s : State) (f : BrimNet → BrimNet) : (s.onBrim f).regs = s.regs := rfl
@[simp] theorem onBrim_errs (s : State) (f : BrimNet → BrimNet) : (s.onBrim f).errs = s.errs := rfl
@[simp] theorem onBrim_counts (s : State) (f : BrimNet → BrimNet) : (s.onBrim f).counts = s.counts := rfl
@[simp] theorem onBrim_keys (s : State) (f : BrimNet → BrimNet) : (s.onBrim f).keys = s.keys := rfl
@[simp] theorem onBrim_crown (s : State) (f : BrimNet → BrimNet) : (s.onBrim f).crown = s.crown := rfl
@[simp] theorem onBrim_mgmt (s : State) (f : BrimNet → BrimNet) : (s.onBrim f).mgmt = s.mgmt := rfl
@[simp] theorem onBrim_net (s : State) (f : BrimNet → BrimNet) : (s.onBrim f).net = s.net := rfl
@[simp] theorem onBrim_host (s : State) (f : BrimNet → BrimNet) : (s.onBrim f).host = s.host := rfl
@[simp] theorem onBrim_boot (s : State) (f : BrimNet → BrimNet) : (s.onBrim f).boot = s.boot := rfl
@[simp] theorem onBrim_red (s : State) (f : BrimNet → BrimNet) : (s.onBrim f).red = s.red := rfl
@[simp] theorem onBrim_ckpt (s : State) (f : BrimNet → BrimNet) : (s.onBrim f).ckpt = s.ckpt := rfl
@[simp] theorem onBrim_pwr (s : State) (f : BrimNet → BrimNet) : (s.onBrim f).pwr = s.pwr := rfl
@[simp] theorem onBrim_visor (s : State) (f : BrimNet → BrimNet) : (s.onBrim f).visor = s.visor := rfl
@[simp] theorem onBrim_test (s : State) (f : BrimNet → BrimNet) : (s.onBrim f).test = s.test := rfl
@[simp] theorem onBrim_clock (s : State) (f : BrimNet → BrimNet) : (s.onBrim f).clock = s.clock := rfl
@[simp] theorem onBrim_halt (s : State) (f : BrimNet → BrimNet) : (s.onBrim f).halt = s.halt := rfl
@[simp] theorem onBrim_haltLow (s : State) (f : BrimNet → BrimNet) : (s.onBrim f).haltLow = s.haltLow := rfl
@[simp] theorem onBrim_werr (s : State) (f : BrimNet → BrimNet) : (s.onBrim f).werr = s.werr := rfl
@[simp] theorem onBrim_quarMap (s : State) (f : BrimNet → BrimNet) : (s.onBrim f).quarMap = s.quarMap := rfl
@[simp] theorem onBrim_out (s : State) (f : BrimNet → BrimNet) : (s.onBrim f).out = s.out := rfl
@[simp] theorem onBrim_free (s : State) (f : BrimNet → BrimNet) : (s.onBrim f).free = s.free := rfl

/-! onNet -/
@[simp] theorem onNet_pending (s : State) (f : Net → Net) : (s.onNet f).pending = s.pending := rfl
@[simp] theorem onNet_cores (s : State) (f : Net → Net) : (s.onNet f).cores = s.cores := rfl
@[simp] theorem onNet_regions (s : State) (f : Net → Net) : (s.onNet f).regions = s.regions := rfl
@[simp] theorem onNet_mem (s : State) (f : Net → Net) : (s.onNet f).mem = s.mem := rfl
@[simp] theorem onNet_keySlots (s : State) (f : Net → Net) : (s.onNet f).keySlots = s.keySlots := rfl
@[simp] theorem onNet_d2d (s : State) (f : Net → Net) : (s.onNet f).d2d = s.d2d := rfl
@[simp] theorem onNet_regs (s : State) (f : Net → Net) : (s.onNet f).regs = s.regs := rfl
@[simp] theorem onNet_errs (s : State) (f : Net → Net) : (s.onNet f).errs = s.errs := rfl
@[simp] theorem onNet_counts (s : State) (f : Net → Net) : (s.onNet f).counts = s.counts := rfl
@[simp] theorem onNet_keys (s : State) (f : Net → Net) : (s.onNet f).keys = s.keys := rfl
@[simp] theorem onNet_crown (s : State) (f : Net → Net) : (s.onNet f).crown = s.crown := rfl
@[simp] theorem onNet_brim (s : State) (f : Net → Net) : (s.onNet f).brim = s.brim := rfl
@[simp] theorem onNet_mgmt (s : State) (f : Net → Net) : (s.onNet f).mgmt = s.mgmt := rfl
@[simp] theorem onNet_host (s : State) (f : Net → Net) : (s.onNet f).host = s.host := rfl
@[simp] theorem onNet_boot (s : State) (f : Net → Net) : (s.onNet f).boot = s.boot := rfl
@[simp] theorem onNet_red (s : State) (f : Net → Net) : (s.onNet f).red = s.red := rfl
@[simp] theorem onNet_ckpt (s : State) (f : Net → Net) : (s.onNet f).ckpt = s.ckpt := rfl
@[simp] theorem onNet_pwr (s : State) (f : Net → Net) : (s.onNet f).pwr = s.pwr := rfl
@[simp] theorem onNet_visor (s : State) (f : Net → Net) : (s.onNet f).visor = s.visor := rfl
@[simp] theorem onNet_test (s : State) (f : Net → Net) : (s.onNet f).test = s.test := rfl
@[simp] theorem onNet_clock (s : State) (f : Net → Net) : (s.onNet f).clock = s.clock := rfl
@[simp] theorem onNet_halt (s : State) (f : Net → Net) : (s.onNet f).halt = s.halt := rfl
@[simp] theorem onNet_haltLow (s : State) (f : Net → Net) : (s.onNet f).haltLow = s.haltLow := rfl
@[simp] theorem onNet_werr (s : State) (f : Net → Net) : (s.onNet f).werr = s.werr := rfl
@[simp] theorem onNet_quarMap (s : State) (f : Net → Net) : (s.onNet f).quarMap = s.quarMap := rfl
@[simp] theorem onNet_out (s : State) (f : Net → Net) : (s.onNet f).out = s.out := rfl
@[simp] theorem onNet_free (s : State) (f : Net → Net) : (s.onNet f).free = s.free := rfl

/-! setLink -/
@[simp] theorem setLink_pending (s : State) (j : Nat) (l : Link) : (s.setLink j l).pending = s.pending := rfl
@[simp] theorem setLink_cores (s : State) (j : Nat) (l : Link) : (s.setLink j l).cores = s.cores := rfl
@[simp] theorem setLink_regions (s : State) (j : Nat) (l : Link) : (s.setLink j l).regions = s.regions := rfl
@[simp] theorem setLink_mem (s : State) (j : Nat) (l : Link) : (s.setLink j l).mem = s.mem := rfl
@[simp] theorem setLink_keySlots (s : State) (j : Nat) (l : Link) : (s.setLink j l).keySlots = s.keySlots := rfl
@[simp] theorem setLink_d2d (s : State) (j : Nat) (l : Link) : (s.setLink j l).d2d = s.d2d := rfl
@[simp] theorem setLink_regs (s : State) (j : Nat) (l : Link) : (s.setLink j l).regs = s.regs := rfl
@[simp] theorem setLink_errs (s : State) (j : Nat) (l : Link) : (s.setLink j l).errs = s.errs := rfl
@[simp] theorem setLink_counts (s : State) (j : Nat) (l : Link) : (s.setLink j l).counts = s.counts := rfl
@[simp] theorem setLink_keys (s : State) (j : Nat) (l : Link) : (s.setLink j l).keys = s.keys := rfl
@[simp] theorem setLink_crown (s : State) (j : Nat) (l : Link) : (s.setLink j l).crown = s.crown := rfl
@[simp] theorem setLink_brim (s : State) (j : Nat) (l : Link) : (s.setLink j l).brim = s.brim := rfl
@[simp] theorem setLink_mgmt (s : State) (j : Nat) (l : Link) : (s.setLink j l).mgmt = s.mgmt := rfl
@[simp] theorem setLink_host (s : State) (j : Nat) (l : Link) : (s.setLink j l).host = s.host := rfl
@[simp] theorem setLink_boot (s : State) (j : Nat) (l : Link) : (s.setLink j l).boot = s.boot := rfl
@[simp] theorem setLink_red (s : State) (j : Nat) (l : Link) : (s.setLink j l).red = s.red := rfl
@[simp] theorem setLink_ckpt (s : State) (j : Nat) (l : Link) : (s.setLink j l).ckpt = s.ckpt := rfl
@[simp] theorem setLink_pwr (s : State) (j : Nat) (l : Link) : (s.setLink j l).pwr = s.pwr := rfl
@[simp] theorem setLink_visor (s : State) (j : Nat) (l : Link) : (s.setLink j l).visor = s.visor := rfl
@[simp] theorem setLink_test (s : State) (j : Nat) (l : Link) : (s.setLink j l).test = s.test := rfl
@[simp] theorem setLink_clock (s : State) (j : Nat) (l : Link) : (s.setLink j l).clock = s.clock := rfl
@[simp] theorem setLink_halt (s : State) (j : Nat) (l : Link) : (s.setLink j l).halt = s.halt := rfl
@[simp] theorem setLink_haltLow (s : State) (j : Nat) (l : Link) : (s.setLink j l).haltLow = s.haltLow := rfl
@[simp] theorem setLink_werr (s : State) (j : Nat) (l : Link) : (s.setLink j l).werr = s.werr := rfl
@[simp] theorem setLink_quarMap (s : State) (j : Nat) (l : Link) : (s.setLink j l).quarMap = s.quarMap := rfl
@[simp] theorem setLink_out (s : State) (j : Nat) (l : Link) : (s.setLink j l).out = s.out := rfl
@[simp] theorem setLink_free (s : State) (j : Nat) (l : Link) : (s.setLink j l).free = s.free := rfl

/-! onLink -/
@[simp] theorem onLink_pending (s : State) (j : Nat) (f : Link → Link) : (s.onLink j f).pending = s.pending := rfl
@[simp] theorem onLink_cores (s : State) (j : Nat) (f : Link → Link) : (s.onLink j f).cores = s.cores := rfl
@[simp] theorem onLink_regions (s : State) (j : Nat) (f : Link → Link) : (s.onLink j f).regions = s.regions := rfl
@[simp] theorem onLink_mem (s : State) (j : Nat) (f : Link → Link) : (s.onLink j f).mem = s.mem := rfl
@[simp] theorem onLink_keySlots (s : State) (j : Nat) (f : Link → Link) : (s.onLink j f).keySlots = s.keySlots := rfl
@[simp] theorem onLink_d2d (s : State) (j : Nat) (f : Link → Link) : (s.onLink j f).d2d = s.d2d := rfl
@[simp] theorem onLink_regs (s : State) (j : Nat) (f : Link → Link) : (s.onLink j f).regs = s.regs := rfl
@[simp] theorem onLink_errs (s : State) (j : Nat) (f : Link → Link) : (s.onLink j f).errs = s.errs := rfl
@[simp] theorem onLink_counts (s : State) (j : Nat) (f : Link → Link) : (s.onLink j f).counts = s.counts := rfl
@[simp] theorem onLink_keys (s : State) (j : Nat) (f : Link → Link) : (s.onLink j f).keys = s.keys := rfl
@[simp] theorem onLink_crown (s : State) (j : Nat) (f : Link → Link) : (s.onLink j f).crown = s.crown := rfl
@[simp] theorem onLink_brim (s : State) (j : Nat) (f : Link → Link) : (s.onLink j f).brim = s.brim := rfl
@[simp] theorem onLink_mgmt (s : State) (j : Nat) (f : Link → Link) : (s.onLink j f).mgmt = s.mgmt := rfl
@[simp] theorem onLink_host (s : State) (j : Nat) (f : Link → Link) : (s.onLink j f).host = s.host := rfl
@[simp] theorem onLink_boot (s : State) (j : Nat) (f : Link → Link) : (s.onLink j f).boot = s.boot := rfl
@[simp] theorem onLink_red (s : State) (j : Nat) (f : Link → Link) : (s.onLink j f).red = s.red := rfl
@[simp] theorem onLink_ckpt (s : State) (j : Nat) (f : Link → Link) : (s.onLink j f).ckpt = s.ckpt := rfl
@[simp] theorem onLink_pwr (s : State) (j : Nat) (f : Link → Link) : (s.onLink j f).pwr = s.pwr := rfl
@[simp] theorem onLink_visor (s : State) (j : Nat) (f : Link → Link) : (s.onLink j f).visor = s.visor := rfl
@[simp] theorem onLink_test (s : State) (j : Nat) (f : Link → Link) : (s.onLink j f).test = s.test := rfl
@[simp] theorem onLink_clock (s : State) (j : Nat) (f : Link → Link) : (s.onLink j f).clock = s.clock := rfl
@[simp] theorem onLink_halt (s : State) (j : Nat) (f : Link → Link) : (s.onLink j f).halt = s.halt := rfl
@[simp] theorem onLink_haltLow (s : State) (j : Nat) (f : Link → Link) : (s.onLink j f).haltLow = s.haltLow := rfl
@[simp] theorem onLink_werr (s : State) (j : Nat) (f : Link → Link) : (s.onLink j f).werr = s.werr := rfl
@[simp] theorem onLink_quarMap (s : State) (j : Nat) (f : Link → Link) : (s.onLink j f).quarMap = s.quarMap := rfl
@[simp] theorem onLink_out (s : State) (j : Nat) (f : Link → Link) : (s.onLink j f).out = s.out := rfl
@[simp] theorem onLink_free (s : State) (j : Nat) (f : Link → Link) : (s.onLink j f).free = s.free := rfl

/-! putSlot -/
@[simp] theorem putSlot_pending (s : State) (cuff slot key : Nat) : (s.putSlot cuff slot key).pending = s.pending := rfl
@[simp] theorem putSlot_cores (s : State) (cuff slot key : Nat) : (s.putSlot cuff slot key).cores = s.cores := rfl
@[simp] theorem putSlot_regions (s : State) (cuff slot key : Nat) : (s.putSlot cuff slot key).regions = s.regions := rfl
@[simp] theorem putSlot_mem (s : State) (cuff slot key : Nat) : (s.putSlot cuff slot key).mem = s.mem := rfl
@[simp] theorem putSlot_d2d (s : State) (cuff slot key : Nat) : (s.putSlot cuff slot key).d2d = s.d2d := rfl
@[simp] theorem putSlot_regs (s : State) (cuff slot key : Nat) : (s.putSlot cuff slot key).regs = s.regs := rfl
@[simp] theorem putSlot_errs (s : State) (cuff slot key : Nat) : (s.putSlot cuff slot key).errs = s.errs := rfl
@[simp] theorem putSlot_counts (s : State) (cuff slot key : Nat) : (s.putSlot cuff slot key).counts = s.counts := rfl
@[simp] theorem putSlot_crown (s : State) (cuff slot key : Nat) : (s.putSlot cuff slot key).crown = s.crown := rfl
@[simp] theorem putSlot_brim (s : State) (cuff slot key : Nat) : (s.putSlot cuff slot key).brim = s.brim := rfl
@[simp] theorem putSlot_mgmt (s : State) (cuff slot key : Nat) : (s.putSlot cuff slot key).mgmt = s.mgmt := rfl
@[simp] theorem putSlot_net (s : State) (cuff slot key : Nat) : (s.putSlot cuff slot key).net = s.net := rfl
@[simp] theorem putSlot_host (s : State) (cuff slot key : Nat) : (s.putSlot cuff slot key).host = s.host := rfl
@[simp] theorem putSlot_boot (s : State) (cuff slot key : Nat) : (s.putSlot cuff slot key).boot = s.boot := rfl
@[simp] theorem putSlot_red (s : State) (cuff slot key : Nat) : (s.putSlot cuff slot key).red = s.red := rfl
@[simp] theorem putSlot_ckpt (s : State) (cuff slot key : Nat) : (s.putSlot cuff slot key).ckpt = s.ckpt := rfl
@[simp] theorem putSlot_pwr (s : State) (cuff slot key : Nat) : (s.putSlot cuff slot key).pwr = s.pwr := rfl
@[simp] theorem putSlot_visor (s : State) (cuff slot key : Nat) : (s.putSlot cuff slot key).visor = s.visor := rfl
@[simp] theorem putSlot_test (s : State) (cuff slot key : Nat) : (s.putSlot cuff slot key).test = s.test := rfl
@[simp] theorem putSlot_clock (s : State) (cuff slot key : Nat) : (s.putSlot cuff slot key).clock = s.clock := rfl
@[simp] theorem putSlot_halt (s : State) (cuff slot key : Nat) : (s.putSlot cuff slot key).halt = s.halt := rfl
@[simp] theorem putSlot_haltLow (s : State) (cuff slot key : Nat) : (s.putSlot cuff slot key).haltLow = s.haltLow := rfl
@[simp] theorem putSlot_werr (s : State) (cuff slot key : Nat) : (s.putSlot cuff slot key).werr = s.werr := rfl
@[simp] theorem putSlot_quarMap (s : State) (cuff slot key : Nat) : (s.putSlot cuff slot key).quarMap = s.quarMap := rfl
@[simp] theorem putSlot_out (s : State) (cuff slot key : Nat) : (s.putSlot cuff slot key).out = s.out := rfl
@[simp] theorem putSlot_free (s : State) (cuff slot key : Nat) : (s.putSlot cuff slot key).free = s.free := rfl

/-! drawKeys -/
@[simp] theorem drawKeys_pending (s : State) (kind slot : Nat) : (s.drawKeys kind slot).pending = s.pending := rfl
@[simp] theorem drawKeys_cores (s : State) (kind slot : Nat) : (s.drawKeys kind slot).cores = s.cores := rfl
@[simp] theorem drawKeys_regions (s : State) (kind slot : Nat) : (s.drawKeys kind slot).regions = s.regions := rfl
@[simp] theorem drawKeys_mem (s : State) (kind slot : Nat) : (s.drawKeys kind slot).mem = s.mem := rfl
@[simp] theorem drawKeys_keySlots (s : State) (kind slot : Nat) : (s.drawKeys kind slot).keySlots = s.keySlots := rfl
@[simp] theorem drawKeys_d2d (s : State) (kind slot : Nat) : (s.drawKeys kind slot).d2d = s.d2d := rfl
@[simp] theorem drawKeys_regs (s : State) (kind slot : Nat) : (s.drawKeys kind slot).regs = s.regs := rfl
@[simp] theorem drawKeys_errs (s : State) (kind slot : Nat) : (s.drawKeys kind slot).errs = s.errs := rfl
@[simp] theorem drawKeys_counts (s : State) (kind slot : Nat) : (s.drawKeys kind slot).counts = s.counts := rfl
@[simp] theorem drawKeys_crown (s : State) (kind slot : Nat) : (s.drawKeys kind slot).crown = s.crown := rfl
@[simp] theorem drawKeys_brim (s : State) (kind slot : Nat) : (s.drawKeys kind slot).brim = s.brim := rfl
@[simp] theorem drawKeys_mgmt (s : State) (kind slot : Nat) : (s.drawKeys kind slot).mgmt = s.mgmt := rfl
@[simp] theorem drawKeys_net (s : State) (kind slot : Nat) : (s.drawKeys kind slot).net = s.net := rfl
@[simp] theorem drawKeys_host (s : State) (kind slot : Nat) : (s.drawKeys kind slot).host = s.host := rfl
@[simp] theorem drawKeys_boot (s : State) (kind slot : Nat) : (s.drawKeys kind slot).boot = s.boot := rfl
@[simp] theorem drawKeys_red (s : State) (kind slot : Nat) : (s.drawKeys kind slot).red = s.red := rfl
@[simp] theorem drawKeys_ckpt (s : State) (kind slot : Nat) : (s.drawKeys kind slot).ckpt = s.ckpt := rfl
@[simp] theorem drawKeys_pwr (s : State) (kind slot : Nat) : (s.drawKeys kind slot).pwr = s.pwr := rfl
@[simp] theorem drawKeys_visor (s : State) (kind slot : Nat) : (s.drawKeys kind slot).visor = s.visor := rfl
@[simp] theorem drawKeys_test (s : State) (kind slot : Nat) : (s.drawKeys kind slot).test = s.test := rfl
@[simp] theorem drawKeys_clock (s : State) (kind slot : Nat) : (s.drawKeys kind slot).clock = s.clock := rfl
@[simp] theorem drawKeys_halt (s : State) (kind slot : Nat) : (s.drawKeys kind slot).halt = s.halt := rfl
@[simp] theorem drawKeys_haltLow (s : State) (kind slot : Nat) : (s.drawKeys kind slot).haltLow = s.haltLow := rfl
@[simp] theorem drawKeys_werr (s : State) (kind slot : Nat) : (s.drawKeys kind slot).werr = s.werr := rfl
@[simp] theorem drawKeys_quarMap (s : State) (kind slot : Nat) : (s.drawKeys kind slot).quarMap = s.quarMap := rfl
@[simp] theorem drawKeys_out (s : State) (kind slot : Nat) : (s.drawKeys kind slot).out = s.out := rfl

/-! dropKeys -/
@[simp] theorem dropKeys_pending (s : State) (kind slot : Nat) : (s.dropKeys kind slot).pending = s.pending := rfl
@[simp] theorem dropKeys_cores (s : State) (kind slot : Nat) : (s.dropKeys kind slot).cores = s.cores := rfl
@[simp] theorem dropKeys_regions (s : State) (kind slot : Nat) : (s.dropKeys kind slot).regions = s.regions := rfl
@[simp] theorem dropKeys_mem (s : State) (kind slot : Nat) : (s.dropKeys kind slot).mem = s.mem := rfl
@[simp] theorem dropKeys_keySlots (s : State) (kind slot : Nat) : (s.dropKeys kind slot).keySlots = s.keySlots := rfl
@[simp] theorem dropKeys_d2d (s : State) (kind slot : Nat) : (s.dropKeys kind slot).d2d = s.d2d := rfl
@[simp] theorem dropKeys_regs (s : State) (kind slot : Nat) : (s.dropKeys kind slot).regs = s.regs := rfl
@[simp] theorem dropKeys_errs (s : State) (kind slot : Nat) : (s.dropKeys kind slot).errs = s.errs := rfl
@[simp] theorem dropKeys_counts (s : State) (kind slot : Nat) : (s.dropKeys kind slot).counts = s.counts := rfl
@[simp] theorem dropKeys_crown (s : State) (kind slot : Nat) : (s.dropKeys kind slot).crown = s.crown := rfl
@[simp] theorem dropKeys_brim (s : State) (kind slot : Nat) : (s.dropKeys kind slot).brim = s.brim := rfl
@[simp] theorem dropKeys_mgmt (s : State) (kind slot : Nat) : (s.dropKeys kind slot).mgmt = s.mgmt := rfl
@[simp] theorem dropKeys_net (s : State) (kind slot : Nat) : (s.dropKeys kind slot).net = s.net := rfl
@[simp] theorem dropKeys_host (s : State) (kind slot : Nat) : (s.dropKeys kind slot).host = s.host := rfl
@[simp] theorem dropKeys_boot (s : State) (kind slot : Nat) : (s.dropKeys kind slot).boot = s.boot := rfl
@[simp] theorem dropKeys_red (s : State) (kind slot : Nat) : (s.dropKeys kind slot).red = s.red := rfl
@[simp] theorem dropKeys_ckpt (s : State) (kind slot : Nat) : (s.dropKeys kind slot).ckpt = s.ckpt := rfl
@[simp] theorem dropKeys_pwr (s : State) (kind slot : Nat) : (s.dropKeys kind slot).pwr = s.pwr := rfl
@[simp] theorem dropKeys_visor (s : State) (kind slot : Nat) : (s.dropKeys kind slot).visor = s.visor := rfl
@[simp] theorem dropKeys_test (s : State) (kind slot : Nat) : (s.dropKeys kind slot).test = s.test := rfl
@[simp] theorem dropKeys_clock (s : State) (kind slot : Nat) : (s.dropKeys kind slot).clock = s.clock := rfl
@[simp] theorem dropKeys_halt (s : State) (kind slot : Nat) : (s.dropKeys kind slot).halt = s.halt := rfl
@[simp] theorem dropKeys_haltLow (s : State) (kind slot : Nat) : (s.dropKeys kind slot).haltLow = s.haltLow := rfl
@[simp] theorem dropKeys_werr (s : State) (kind slot : Nat) : (s.dropKeys kind slot).werr = s.werr := rfl
@[simp] theorem dropKeys_quarMap (s : State) (kind slot : Nat) : (s.dropKeys kind slot).quarMap = s.quarMap := rfl
@[simp] theorem dropKeys_out (s : State) (kind slot : Nat) : (s.dropKeys kind slot).out = s.out := rfl
@[simp] theorem dropKeys_free (s : State) (kind slot : Nat) : (s.dropKeys kind slot).free = s.free := rfl

/-! setReg -/
@[simp] theorem setReg_pending (s : State) (addr : Nat) (v : BitVec 32) : (s.setReg addr v).pending = s.pending := rfl
@[simp] theorem setReg_cores (s : State) (addr : Nat) (v : BitVec 32) : (s.setReg addr v).cores = s.cores := rfl
@[simp] theorem setReg_regions (s : State) (addr : Nat) (v : BitVec 32) : (s.setReg addr v).regions = s.regions := rfl
@[simp] theorem setReg_mem (s : State) (addr : Nat) (v : BitVec 32) : (s.setReg addr v).mem = s.mem := rfl
@[simp] theorem setReg_keySlots (s : State) (addr : Nat) (v : BitVec 32) : (s.setReg addr v).keySlots = s.keySlots := rfl
@[simp] theorem setReg_d2d (s : State) (addr : Nat) (v : BitVec 32) : (s.setReg addr v).d2d = s.d2d := rfl
@[simp] theorem setReg_errs (s : State) (addr : Nat) (v : BitVec 32) : (s.setReg addr v).errs = s.errs := rfl
@[simp] theorem setReg_counts (s : State) (addr : Nat) (v : BitVec 32) : (s.setReg addr v).counts = s.counts := rfl
@[simp] theorem setReg_keys (s : State) (addr : Nat) (v : BitVec 32) : (s.setReg addr v).keys = s.keys := rfl
@[simp] theorem setReg_crown (s : State) (addr : Nat) (v : BitVec 32) : (s.setReg addr v).crown = s.crown := rfl
@[simp] theorem setReg_brim (s : State) (addr : Nat) (v : BitVec 32) : (s.setReg addr v).brim = s.brim := rfl
@[simp] theorem setReg_mgmt (s : State) (addr : Nat) (v : BitVec 32) : (s.setReg addr v).mgmt = s.mgmt := rfl
@[simp] theorem setReg_net (s : State) (addr : Nat) (v : BitVec 32) : (s.setReg addr v).net = s.net := rfl
@[simp] theorem setReg_host (s : State) (addr : Nat) (v : BitVec 32) : (s.setReg addr v).host = s.host := rfl
@[simp] theorem setReg_boot (s : State) (addr : Nat) (v : BitVec 32) : (s.setReg addr v).boot = s.boot := rfl
@[simp] theorem setReg_red (s : State) (addr : Nat) (v : BitVec 32) : (s.setReg addr v).red = s.red := rfl
@[simp] theorem setReg_ckpt (s : State) (addr : Nat) (v : BitVec 32) : (s.setReg addr v).ckpt = s.ckpt := rfl
@[simp] theorem setReg_pwr (s : State) (addr : Nat) (v : BitVec 32) : (s.setReg addr v).pwr = s.pwr := rfl
@[simp] theorem setReg_visor (s : State) (addr : Nat) (v : BitVec 32) : (s.setReg addr v).visor = s.visor := rfl
@[simp] theorem setReg_test (s : State) (addr : Nat) (v : BitVec 32) : (s.setReg addr v).test = s.test := rfl
@[simp] theorem setReg_clock (s : State) (addr : Nat) (v : BitVec 32) : (s.setReg addr v).clock = s.clock := rfl
@[simp] theorem setReg_halt (s : State) (addr : Nat) (v : BitVec 32) : (s.setReg addr v).halt = s.halt := rfl
@[simp] theorem setReg_haltLow (s : State) (addr : Nat) (v : BitVec 32) : (s.setReg addr v).haltLow = s.haltLow := rfl
@[simp] theorem setReg_werr (s : State) (addr : Nat) (v : BitVec 32) : (s.setReg addr v).werr = s.werr := rfl
@[simp] theorem setReg_quarMap (s : State) (addr : Nat) (v : BitVec 32) : (s.setReg addr v).quarMap = s.quarMap := rfl
@[simp] theorem setReg_out (s : State) (addr : Nat) (v : BitVec 32) : (s.setReg addr v).out = s.out := rfl
@[simp] theorem setReg_free (s : State) (addr : Nat) (v : BitVec 32) : (s.setReg addr v).free = s.free := rfl

/-! post -/
@[simp] theorem post_pending (s : State) (w : EngWrite) : (s.post w).pending = s.pending := rfl
@[simp] theorem post_cores (s : State) (w : EngWrite) : (s.post w).cores = s.cores := rfl
@[simp] theorem post_regions (s : State) (w : EngWrite) : (s.post w).regions = s.regions := rfl
@[simp] theorem post_keySlots (s : State) (w : EngWrite) : (s.post w).keySlots = s.keySlots := rfl
@[simp] theorem post_d2d (s : State) (w : EngWrite) : (s.post w).d2d = s.d2d := rfl
@[simp] theorem post_regs (s : State) (w : EngWrite) : (s.post w).regs = s.regs := rfl
@[simp] theorem post_errs (s : State) (w : EngWrite) : (s.post w).errs = s.errs := rfl
@[simp] theorem post_counts (s : State) (w : EngWrite) : (s.post w).counts = s.counts := rfl
@[simp] theorem post_keys (s : State) (w : EngWrite) : (s.post w).keys = s.keys := rfl
@[simp] theorem post_crown (s : State) (w : EngWrite) : (s.post w).crown = s.crown := rfl
@[simp] theorem post_brim (s : State) (w : EngWrite) : (s.post w).brim = s.brim := rfl
@[simp] theorem post_mgmt (s : State) (w : EngWrite) : (s.post w).mgmt = s.mgmt := rfl
@[simp] theorem post_net (s : State) (w : EngWrite) : (s.post w).net = s.net := rfl
@[simp] theorem post_host (s : State) (w : EngWrite) : (s.post w).host = s.host := rfl
@[simp] theorem post_boot (s : State) (w : EngWrite) : (s.post w).boot = s.boot := rfl
@[simp] theorem post_red (s : State) (w : EngWrite) : (s.post w).red = s.red := rfl
@[simp] theorem post_ckpt (s : State) (w : EngWrite) : (s.post w).ckpt = s.ckpt := rfl
@[simp] theorem post_pwr (s : State) (w : EngWrite) : (s.post w).pwr = s.pwr := rfl
@[simp] theorem post_visor (s : State) (w : EngWrite) : (s.post w).visor = s.visor := rfl
@[simp] theorem post_test (s : State) (w : EngWrite) : (s.post w).test = s.test := rfl
@[simp] theorem post_clock (s : State) (w : EngWrite) : (s.post w).clock = s.clock := rfl
@[simp] theorem post_halt (s : State) (w : EngWrite) : (s.post w).halt = s.halt := rfl
@[simp] theorem post_haltLow (s : State) (w : EngWrite) : (s.post w).haltLow = s.haltLow := rfl
@[simp] theorem post_werr (s : State) (w : EngWrite) : (s.post w).werr = s.werr := rfl
@[simp] theorem post_quarMap (s : State) (w : EngWrite) : (s.post w).quarMap = s.quarMap := rfl
@[simp] theorem post_out (s : State) (w : EngWrite) : (s.post w).out = s.out := rfl
@[simp] theorem post_free (s : State) (w : EngWrite) : (s.post w).free = s.free := rfl

/-! beginHalt -/
@[simp] theorem beginHalt_pending (s : State) (block code a0 a1 a2 : Nat) : (s.beginHalt block code a0 a1 a2).pending = s.pending := by unfold beginHalt; split <;> simp
@[simp] theorem beginHalt_cores (s : State) (block code a0 a1 a2 : Nat) : (s.beginHalt block code a0 a1 a2).cores = s.cores := by unfold beginHalt; split <;> simp
@[simp] theorem beginHalt_regions (s : State) (block code a0 a1 a2 : Nat) : (s.beginHalt block code a0 a1 a2).regions = s.regions := by unfold beginHalt; split <;> simp
@[simp] theorem beginHalt_mem (s : State) (block code a0 a1 a2 : Nat) : (s.beginHalt block code a0 a1 a2).mem = s.mem := by unfold beginHalt; split <;> simp
@[simp] theorem beginHalt_keySlots (s : State) (block code a0 a1 a2 : Nat) : (s.beginHalt block code a0 a1 a2).keySlots = s.keySlots := by unfold beginHalt; split <;> simp
@[simp] theorem beginHalt_d2d (s : State) (block code a0 a1 a2 : Nat) : (s.beginHalt block code a0 a1 a2).d2d = s.d2d := by unfold beginHalt; split <;> simp
@[simp] theorem beginHalt_regs (s : State) (block code a0 a1 a2 : Nat) : (s.beginHalt block code a0 a1 a2).regs = s.regs := by unfold beginHalt; split <;> simp
@[simp] theorem beginHalt_counts (s : State) (block code a0 a1 a2 : Nat) : (s.beginHalt block code a0 a1 a2).counts = s.counts := by unfold beginHalt; split <;> simp
@[simp] theorem beginHalt_keys (s : State) (block code a0 a1 a2 : Nat) : (s.beginHalt block code a0 a1 a2).keys = s.keys := by unfold beginHalt; split <;> simp
@[simp] theorem beginHalt_crown (s : State) (block code a0 a1 a2 : Nat) : (s.beginHalt block code a0 a1 a2).crown = s.crown := by unfold beginHalt; split <;> simp
@[simp] theorem beginHalt_brim (s : State) (block code a0 a1 a2 : Nat) : (s.beginHalt block code a0 a1 a2).brim = s.brim := by unfold beginHalt; split <;> simp
@[simp] theorem beginHalt_net (s : State) (block code a0 a1 a2 : Nat) : (s.beginHalt block code a0 a1 a2).net = s.net := by unfold beginHalt; split <;> simp
@[simp] theorem beginHalt_host (s : State) (block code a0 a1 a2 : Nat) : (s.beginHalt block code a0 a1 a2).host = s.host := by unfold beginHalt; split <;> simp
@[simp] theorem beginHalt_red (s : State) (block code a0 a1 a2 : Nat) : (s.beginHalt block code a0 a1 a2).red = s.red := by unfold beginHalt; split <;> simp
@[simp] theorem beginHalt_ckpt (s : State) (block code a0 a1 a2 : Nat) : (s.beginHalt block code a0 a1 a2).ckpt = s.ckpt := by unfold beginHalt; split <;> simp
@[simp] theorem beginHalt_pwr (s : State) (block code a0 a1 a2 : Nat) : (s.beginHalt block code a0 a1 a2).pwr = s.pwr := by unfold beginHalt; split <;> simp
@[simp] theorem beginHalt_visor (s : State) (block code a0 a1 a2 : Nat) : (s.beginHalt block code a0 a1 a2).visor = s.visor := by unfold beginHalt; split <;> simp
@[simp] theorem beginHalt_test (s : State) (block code a0 a1 a2 : Nat) : (s.beginHalt block code a0 a1 a2).test = s.test := by unfold beginHalt; split <;> simp
@[simp] theorem beginHalt_clock (s : State) (block code a0 a1 a2 : Nat) : (s.beginHalt block code a0 a1 a2).clock = s.clock := by unfold beginHalt; split <;> simp
@[simp] theorem beginHalt_haltLow (s : State) (block code a0 a1 a2 : Nat) : (s.beginHalt block code a0 a1 a2).haltLow = s.haltLow := by unfold beginHalt; split <;> simp
@[simp] theorem beginHalt_werr (s : State) (block code a0 a1 a2 : Nat) : (s.beginHalt block code a0 a1 a2).werr = s.werr := by unfold beginHalt; split <;> simp
@[simp] theorem beginHalt_quarMap (s : State) (block code a0 a1 a2 : Nat) : (s.beginHalt block code a0 a1 a2).quarMap = s.quarMap := by unfold beginHalt; split <;> simp
@[simp] theorem beginHalt_out (s : State) (block code a0 a1 a2 : Nat) : (s.beginHalt block code a0 a1 a2).out = s.out := by unfold beginHalt; split <;> simp
@[simp] theorem beginHalt_free (s : State) (block code a0 a1 a2 : Nat) : (s.beginHalt block code a0 a1 a2).free = s.free := by unfold beginHalt; split <;> simp

/-! setSlot -/
@[simp] theorem setSlot_pending (s : State) (cuff slot : Nat) (on : Bool) : (s.setSlot cuff slot on).pending = s.pending := by cases on <;> simp [setSlot, apply_ite State.pending]
@[simp] theorem setSlot_cores (s : State) (cuff slot : Nat) (on : Bool) : (s.setSlot cuff slot on).cores = s.cores := by cases on <;> simp [setSlot, apply_ite State.cores]
@[simp] theorem setSlot_regions (s : State) (cuff slot : Nat) (on : Bool) : (s.setSlot cuff slot on).regions = s.regions := by cases on <;> simp [setSlot, apply_ite State.regions]
@[simp] theorem setSlot_mem (s : State) (cuff slot : Nat) (on : Bool) : (s.setSlot cuff slot on).mem = s.mem := by cases on <;> simp [setSlot, apply_ite State.mem]
@[simp] theorem setSlot_d2d (s : State) (cuff slot : Nat) (on : Bool) : (s.setSlot cuff slot on).d2d = s.d2d := by cases on <;> simp [setSlot, apply_ite State.d2d]
@[simp] theorem setSlot_regs (s : State) (cuff slot : Nat) (on : Bool) : (s.setSlot cuff slot on).regs = s.regs := by cases on <;> simp [setSlot, apply_ite State.regs]
@[simp] theorem setSlot_counts (s : State) (cuff slot : Nat) (on : Bool) : (s.setSlot cuff slot on).counts = s.counts := by cases on <;> simp [setSlot, apply_ite State.counts]
@[simp] theorem setSlot_crown (s : State) (cuff slot : Nat) (on : Bool) : (s.setSlot cuff slot on).crown = s.crown := by cases on <;> simp [setSlot, apply_ite State.crown]
@[simp] theorem setSlot_brim (s : State) (cuff slot : Nat) (on : Bool) : (s.setSlot cuff slot on).brim = s.brim := by cases on <;> simp [setSlot, apply_ite State.brim]
@[simp] theorem setSlot_net (s : State) (cuff slot : Nat) (on : Bool) : (s.setSlot cuff slot on).net = s.net := by cases on <;> simp [setSlot, apply_ite State.net]
@[simp] theorem setSlot_host (s : State) (cuff slot : Nat) (on : Bool) : (s.setSlot cuff slot on).host = s.host := by cases on <;> simp [setSlot, apply_ite State.host]
@[simp] theorem setSlot_red (s : State) (cuff slot : Nat) (on : Bool) : (s.setSlot cuff slot on).red = s.red := by cases on <;> simp [setSlot, apply_ite State.red]
@[simp] theorem setSlot_ckpt (s : State) (cuff slot : Nat) (on : Bool) : (s.setSlot cuff slot on).ckpt = s.ckpt := by cases on <;> simp [setSlot, apply_ite State.ckpt]
@[simp] theorem setSlot_pwr (s : State) (cuff slot : Nat) (on : Bool) : (s.setSlot cuff slot on).pwr = s.pwr := by cases on <;> simp [setSlot, apply_ite State.pwr]
@[simp] theorem setSlot_visor (s : State) (cuff slot : Nat) (on : Bool) : (s.setSlot cuff slot on).visor = s.visor := by cases on <;> simp [setSlot, apply_ite State.visor]
@[simp] theorem setSlot_test (s : State) (cuff slot : Nat) (on : Bool) : (s.setSlot cuff slot on).test = s.test := by cases on <;> simp [setSlot, apply_ite State.test]
@[simp] theorem setSlot_clock (s : State) (cuff slot : Nat) (on : Bool) : (s.setSlot cuff slot on).clock = s.clock := by cases on <;> simp [setSlot, apply_ite State.clock]
@[simp] theorem setSlot_haltLow (s : State) (cuff slot : Nat) (on : Bool) : (s.setSlot cuff slot on).haltLow = s.haltLow := by cases on <;> simp [setSlot, apply_ite State.haltLow]
@[simp] theorem setSlot_werr (s : State) (cuff slot : Nat) (on : Bool) : (s.setSlot cuff slot on).werr = s.werr := by cases on <;> simp [setSlot, apply_ite State.werr]
@[simp] theorem setSlot_quarMap (s : State) (cuff slot : Nat) (on : Bool) : (s.setSlot cuff slot on).quarMap = s.quarMap := by cases on <;> simp [setSlot, apply_ite State.quarMap]
@[simp] theorem setSlot_out (s : State) (cuff slot : Nat) (on : Bool) : (s.setSlot cuff slot on).out = s.out := by cases on <;> simp [setSlot, apply_ite State.out]

/-! onTest -/
@[simp] theorem onTest_pending (s : State) (f : Test → Test) : (s.onTest f).pending = s.pending := rfl
@[simp] theorem onTest_cores (s : State) (f : Test → Test) : (s.onTest f).cores = s.cores := rfl
@[simp] theorem onTest_regions (s : State) (f : Test → Test) : (s.onTest f).regions = s.regions := rfl
@[simp] theorem onTest_mem (s : State) (f : Test → Test) : (s.onTest f).mem = s.mem := rfl
@[simp] theorem onTest_keySlots (s : State) (f : Test → Test) : (s.onTest f).keySlots = s.keySlots := rfl
@[simp] theorem onTest_d2d (s : State) (f : Test → Test) : (s.onTest f).d2d = s.d2d := rfl
@[simp] theorem onTest_regs (s : State) (f : Test → Test) : (s.onTest f).regs = s.regs := rfl
@[simp] theorem onTest_errs (s : State) (f : Test → Test) : (s.onTest f).errs = s.errs := rfl
@[simp] theorem onTest_counts (s : State) (f : Test → Test) : (s.onTest f).counts = s.counts := rfl
@[simp] theorem onTest_keys (s : State) (f : Test → Test) : (s.onTest f).keys = s.keys := rfl
@[simp] theorem onTest_crown (s : State) (f : Test → Test) : (s.onTest f).crown = s.crown := rfl
@[simp] theorem onTest_brim (s : State) (f : Test → Test) : (s.onTest f).brim = s.brim := rfl
@[simp] theorem onTest_mgmt (s : State) (f : Test → Test) : (s.onTest f).mgmt = s.mgmt := rfl
@[simp] theorem onTest_net (s : State) (f : Test → Test) : (s.onTest f).net = s.net := rfl
@[simp] theorem onTest_host (s : State) (f : Test → Test) : (s.onTest f).host = s.host := rfl
@[simp] theorem onTest_boot (s : State) (f : Test → Test) : (s.onTest f).boot = s.boot := rfl
@[simp] theorem onTest_red (s : State) (f : Test → Test) : (s.onTest f).red = s.red := rfl
@[simp] theorem onTest_ckpt (s : State) (f : Test → Test) : (s.onTest f).ckpt = s.ckpt := rfl
@[simp] theorem onTest_pwr (s : State) (f : Test → Test) : (s.onTest f).pwr = s.pwr := rfl
@[simp] theorem onTest_visor (s : State) (f : Test → Test) : (s.onTest f).visor = s.visor := rfl
@[simp] theorem onTest_clock (s : State) (f : Test → Test) : (s.onTest f).clock = s.clock := rfl
@[simp] theorem onTest_halt (s : State) (f : Test → Test) : (s.onTest f).halt = s.halt := rfl
@[simp] theorem onTest_haltLow (s : State) (f : Test → Test) : (s.onTest f).haltLow = s.haltLow := rfl
@[simp] theorem onTest_werr (s : State) (f : Test → Test) : (s.onTest f).werr = s.werr := rfl
@[simp] theorem onTest_quarMap (s : State) (f : Test → Test) : (s.onTest f).quarMap = s.quarMap := rfl
@[simp] theorem onTest_out (s : State) (f : Test → Test) : (s.onTest f).out = s.out := rfl
@[simp] theorem onTest_free (s : State) (f : Test → Test) : (s.onTest f).free = s.free := rfl

/-! onMgmt -/
@[simp] theorem onMgmt_pending (s : State) (f : Mgmt → Mgmt) : (s.onMgmt f).pending = s.pending := rfl
@[simp] theorem onMgmt_cores (s : State) (f : Mgmt → Mgmt) : (s.onMgmt f).cores = s.cores := rfl
@[simp] theorem onMgmt_regions (s : State) (f : Mgmt → Mgmt) : (s.onMgmt f).regions = s.regions := rfl
@[simp] theorem onMgmt_mem (s : State) (f : Mgmt → Mgmt) : (s.onMgmt f).mem = s.mem := rfl
@[simp] theorem onMgmt_keySlots (s : State) (f : Mgmt → Mgmt) : (s.onMgmt f).keySlots = s.keySlots := rfl
@[simp] theorem onMgmt_d2d (s : State) (f : Mgmt → Mgmt) : (s.onMgmt f).d2d = s.d2d := rfl
@[simp] theorem onMgmt_regs (s : State) (f : Mgmt → Mgmt) : (s.onMgmt f).regs = s.regs := rfl
@[simp] theorem onMgmt_errs (s : State) (f : Mgmt → Mgmt) : (s.onMgmt f).errs = s.errs := rfl
@[simp] theorem onMgmt_counts (s : State) (f : Mgmt → Mgmt) : (s.onMgmt f).counts = s.counts := rfl
@[simp] theorem onMgmt_keys (s : State) (f : Mgmt → Mgmt) : (s.onMgmt f).keys = s.keys := rfl
@[simp] theorem onMgmt_crown (s : State) (f : Mgmt → Mgmt) : (s.onMgmt f).crown = s.crown := rfl
@[simp] theorem onMgmt_brim (s : State) (f : Mgmt → Mgmt) : (s.onMgmt f).brim = s.brim := rfl
@[simp] theorem onMgmt_net (s : State) (f : Mgmt → Mgmt) : (s.onMgmt f).net = s.net := rfl
@[simp] theorem onMgmt_host (s : State) (f : Mgmt → Mgmt) : (s.onMgmt f).host = s.host := rfl
@[simp] theorem onMgmt_boot (s : State) (f : Mgmt → Mgmt) : (s.onMgmt f).boot = s.boot := rfl
@[simp] theorem onMgmt_red (s : State) (f : Mgmt → Mgmt) : (s.onMgmt f).red = s.red := rfl
@[simp] theorem onMgmt_ckpt (s : State) (f : Mgmt → Mgmt) : (s.onMgmt f).ckpt = s.ckpt := rfl
@[simp] theorem onMgmt_pwr (s : State) (f : Mgmt → Mgmt) : (s.onMgmt f).pwr = s.pwr := rfl
@[simp] theorem onMgmt_visor (s : State) (f : Mgmt → Mgmt) : (s.onMgmt f).visor = s.visor := rfl
@[simp] theorem onMgmt_test (s : State) (f : Mgmt → Mgmt) : (s.onMgmt f).test = s.test := rfl
@[simp] theorem onMgmt_clock (s : State) (f : Mgmt → Mgmt) : (s.onMgmt f).clock = s.clock := rfl
@[simp] theorem onMgmt_halt (s : State) (f : Mgmt → Mgmt) : (s.onMgmt f).halt = s.halt := rfl
@[simp] theorem onMgmt_haltLow (s : State) (f : Mgmt → Mgmt) : (s.onMgmt f).haltLow = s.haltLow := rfl
@[simp] theorem onMgmt_werr (s : State) (f : Mgmt → Mgmt) : (s.onMgmt f).werr = s.werr := rfl
@[simp] theorem onMgmt_quarMap (s : State) (f : Mgmt → Mgmt) : (s.onMgmt f).quarMap = s.quarMap := rfl
@[simp] theorem onMgmt_out (s : State) (f : Mgmt → Mgmt) : (s.onMgmt f).out = s.out := rfl
@[simp] theorem onMgmt_free (s : State) (f : Mgmt → Mgmt) : (s.onMgmt f).free = s.free := rfl

/-! Reads after updates. -/
@[simp] theorem core_setCore (s : State) (n m : Nat) (c : Core) : (s.setCore n c).core m = if m = n then c else s.core m := by
  simp [setCore, core]
@[simp] theorem core_mapCore (s : State) (n m : Nat) (f : Core → Core) :
    (s.mapCore n f).core m = if m = n then f (s.core n) else s.core m := by simp [mapCore]
@[simp] theorem region_setRegion (s : State) (r q : Nat) (g : Region) :
    (s.setRegion r g).region q = if q = r then g else s.region q := by simp [setRegion, region]
@[simp] theorem region_onRegion (s : State) (r q : Nat) (f : Region → Region) :
    (s.onRegion r f).region q = if q = r then f (s.region r) else s.region q := by simp [onRegion]
@[simp] theorem part_setPart (s : State) (p q : Nat) (x : Partition) : (s.setPart p x).part q = if q = p then x else s.part q := by
  simp [setPart, part]
@[simp] theorem session_setSession (s : State) (i k : Nat) (x : Session) :
    (s.setSession i x).session k = if k = i then x else s.session k := by simp [setSession, session]
@[simp] theorem part_setSession (s : State) (i q : Nat) (x : Session) : (s.setSession i x).part q = s.part q := rfl
@[simp] theorem session_setPart (s : State) (p k : Nat) (x : Partition) : (s.setPart p x).session k = s.session k := rfl
@[simp] theorem ckptSess_setCkpt (s : State) (i k : Nat) (x : CkptSess) :
    (s.setCkpt i x).ckptSess k = if k = i then x else s.ckptSess k := by simp [setCkpt, ckptSess]
@[simp] theorem link_setLink (s : State) (j k : Nat) (l : Link) : (s.setLink j l).link k = if k = j then l else s.link k := by
  simp [setLink, link]
@[simp] theorem link_onLink (s : State) (j k : Nat) (f : Link → Link) :
    (s.onLink j f).link k = if k = j then f (s.link j) else s.link k := by simp [onLink]
@[simp] theorem mem_onMem (s : State) (f : Memory → Memory) : (s.onMem f).mem = f s.mem := rfl
@[simp] theorem out_emit (s : State) (o : Out) : (s.emit o).out = s.out ++ [o] := rfl

/-- A core operation with nothing to log only writes its core. -/
@[simp] theorem putCore_quiet (s : State) (n : Nat) (c : Core) : s.putCore n c.quiet = s.setCore n c := rfl
theorem putCore_nil (s : State) (n : Nat) (c : Core) : s.putCore n ⟨c, []⟩ = s.setCore n c := rfl

/-- A core operation while no halt has begun. -/
theorem onCore_running (s : State) (h : s.halt = none) (n : BitVec 9) (f : Core → CoreRes) :
    s.onCore n f = s.putCore n.toNat (f (s.core n.toNat)) := by simp [onCore, h]

/-- A core that waits for nothing, or for this very instruction, tries it (R72). -/
theorem onInstr_running (s : State) (h : s.halt = none) (n : BitVec 9) (word : BitVec 64) (g : Core → CoreRes) :
    s.onInstr n word g = s.putCore n.toNat ((s.core n.toNat).holding word g) := onCore_running s h n _

/-- After a halt no core does anything. -/
theorem onCore_halted (s : State) (h : s.halt ≠ none) (n : BitVec 9) (f : Core → CoreRes) : s.onCore n f = s := by
  cases hh : s.halt with
  | none => exact absurd hh h
  | some x => simp [onCore, hh]

end State

theorem live_running (s : State) (h : s.halt = none) (f : State → State) : live s f = .next (f s) := by simp [live, h]

theorem liveEng_running (s : State) (h : s.halt = none) (f : State → State) : liveEng s f = .next (f s).drainEngine := by simp [liveEng, h]

theorem liveEng_halted (s : State) (h : s.halt ≠ none) (f : State → State) : liveEng s f = .next s := by
  cases hh : s.halt with
  | none => exact absurd hh h
  | some x => simp [liveEng, hh]

/-- With no engine's write waiting nothing lands. -/
theorem State.drainEngine_nil (s : State) (h : s.mem.engine = []) : s.drainEngine = s := by
  cases s with
  | mk pending cores regions mem => cases mem; cases h; rfl

theorem live_halted (s : State) (h : s.halt ≠ none) (f : State → State) : live s f = .next s := by
  cases hh : s.halt with
  | none => exact absurd hh h
  | some x => simp [live, hh]

namespace Core

/-! setS -/
@[simp] theorem setS_ctl (c : Core) (i : Nat) (v : BitVec 64) : (c.setS i v).ctl = c.ctl := rfl
@[simp] theorem setS_spec (c : Core) (i : Nat) (v : BitVec 64) : (c.setS i v).spec = c.spec := rfl
@[simp] theorem setS_sqb (c : Core) (i : Nat) (v : BitVec 64) : (c.setS i v).sqb = c.sqb := rfl
@[simp] theorem setS_acc (c : Core) (i : Nat) (v : BitVec 64) : (c.setS i v).acc = c.acc := rfl
@[simp] theorem setS_chains (c : Core) (i : Nat) (v : BitVec 64) : (c.setS i v).chains = c.chains := rfl
@[simp] theorem setS_a (c : Core) (i : Nat) (v : BitVec 64) : (c.setS i v).a = c.a := rfl
@[simp] theorem setS_td (c : Core) (i : Nat) (v : BitVec 64) : (c.setS i v).td = c.td := rfl
@[simp] theorem setS_v (c : Core) (i : Nat) (v : BitVec 64) : (c.setS i v).v = c.v := rfl
@[simp] theorem setS_p (c : Core) (i : Nat) (v : BitVec 64) : (c.setS i v).p = c.p := rfl
@[simp] theorem setS_cc (c : Core) (i : Nat) (v : BitVec 64) : (c.setS i v).cc = c.cc := rfl
@[simp] theorem setS_brim (c : Core) (i : Nat) (v : BitVec 64) : (c.setS i v).brim = c.brim := rfl
@[simp] theorem setS_unret (c : Core) (i : Nat) (v : BitVec 64) : (c.setS i v).unret = c.unret := rfl
@[simp] theorem setS_nextId (c : Core) (i : Nat) (v : BitVec 64) : (c.setS i v).nextId = c.nextId := rfl
@[simp] theorem setS_clean (c : Core) (i : Nat) (v : BitVec 64) : (c.setS i v).clean = c.clean := rfl
@[simp] theorem setS_refills (c : Core) (i : Nat) (v : BitVec 64) : (c.setS i v).refills = c.refills := rfl
@[simp] theorem setS_mover (c : Core) (i : Nat) (v : BitVec 64) : (c.setS i v).mover = c.mover := rfl
@[simp] theorem setS_nextOrder (c : Core) (i : Nat) (v : BitVec 64) : (c.setS i v).nextOrder = c.nextOrder := rfl
@[simp] theorem setS_records (c : Core) (i : Nat) (v : BitVec 64) : (c.setS i v).records = c.records := rfl
@[simp] theorem setS_seenWslot (c : Core) (i : Nat) (v : BitVec 64) : (c.setS i v).seenWslot = c.seenWslot := rfl
@[simp] theorem setS_slotOpen (c : Core) (i : Nat) (v : BitVec 64) : (c.setS i v).slotOpen = c.slotOpen := rfl

/-! setA -/
@[simp] theorem setA_ctl (c : Core) (i : Nat) (v : BitVec 64) : (c.setA i v).ctl = c.ctl := rfl
@[simp] theorem setA_spec (c : Core) (i : Nat) (v : BitVec 64) : (c.setA i v).spec = c.spec := rfl
@[simp] theorem setA_sqb (c : Core) (i : Nat) (v : BitVec 64) : (c.setA i v).sqb = c.sqb := rfl
@[simp] theorem setA_acc (c : Core) (i : Nat) (v : BitVec 64) : (c.setA i v).acc = c.acc := rfl
@[simp] theorem setA_chains (c : Core) (i : Nat) (v : BitVec 64) : (c.setA i v).chains = c.chains := rfl
@[simp] theorem setA_s (c : Core) (i : Nat) (v : BitVec 64) : (c.setA i v).s = c.s := rfl
@[simp] theorem setA_td (c : Core) (i : Nat) (v : BitVec 64) : (c.setA i v).td = c.td := rfl
@[simp] theorem setA_v (c : Core) (i : Nat) (v : BitVec 64) : (c.setA i v).v = c.v := rfl
@[simp] theorem setA_p (c : Core) (i : Nat) (v : BitVec 64) : (c.setA i v).p = c.p := rfl
@[simp] theorem setA_cc (c : Core) (i : Nat) (v : BitVec 64) : (c.setA i v).cc = c.cc := rfl
@[simp] theorem setA_brim (c : Core) (i : Nat) (v : BitVec 64) : (c.setA i v).brim = c.brim := rfl
@[simp] theorem setA_unret (c : Core) (i : Nat) (v : BitVec 64) : (c.setA i v).unret = c.unret := rfl
@[simp] theorem setA_nextId (c : Core) (i : Nat) (v : BitVec 64) : (c.setA i v).nextId = c.nextId := rfl
@[simp] theorem setA_clean (c : Core) (i : Nat) (v : BitVec 64) : (c.setA i v).clean = c.clean := rfl
@[simp] theorem setA_refills (c : Core) (i : Nat) (v : BitVec 64) : (c.setA i v).refills = c.refills := rfl
@[simp] theorem setA_mover (c : Core) (i : Nat) (v : BitVec 64) : (c.setA i v).mover = c.mover := rfl
@[simp] theorem setA_nextOrder (c : Core) (i : Nat) (v : BitVec 64) : (c.setA i v).nextOrder = c.nextOrder := rfl
@[simp] theorem setA_records (c : Core) (i : Nat) (v : BitVec 64) : (c.setA i v).records = c.records := rfl
@[simp] theorem setA_seenWslot (c : Core) (i : Nat) (v : BitVec 64) : (c.setA i v).seenWslot = c.seenWslot := rfl
@[simp] theorem setA_slotOpen (c : Core) (i : Nat) (v : BitVec 64) : (c.setA i v).slotOpen = c.slotOpen := rfl

/-! setTd -/
@[simp] theorem setTd_ctl (c : Core) (i : Nat) (v : Td) : (c.setTd i v).ctl = c.ctl := rfl
@[simp] theorem setTd_spec (c : Core) (i : Nat) (v : Td) : (c.setTd i v).spec = c.spec := rfl
@[simp] theorem setTd_sqb (c : Core) (i : Nat) (v : Td) : (c.setTd i v).sqb = c.sqb := rfl
@[simp] theorem setTd_acc (c : Core) (i : Nat) (v : Td) : (c.setTd i v).acc = c.acc := rfl
@[simp] theorem setTd_chains (c : Core) (i : Nat) (v : Td) : (c.setTd i v).chains = c.chains := rfl
@[simp] theorem setTd_s (c : Core) (i : Nat) (v : Td) : (c.setTd i v).s = c.s := rfl
@[simp] theorem setTd_a (c : Core) (i : Nat) (v : Td) : (c.setTd i v).a = c.a := rfl
@[simp] theorem setTd_v (c : Core) (i : Nat) (v : Td) : (c.setTd i v).v = c.v := rfl
@[simp] theorem setTd_p (c : Core) (i : Nat) (v : Td) : (c.setTd i v).p = c.p := rfl
@[simp] theorem setTd_cc (c : Core) (i : Nat) (v : Td) : (c.setTd i v).cc = c.cc := rfl
@[simp] theorem setTd_brim (c : Core) (i : Nat) (v : Td) : (c.setTd i v).brim = c.brim := rfl
@[simp] theorem setTd_unret (c : Core) (i : Nat) (v : Td) : (c.setTd i v).unret = c.unret := rfl
@[simp] theorem setTd_nextId (c : Core) (i : Nat) (v : Td) : (c.setTd i v).nextId = c.nextId := rfl
@[simp] theorem setTd_clean (c : Core) (i : Nat) (v : Td) : (c.setTd i v).clean = c.clean := rfl
@[simp] theorem setTd_refills (c : Core) (i : Nat) (v : Td) : (c.setTd i v).refills = c.refills := rfl
@[simp] theorem setTd_mover (c : Core) (i : Nat) (v : Td) : (c.setTd i v).mover = c.mover := rfl
@[simp] theorem setTd_nextOrder (c : Core) (i : Nat) (v : Td) : (c.setTd i v).nextOrder = c.nextOrder := rfl
@[simp] theorem setTd_records (c : Core) (i : Nat) (v : Td) : (c.setTd i v).records = c.records := rfl
@[simp] theorem setTd_seenWslot (c : Core) (i : Nat) (v : Td) : (c.setTd i v).seenWslot = c.seenWslot := rfl
@[simp] theorem setTd_slotOpen (c : Core) (i : Nat) (v : Td) : (c.setTd i v).slotOpen = c.slotOpen := rfl

/-! setCc -/
@[simp] theorem setCc_ctl (c : Core) (i : Nat) (v : BitVec 32) : (c.setCc i v).ctl = c.ctl := rfl
@[simp] theorem setCc_spec (c : Core) (i : Nat) (v : BitVec 32) : (c.setCc i v).spec = c.spec := rfl
@[simp] theorem setCc_sqb (c : Core) (i : Nat) (v : BitVec 32) : (c.setCc i v).sqb = c.sqb := rfl
@[simp] theorem setCc_acc (c : Core) (i : Nat) (v : BitVec 32) : (c.setCc i v).acc = c.acc := rfl
@[simp] theorem setCc_chains (c : Core) (i : Nat) (v : BitVec 32) : (c.setCc i v).chains = c.chains := rfl
@[simp] theorem setCc_s (c : Core) (i : Nat) (v : BitVec 32) : (c.setCc i v).s = c.s := rfl
@[simp] theorem setCc_a (c : Core) (i : Nat) (v : BitVec 32) : (c.setCc i v).a = c.a := rfl
@[simp] theorem setCc_td (c : Core) (i : Nat) (v : BitVec 32) : (c.setCc i v).td = c.td := rfl
@[simp] theorem setCc_v (c : Core) (i : Nat) (v : BitVec 32) : (c.setCc i v).v = c.v := rfl
@[simp] theorem setCc_p (c : Core) (i : Nat) (v : BitVec 32) : (c.setCc i v).p = c.p := rfl
@[simp] theorem setCc_brim (c : Core) (i : Nat) (v : BitVec 32) : (c.setCc i v).brim = c.brim := rfl
@[simp] theorem setCc_unret (c : Core) (i : Nat) (v : BitVec 32) : (c.setCc i v).unret = c.unret := rfl
@[simp] theorem setCc_nextId (c : Core) (i : Nat) (v : BitVec 32) : (c.setCc i v).nextId = c.nextId := rfl
@[simp] theorem setCc_clean (c : Core) (i : Nat) (v : BitVec 32) : (c.setCc i v).clean = c.clean := rfl
@[simp] theorem setCc_refills (c : Core) (i : Nat) (v : BitVec 32) : (c.setCc i v).refills = c.refills := rfl
@[simp] theorem setCc_mover (c : Core) (i : Nat) (v : BitVec 32) : (c.setCc i v).mover = c.mover := rfl
@[simp] theorem setCc_nextOrder (c : Core) (i : Nat) (v : BitVec 32) : (c.setCc i v).nextOrder = c.nextOrder := rfl
@[simp] theorem setCc_records (c : Core) (i : Nat) (v : BitVec 32) : (c.setCc i v).records = c.records := rfl
@[simp] theorem setCc_seenWslot (c : Core) (i : Nat) (v : BitVec 32) : (c.setCc i v).seenWslot = c.seenWslot := rfl
@[simp] theorem setCc_slotOpen (c : Core) (i : Nat) (v : BitVec 32) : (c.setCc i v).slotOpen = c.slotOpen := rfl

/-! setV -/
@[simp] theorem setV_ctl (c : Core) (i : Nat) (vs : List F32) : (c.setV i vs).ctl = c.ctl := rfl
@[simp] theorem setV_spec (c : Core) (i : Nat) (vs : List F32) : (c.setV i vs).spec = c.spec := rfl
@[simp] theorem setV_sqb (c : Core) (i : Nat) (vs : List F32) : (c.setV i vs).sqb = c.sqb := rfl
@[simp] theorem setV_acc (c : Core) (i : Nat) (vs : List F32) : (c.setV i vs).acc = c.acc := rfl
@[simp] theorem setV_chains (c : Core) (i : Nat) (vs : List F32) : (c.setV i vs).chains = c.chains := rfl
@[simp] theorem setV_s (c : Core) (i : Nat) (vs : List F32) : (c.setV i vs).s = c.s := rfl
@[simp] theorem setV_a (c : Core) (i : Nat) (vs : List F32) : (c.setV i vs).a = c.a := rfl
@[simp] theorem setV_td (c : Core) (i : Nat) (vs : List F32) : (c.setV i vs).td = c.td := rfl
@[simp] theorem setV_p (c : Core) (i : Nat) (vs : List F32) : (c.setV i vs).p = c.p := rfl
@[simp] theorem setV_cc (c : Core) (i : Nat) (vs : List F32) : (c.setV i vs).cc = c.cc := rfl
@[simp] theorem setV_brim (c : Core) (i : Nat) (vs : List F32) : (c.setV i vs).brim = c.brim := rfl
@[simp] theorem setV_unret (c : Core) (i : Nat) (vs : List F32) : (c.setV i vs).unret = c.unret := rfl
@[simp] theorem setV_nextId (c : Core) (i : Nat) (vs : List F32) : (c.setV i vs).nextId = c.nextId := rfl
@[simp] theorem setV_clean (c : Core) (i : Nat) (vs : List F32) : (c.setV i vs).clean = c.clean := rfl
@[simp] theorem setV_refills (c : Core) (i : Nat) (vs : List F32) : (c.setV i vs).refills = c.refills := rfl
@[simp] theorem setV_mover (c : Core) (i : Nat) (vs : List F32) : (c.setV i vs).mover = c.mover := rfl
@[simp] theorem setV_nextOrder (c : Core) (i : Nat) (vs : List F32) : (c.setV i vs).nextOrder = c.nextOrder := rfl
@[simp] theorem setV_records (c : Core) (i : Nat) (vs : List F32) : (c.setV i vs).records = c.records := rfl
@[simp] theorem setV_seenWslot (c : Core) (i : Nat) (vs : List F32) : (c.setV i vs).seenWslot = c.seenWslot := rfl
@[simp] theorem setV_slotOpen (c : Core) (i : Nat) (vs : List F32) : (c.setV i vs).slotOpen = c.slotOpen := rfl

/-! setAcc -/
@[simp] theorem setAcc_ctl (c : Core) (t : Nat) (vs : List F32) : (c.setAcc t vs).ctl = c.ctl := rfl
@[simp] theorem setAcc_spec (c : Core) (t : Nat) (vs : List F32) : (c.setAcc t vs).spec = c.spec := rfl
@[simp] theorem setAcc_sqb (c : Core) (t : Nat) (vs : List F32) : (c.setAcc t vs).sqb = c.sqb := rfl
@[simp] theorem setAcc_chains (c : Core) (t : Nat) (vs : List F32) : (c.setAcc t vs).chains = c.chains := rfl
@[simp] theorem setAcc_s (c : Core) (t : Nat) (vs : List F32) : (c.setAcc t vs).s = c.s := rfl
@[simp] theorem setAcc_a (c : Core) (t : Nat) (vs : List F32) : (c.setAcc t vs).a = c.a := rfl
@[simp] theorem setAcc_td (c : Core) (t : Nat) (vs : List F32) : (c.setAcc t vs).td = c.td := rfl
@[simp] theorem setAcc_v (c : Core) (t : Nat) (vs : List F32) : (c.setAcc t vs).v = c.v := rfl
@[simp] theorem setAcc_p (c : Core) (t : Nat) (vs : List F32) : (c.setAcc t vs).p = c.p := rfl
@[simp] theorem setAcc_cc (c : Core) (t : Nat) (vs : List F32) : (c.setAcc t vs).cc = c.cc := rfl
@[simp] theorem setAcc_brim (c : Core) (t : Nat) (vs : List F32) : (c.setAcc t vs).brim = c.brim := rfl
@[simp] theorem setAcc_unret (c : Core) (t : Nat) (vs : List F32) : (c.setAcc t vs).unret = c.unret := rfl
@[simp] theorem setAcc_nextId (c : Core) (t : Nat) (vs : List F32) : (c.setAcc t vs).nextId = c.nextId := rfl
@[simp] theorem setAcc_clean (c : Core) (t : Nat) (vs : List F32) : (c.setAcc t vs).clean = c.clean := rfl
@[simp] theorem setAcc_refills (c : Core) (t : Nat) (vs : List F32) : (c.setAcc t vs).refills = c.refills := rfl
@[simp] theorem setAcc_mover (c : Core) (t : Nat) (vs : List F32) : (c.setAcc t vs).mover = c.mover := rfl
@[simp] theorem setAcc_nextOrder (c : Core) (t : Nat) (vs : List F32) : (c.setAcc t vs).nextOrder = c.nextOrder := rfl
@[simp] theorem setAcc_records (c : Core) (t : Nat) (vs : List F32) : (c.setAcc t vs).records = c.records := rfl
@[simp] theorem setAcc_seenWslot (c : Core) (t : Nat) (vs : List F32) : (c.setAcc t vs).seenWslot = c.seenWslot := rfl
@[simp] theorem setAcc_slotOpen (c : Core) (t : Nat) (vs : List F32) : (c.setAcc t vs).slotOpen = c.slotOpen := rfl

/-! setChain -/
@[simp] theorem setChain_ctl (c : Core) (t : Nat) (ch : Chain) : (c.setChain t ch).ctl = c.ctl := rfl
@[simp] theorem setChain_spec (c : Core) (t : Nat) (ch : Chain) : (c.setChain t ch).spec = c.spec := rfl
@[simp] theorem setChain_sqb (c : Core) (t : Nat) (ch : Chain) : (c.setChain t ch).sqb = c.sqb := rfl
@[simp] theorem setChain_acc (c : Core) (t : Nat) (ch : Chain) : (c.setChain t ch).acc = c.acc := rfl
@[simp] theorem setChain_s (c : Core) (t : Nat) (ch : Chain) : (c.setChain t ch).s = c.s := rfl
@[simp] theorem setChain_a (c : Core) (t : Nat) (ch : Chain) : (c.setChain t ch).a = c.a := rfl
@[simp] theorem setChain_td (c : Core) (t : Nat) (ch : Chain) : (c.setChain t ch).td = c.td := rfl
@[simp] theorem setChain_v (c : Core) (t : Nat) (ch : Chain) : (c.setChain t ch).v = c.v := rfl
@[simp] theorem setChain_p (c : Core) (t : Nat) (ch : Chain) : (c.setChain t ch).p = c.p := rfl
@[simp] theorem setChain_cc (c : Core) (t : Nat) (ch : Chain) : (c.setChain t ch).cc = c.cc := rfl
@[simp] theorem setChain_brim (c : Core) (t : Nat) (ch : Chain) : (c.setChain t ch).brim = c.brim := rfl
@[simp] theorem setChain_unret (c : Core) (t : Nat) (ch : Chain) : (c.setChain t ch).unret = c.unret := rfl
@[simp] theorem setChain_nextId (c : Core) (t : Nat) (ch : Chain) : (c.setChain t ch).nextId = c.nextId := rfl
@[simp] theorem setChain_clean (c : Core) (t : Nat) (ch : Chain) : (c.setChain t ch).clean = c.clean := rfl
@[simp] theorem setChain_refills (c : Core) (t : Nat) (ch : Chain) : (c.setChain t ch).refills = c.refills := rfl
@[simp] theorem setChain_mover (c : Core) (t : Nat) (ch : Chain) : (c.setChain t ch).mover = c.mover := rfl
@[simp] theorem setChain_nextOrder (c : Core) (t : Nat) (ch : Chain) : (c.setChain t ch).nextOrder = c.nextOrder := rfl
@[simp] theorem setChain_records (c : Core) (t : Nat) (ch : Chain) : (c.setChain t ch).records = c.records := rfl
@[simp] theorem setChain_seenWslot (c : Core) (t : Nat) (ch : Chain) : (c.setChain t ch).seenWslot = c.seenWslot := rfl
@[simp] theorem setChain_slotOpen (c : Core) (t : Nat) (ch : Chain) : (c.setChain t ch).slotOpen = c.slotOpen := rfl

/-! setBrimSlot -/
@[simp] theorem setBrimSlot_ctl (c : Core) (i : Nat) (b : BrimSlot) : (c.setBrimSlot i b).ctl = c.ctl := rfl
@[simp] theorem setBrimSlot_spec (c : Core) (i : Nat) (b : BrimSlot) : (c.setBrimSlot i b).spec = c.spec := rfl
@[simp] theorem setBrimSlot_sqb (c : Core) (i : Nat) (b : BrimSlot) : (c.setBrimSlot i b).sqb = c.sqb := rfl
@[simp] theorem setBrimSlot_acc (c : Core) (i : Nat) (b : BrimSlot) : (c.setBrimSlot i b).acc = c.acc := rfl
@[simp] theorem setBrimSlot_chains (c : Core) (i : Nat) (b : BrimSlot) : (c.setBrimSlot i b).chains = c.chains := rfl
@[simp] theorem setBrimSlot_s (c : Core) (i : Nat) (b : BrimSlot) : (c.setBrimSlot i b).s = c.s := rfl
@[simp] theorem setBrimSlot_a (c : Core) (i : Nat) (b : BrimSlot) : (c.setBrimSlot i b).a = c.a := rfl
@[simp] theorem setBrimSlot_td (c : Core) (i : Nat) (b : BrimSlot) : (c.setBrimSlot i b).td = c.td := rfl
@[simp] theorem setBrimSlot_v (c : Core) (i : Nat) (b : BrimSlot) : (c.setBrimSlot i b).v = c.v := rfl
@[simp] theorem setBrimSlot_p (c : Core) (i : Nat) (b : BrimSlot) : (c.setBrimSlot i b).p = c.p := rfl
@[simp] theorem setBrimSlot_cc (c : Core) (i : Nat) (b : BrimSlot) : (c.setBrimSlot i b).cc = c.cc := rfl
@[simp] theorem setBrimSlot_unret (c : Core) (i : Nat) (b : BrimSlot) : (c.setBrimSlot i b).unret = c.unret := rfl
@[simp] theorem setBrimSlot_nextId (c : Core) (i : Nat) (b : BrimSlot) : (c.setBrimSlot i b).nextId = c.nextId := rfl
@[simp] theorem setBrimSlot_clean (c : Core) (i : Nat) (b : BrimSlot) : (c.setBrimSlot i b).clean = c.clean := rfl
@[simp] theorem setBrimSlot_refills (c : Core) (i : Nat) (b : BrimSlot) : (c.setBrimSlot i b).refills = c.refills := rfl
@[simp] theorem setBrimSlot_mover (c : Core) (i : Nat) (b : BrimSlot) : (c.setBrimSlot i b).mover = c.mover := rfl
@[simp] theorem setBrimSlot_nextOrder (c : Core) (i : Nat) (b : BrimSlot) : (c.setBrimSlot i b).nextOrder = c.nextOrder := rfl
@[simp] theorem setBrimSlot_records (c : Core) (i : Nat) (b : BrimSlot) : (c.setBrimSlot i b).records = c.records := rfl
@[simp] theorem setBrimSlot_seenWslot (c : Core) (i : Nat) (b : BrimSlot) : (c.setBrimSlot i b).seenWslot = c.seenWslot := rfl
@[simp] theorem setBrimSlot_slotOpen (c : Core) (i : Nat) (b : BrimSlot) : (c.setBrimSlot i b).slotOpen = c.slotOpen := rfl

/-! writeSqb -/
@[simp] theorem writeSqb_ctl (c : Core) (a : Nat) (bs : Bytes) : (c.writeSqb a bs).ctl = c.ctl := rfl
@[simp] theorem writeSqb_spec (c : Core) (a : Nat) (bs : Bytes) : (c.writeSqb a bs).spec = c.spec := rfl
@[simp] theorem writeSqb_acc (c : Core) (a : Nat) (bs : Bytes) : (c.writeSqb a bs).acc = c.acc := rfl
@[simp] theorem writeSqb_chains (c : Core) (a : Nat) (bs : Bytes) : (c.writeSqb a bs).chains = c.chains := rfl
@[simp] theorem writeSqb_s (c : Core) (a : Nat) (bs : Bytes) : (c.writeSqb a bs).s = c.s := rfl
@[simp] theorem writeSqb_a (c : Core) (a : Nat) (bs : Bytes) : (c.writeSqb a bs).a = c.a := rfl
@[simp] theorem writeSqb_td (c : Core) (a : Nat) (bs : Bytes) : (c.writeSqb a bs).td = c.td := rfl
@[simp] theorem writeSqb_v (c : Core) (a : Nat) (bs : Bytes) : (c.writeSqb a bs).v = c.v := rfl
@[simp] theorem writeSqb_p (c : Core) (a : Nat) (bs : Bytes) : (c.writeSqb a bs).p = c.p := rfl
@[simp] theorem writeSqb_cc (c : Core) (a : Nat) (bs : Bytes) : (c.writeSqb a bs).cc = c.cc := rfl
@[simp] theorem writeSqb_brim (c : Core) (a : Nat) (bs : Bytes) : (c.writeSqb a bs).brim = c.brim := rfl
@[simp] theorem writeSqb_unret (c : Core) (a : Nat) (bs : Bytes) : (c.writeSqb a bs).unret = c.unret := rfl
@[simp] theorem writeSqb_nextId (c : Core) (a : Nat) (bs : Bytes) : (c.writeSqb a bs).nextId = c.nextId := rfl
@[simp] theorem writeSqb_refills (c : Core) (a : Nat) (bs : Bytes) : (c.writeSqb a bs).refills = c.refills := rfl
@[simp] theorem writeSqb_mover (c : Core) (a : Nat) (bs : Bytes) : (c.writeSqb a bs).mover = c.mover := rfl
@[simp] theorem writeSqb_nextOrder (c : Core) (a : Nat) (bs : Bytes) : (c.writeSqb a bs).nextOrder = c.nextOrder := rfl
@[simp] theorem writeSqb_records (c : Core) (a : Nat) (bs : Bytes) : (c.writeSqb a bs).records = c.records := rfl
@[simp] theorem writeSqb_seenWslot (c : Core) (a : Nat) (bs : Bytes) : (c.writeSqb a bs).seenWslot = c.seenWslot := rfl
@[simp] theorem writeSqb_slotOpen (c : Core) (a : Nat) (bs : Bytes) : (c.writeSqb a bs).slotOpen = c.slotOpen := rfl

/-! withCtl -/
@[simp] theorem withCtl_spec (c : Core) (f : CoreCtl → CoreCtl) : (c.withCtl f).spec = c.spec := rfl
@[simp] theorem withCtl_sqb (c : Core) (f : CoreCtl → CoreCtl) : (c.withCtl f).sqb = c.sqb := rfl
@[simp] theorem withCtl_acc (c : Core) (f : CoreCtl → CoreCtl) : (c.withCtl f).acc = c.acc := rfl
@[simp] theorem withCtl_chains (c : Core) (f : CoreCtl → CoreCtl) : (c.withCtl f).chains = c.chains := rfl
@[simp] theorem withCtl_s (c : Core) (f : CoreCtl → CoreCtl) : (c.withCtl f).s = c.s := rfl
@[simp] theorem withCtl_a (c : Core) (f : CoreCtl → CoreCtl) : (c.withCtl f).a = c.a := rfl
@[simp] theorem withCtl_td (c : Core) (f : CoreCtl → CoreCtl) : (c.withCtl f).td = c.td := rfl
@[simp] theorem withCtl_v (c : Core) (f : CoreCtl → CoreCtl) : (c.withCtl f).v = c.v := rfl
@[simp] theorem withCtl_p (c : Core) (f : CoreCtl → CoreCtl) : (c.withCtl f).p = c.p := rfl
@[simp] theorem withCtl_cc (c : Core) (f : CoreCtl → CoreCtl) : (c.withCtl f).cc = c.cc := rfl
@[simp] theorem withCtl_brim (c : Core) (f : CoreCtl → CoreCtl) : (c.withCtl f).brim = c.brim := rfl
@[simp] theorem withCtl_unret (c : Core) (f : CoreCtl → CoreCtl) : (c.withCtl f).unret = c.unret := rfl
@[simp] theorem withCtl_nextId (c : Core) (f : CoreCtl → CoreCtl) : (c.withCtl f).nextId = c.nextId := rfl
@[simp] theorem withCtl_clean (c : Core) (f : CoreCtl → CoreCtl) : (c.withCtl f).clean = c.clean := rfl
@[simp] theorem withCtl_refills (c : Core) (f : CoreCtl → CoreCtl) : (c.withCtl f).refills = c.refills := rfl
@[simp] theorem withCtl_mover (c : Core) (f : CoreCtl → CoreCtl) : (c.withCtl f).mover = c.mover := rfl
@[simp] theorem withCtl_nextOrder (c : Core) (f : CoreCtl → CoreCtl) : (c.withCtl f).nextOrder = c.nextOrder := rfl
@[simp] theorem withCtl_records (c : Core) (f : CoreCtl → CoreCtl) : (c.withCtl f).records = c.records := rfl
@[simp] theorem withCtl_seenWslot (c : Core) (f : CoreCtl → CoreCtl) : (c.withCtl f).seenWslot = c.seenWslot := rfl
@[simp] theorem withCtl_slotOpen (c : Core) (f : CoreCtl → CoreCtl) : (c.withCtl f).slotOpen = c.slotOpen := rfl

/-! withSpec -/
@[simp] theorem withSpec_ctl (c : Core) (f : Special → Special) : (c.withSpec f).ctl = c.ctl := rfl
@[simp] theorem withSpec_sqb (c : Core) (f : Special → Special) : (c.withSpec f).sqb = c.sqb := rfl
@[simp] theorem withSpec_acc (c : Core) (f : Special → Special) : (c.withSpec f).acc = c.acc := rfl
@[simp] theorem withSpec_chains (c : Core) (f : Special → Special) : (c.withSpec f).chains = c.chains := rfl
@[simp] theorem withSpec_s (c : Core) (f : Special → Special) : (c.withSpec f).s = c.s := rfl
@[simp] theorem withSpec_a (c : Core) (f : Special → Special) : (c.withSpec f).a = c.a := rfl
@[simp] theorem withSpec_td (c : Core) (f : Special → Special) : (c.withSpec f).td = c.td := rfl
@[simp] theorem withSpec_v (c : Core) (f : Special → Special) : (c.withSpec f).v = c.v := rfl
@[simp] theorem withSpec_p (c : Core) (f : Special → Special) : (c.withSpec f).p = c.p := rfl
@[simp] theorem withSpec_cc (c : Core) (f : Special → Special) : (c.withSpec f).cc = c.cc := rfl
@[simp] theorem withSpec_brim (c : Core) (f : Special → Special) : (c.withSpec f).brim = c.brim := rfl
@[simp] theorem withSpec_unret (c : Core) (f : Special → Special) : (c.withSpec f).unret = c.unret := rfl
@[simp] theorem withSpec_nextId (c : Core) (f : Special → Special) : (c.withSpec f).nextId = c.nextId := rfl
@[simp] theorem withSpec_clean (c : Core) (f : Special → Special) : (c.withSpec f).clean = c.clean := rfl
@[simp] theorem withSpec_refills (c : Core) (f : Special → Special) : (c.withSpec f).refills = c.refills := rfl
@[simp] theorem withSpec_mover (c : Core) (f : Special → Special) : (c.withSpec f).mover = c.mover := rfl
@[simp] theorem withSpec_nextOrder (c : Core) (f : Special → Special) : (c.withSpec f).nextOrder = c.nextOrder := rfl
@[simp] theorem withSpec_records (c : Core) (f : Special → Special) : (c.withSpec f).records = c.records := rfl
@[simp] theorem withSpec_seenWslot (c : Core) (f : Special → Special) : (c.withSpec f).seenWslot = c.seenWslot := rfl
@[simp] theorem withSpec_slotOpen (c : Core) (f : Special → Special) : (c.withSpec f).slotOpen = c.slotOpen := rfl

/-! advance -/
@[simp] theorem advance_sqb (c : Core) (w : Waits) (b : Bool) : (c.advance w b).sqb = c.sqb := rfl
@[simp] theorem advance_acc (c : Core) (w : Waits) (b : Bool) : (c.advance w b).acc = c.acc := rfl
@[simp] theorem advance_chains (c : Core) (w : Waits) (b : Bool) : (c.advance w b).chains = c.chains := rfl
@[simp] theorem advance_s (c : Core) (w : Waits) (b : Bool) : (c.advance w b).s = c.s := rfl
@[simp] theorem advance_a (c : Core) (w : Waits) (b : Bool) : (c.advance w b).a = c.a := rfl
@[simp] theorem advance_td (c : Core) (w : Waits) (b : Bool) : (c.advance w b).td = c.td := rfl
@[simp] theorem advance_v (c : Core) (w : Waits) (b : Bool) : (c.advance w b).v = c.v := rfl
@[simp] theorem advance_p (c : Core) (w : Waits) (b : Bool) : (c.advance w b).p = c.p := rfl
@[simp] theorem advance_cc (c : Core) (w : Waits) (b : Bool) : (c.advance w b).cc = c.cc := rfl
@[simp] theorem advance_brim (c : Core) (w : Waits) (b : Bool) : (c.advance w b).brim = c.brim := rfl
@[simp] theorem advance_unret (c : Core) (w : Waits) (b : Bool) : (c.advance w b).unret = c.unret := rfl
@[simp] theorem advance_nextId (c : Core) (w : Waits) (b : Bool) : (c.advance w b).nextId = c.nextId := rfl
@[simp] theorem advance_clean (c : Core) (w : Waits) (b : Bool) : (c.advance w b).clean = c.clean := rfl
@[simp] theorem advance_refills (c : Core) (w : Waits) (b : Bool) : (c.advance w b).refills = c.refills := rfl
@[simp] theorem advance_mover (c : Core) (w : Waits) (b : Bool) : (c.advance w b).mover = c.mover := rfl
@[simp] theorem advance_nextOrder (c : Core) (w : Waits) (b : Bool) : (c.advance w b).nextOrder = c.nextOrder := rfl
@[simp] theorem advance_records (c : Core) (w : Waits) (b : Bool) : (c.advance w b).records = c.records := rfl
@[simp] theorem advance_seenWslot (c : Core) (w : Waits) (b : Bool) : (c.advance w b).seenWslot = c.seenWslot := rfl
@[simp] theorem advance_slotOpen (c : Core) (w : Waits) (b : Bool) : (c.advance w b).slotOpen = c.slotOpen := rfl

/-! note -/
@[simp] theorem note_spec (c : Core) (code : Nat) : (c.note code).spec = c.spec := rfl
@[simp] theorem note_sqb (c : Core) (code : Nat) : (c.note code).sqb = c.sqb := rfl
@[simp] theorem note_acc (c : Core) (code : Nat) : (c.note code).acc = c.acc := rfl
@[simp] theorem note_chains (c : Core) (code : Nat) : (c.note code).chains = c.chains := rfl
@[simp] theorem note_s (c : Core) (code : Nat) : (c.note code).s = c.s := rfl
@[simp] theorem note_a (c : Core) (code : Nat) : (c.note code).a = c.a := rfl
@[simp] theorem note_td (c : Core) (code : Nat) : (c.note code).td = c.td := rfl
@[simp] theorem note_v (c : Core) (code : Nat) : (c.note code).v = c.v := rfl
@[simp] theorem note_p (c : Core) (code : Nat) : (c.note code).p = c.p := rfl
@[simp] theorem note_cc (c : Core) (code : Nat) : (c.note code).cc = c.cc := rfl
@[simp] theorem note_brim (c : Core) (code : Nat) : (c.note code).brim = c.brim := rfl
@[simp] theorem note_unret (c : Core) (code : Nat) : (c.note code).unret = c.unret := rfl
@[simp] theorem note_nextId (c : Core) (code : Nat) : (c.note code).nextId = c.nextId := rfl
@[simp] theorem note_clean (c : Core) (code : Nat) : (c.note code).clean = c.clean := rfl
@[simp] theorem note_refills (c : Core) (code : Nat) : (c.note code).refills = c.refills := rfl
@[simp] theorem note_mover (c : Core) (code : Nat) : (c.note code).mover = c.mover := rfl
@[simp] theorem note_nextOrder (c : Core) (code : Nat) : (c.note code).nextOrder = c.nextOrder := rfl
@[simp] theorem note_records (c : Core) (code : Nat) : (c.note code).records = c.records := rfl
@[simp] theorem note_seenWslot (c : Core) (code : Nat) : (c.note code).seenWslot = c.seenWslot := rfl
@[simp] theorem note_slotOpen (c : Core) (code : Nat) : (c.note code).slotOpen = c.slotOpen := rfl

/-! enter -/
@[simp] theorem enter_ctl (c : Core) (t : Bool) (q : Option Nat) (e : Bool) (foot : Footprint) (h : Bool) (r : Option Job) (a : Option Nat) (x : Nat) : (c.enter t q e foot h r a x).ctl = c.ctl := rfl
@[simp] theorem enter_spec (c : Core) (t : Bool) (q : Option Nat) (e : Bool) (foot : Footprint) (h : Bool) (r : Option Job) (a : Option Nat) (x : Nat) : (c.enter t q e foot h r a x).spec = c.spec := rfl
@[simp] theorem enter_sqb (c : Core) (t : Bool) (q : Option Nat) (e : Bool) (foot : Footprint) (h : Bool) (r : Option Job) (a : Option Nat) (x : Nat) : (c.enter t q e foot h r a x).sqb = c.sqb := rfl
@[simp] theorem enter_acc (c : Core) (t : Bool) (q : Option Nat) (e : Bool) (foot : Footprint) (h : Bool) (r : Option Job) (a : Option Nat) (x : Nat) : (c.enter t q e foot h r a x).acc = c.acc := rfl
@[simp] theorem enter_chains (c : Core) (t : Bool) (q : Option Nat) (e : Bool) (foot : Footprint) (h : Bool) (r : Option Job) (a : Option Nat) (x : Nat) : (c.enter t q e foot h r a x).chains = c.chains := rfl
@[simp] theorem enter_s (c : Core) (t : Bool) (q : Option Nat) (e : Bool) (foot : Footprint) (h : Bool) (r : Option Job) (a : Option Nat) (x : Nat) : (c.enter t q e foot h r a x).s = c.s := rfl
@[simp] theorem enter_a (c : Core) (t : Bool) (q : Option Nat) (e : Bool) (foot : Footprint) (h : Bool) (r : Option Job) (a : Option Nat) (x : Nat) : (c.enter t q e foot h r a x).a = c.a := rfl
@[simp] theorem enter_td (c : Core) (t : Bool) (q : Option Nat) (e : Bool) (foot : Footprint) (h : Bool) (r : Option Job) (a : Option Nat) (x : Nat) : (c.enter t q e foot h r a x).td = c.td := rfl
@[simp] theorem enter_v (c : Core) (t : Bool) (q : Option Nat) (e : Bool) (foot : Footprint) (h : Bool) (r : Option Job) (a : Option Nat) (x : Nat) : (c.enter t q e foot h r a x).v = c.v := rfl
@[simp] theorem enter_p (c : Core) (t : Bool) (q : Option Nat) (e : Bool) (foot : Footprint) (h : Bool) (r : Option Job) (a : Option Nat) (x : Nat) : (c.enter t q e foot h r a x).p = c.p := rfl
@[simp] theorem enter_cc (c : Core) (t : Bool) (q : Option Nat) (e : Bool) (foot : Footprint) (h : Bool) (r : Option Job) (a : Option Nat) (x : Nat) : (c.enter t q e foot h r a x).cc = c.cc := rfl
@[simp] theorem enter_brim (c : Core) (t : Bool) (q : Option Nat) (e : Bool) (foot : Footprint) (h : Bool) (r : Option Job) (a : Option Nat) (x : Nat) : (c.enter t q e foot h r a x).brim = c.brim := rfl
@[simp] theorem enter_clean (c : Core) (t : Bool) (q : Option Nat) (e : Bool) (foot : Footprint) (h : Bool) (r : Option Job) (a : Option Nat) (x : Nat) : (c.enter t q e foot h r a x).clean = c.clean := rfl
@[simp] theorem enter_refills (c : Core) (t : Bool) (q : Option Nat) (e : Bool) (foot : Footprint) (h : Bool) (r : Option Job) (a : Option Nat) (x : Nat) : (c.enter t q e foot h r a x).refills = c.refills := rfl
@[simp] theorem enter_mover (c : Core) (t : Bool) (q : Option Nat) (e : Bool) (foot : Footprint) (h : Bool) (r : Option Job) (a : Option Nat) (x : Nat) : (c.enter t q e foot h r a x).mover = c.mover := rfl
@[simp] theorem enter_nextOrder (c : Core) (t : Bool) (q : Option Nat) (e : Bool) (foot : Footprint) (h : Bool) (r : Option Job) (a : Option Nat) (x : Nat) : (c.enter t q e foot h r a x).nextOrder = c.nextOrder := rfl
@[simp] theorem enter_records (c : Core) (t : Bool) (q : Option Nat) (e : Bool) (foot : Footprint) (h : Bool) (r : Option Job) (a : Option Nat) (x : Nat) : (c.enter t q e foot h r a x).records = c.records := rfl
@[simp] theorem enter_seenWslot (c : Core) (t : Bool) (q : Option Nat) (e : Bool) (foot : Footprint) (h : Bool) (r : Option Job) (a : Option Nat) (x : Nat) : (c.enter t q e foot h r a x).seenWslot = c.seenWslot := rfl
@[simp] theorem enter_slotOpen (c : Core) (t : Bool) (q : Option Nat) (e : Bool) (foot : Footprint) (h : Bool) (r : Option Job) (a : Option Nat) (x : Nat) : (c.enter t q e foot h r a x).slotOpen = c.slotOpen := rfl

/-! Reads after updates. -/
@[simp] theorem getS_setS (c : Core) (i k : Nat) (v : BitVec 64) : (c.setS i v).getS k = if k = i then v else c.getS k := by
  simp [setS, getS]
@[simp] theorem getA_setA (c : Core) (i k : Nat) (v : BitVec 64) : (c.setA i v).getA k = if k = i then v else c.getA k := by
  simp [setA, getA]
@[simp] theorem getTd_setTd (c : Core) (i k : Nat) (v : Td) : (c.setTd i v).getTd k = if k = i then v else c.getTd k := by
  simp [setTd, getTd]
@[simp] theorem getCc_setCc (c : Core) (i k : Nat) (v : BitVec 32) : (c.setCc i v).getCc k = if k = i then v else c.getCc k := by
  simp [setCc, getCc]
@[simp] theorem chain_setChain (c : Core) (t k : Nat) (x : Chain) : (c.setChain t x).chain k = if k = t then x else c.chain k := by
  simp [setChain, chain]
@[simp] theorem brimSlot_setBrimSlot (c : Core) (i k : Nat) (b : BrimSlot) :
    (c.setBrimSlot i b).brimSlot k = if k = i then b else c.brimSlot k := by simp [setBrimSlot, brimSlot]

/-- p0 reads as all ones, whatever is written to it (R94). -/
theorem getP_setP (c : Core) (i k : Nat) (v : BitVec 256) :
    (c.setP i v).getP k = if k = i ∧ i ≠ 0 then v else c.getP k := by
  unfold setP getP
  by_cases hi : i = 0 <;> by_cases hk : k = i <;> by_cases hz : k = 0 <;> simp_all

/-- A vector register read back. -/
theorem getV_setV_same (c : Core) (i : Nat) (vs : List F32) (h : vs.length = 256) : (c.setV i vs).getV i = vs := by
  have := Sparse.getRun_setRun_same 0 c.v (256 * i) vs
  rwa [h] at this

theorem getV_setV_other (c : Core) {i k : Nat} (vs : List F32) (h : vs.length = 256) (hk : k ≠ i) : (c.setV i vs).getV k = c.getV k := by
  apply Sparse.getRun_setRun_other
  omega

/-- An accumulator tile read back. -/
theorem getAcc_setAcc_same (c : Core) (t : Nat) (vs : List F32) (h : vs.length = 1024) : (c.setAcc t vs).getAcc t = vs := by
  have := Sparse.getRun_setRun_same 0 c.acc (1024 * t) vs
  rwa [h] at this

theorem getAcc_setAcc_other (c : Core) {t k : Nat} (vs : List F32) (h : vs.length = 1024) (hk : k ≠ t) :
    (c.setAcc t vs).getAcc k = c.getAcc k := by
  apply Sparse.getRun_setRun_other
  omega

/-- Square-buffer bytes read back. -/
theorem readSqb_writeSqb_same (c : Core) (a : Nat) (bs : Bytes) : (c.writeSqb a bs).readSqb a bs.length = bs :=
  Sparse.getRun_setRun_same 0 c.sqb a bs

theorem readSqb_writeSqb_other (c : Core) (a : Nat) (bs : Bytes) (b n : Nat) (h : b + n ≤ a ∨ a + bs.length ≤ b) :
    (c.writeSqb a bs).readSqb b n = c.readSqb b n := Sparse.getRun_setRun_other 0 c.sqb a bs b n h

/-- Everything one try at issue can do: nothing, a trap with the state kept but for the stop, a parity error at the read, a wait, or the effect after the
advance. -/
theorem issue_cases (c : Core) (w : Waits) (retires : Bool) (bs : List (Bool × Nat)) (ready : Bool) (eff : Core → CoreRes) :
    c.issue w retires bs ready eff = c.quiet ∨ (∃ code, c.issue w retires bs ready eff = c.trap code 0) ∨
    (∃ line, w.parity = some line ∧ c.issue w retires bs ready eff = c.parityAtIssue line) ∨
    c.issue w retires bs ready eff = (c.withCtl (fun k => { k with waiting := true })).quiet ∨
    (c.mayIssue = true ∧ c.ctl.pc < c.windowLen ∧ w.parity = none ∧ lowestCode bs = none ∧ c.refills.contains (c.fetchLine / 32) = false ∧ ready = true ∧
      c.issue w retires bs ready eff = eff (c.advance w retires)) := by
  by_cases hm : c.mayIssue = true
  · by_cases hw : c.windowLen ≤ c.ctl.pc
    · exact .inr (.inl ⟨cOverrun, by simp [issue, hm, hw]⟩)
    · cases hp : w.parity with
      | some line => exact .inr (.inr (.inl ⟨line, rfl, by simp [issue, hm, hw, hp]⟩))
      | none =>
        cases hb : lowestCode bs with
        | some code => exact .inr (.inl ⟨code, by simp [issue, hm, hw, hp, hb]⟩)
        | none =>
          cases hf : c.refills.contains (c.fetchLine / 32) with
          | true => exact .inl (by rw [issue, hp, hb, hf]; simp [hm, hw])
          | false =>
            cases hr : ready with
            | true => exact .inr (.inr (.inr (.inr ⟨hm, by omega, rfl, rfl, rfl, rfl, by rw [issue, hp, hb, hf]; simp [hm, hw]⟩)))
            | false => exact .inr (.inr (.inr (.inl (by rw [issue, hp, hb, hf]; simp [hm, hw]))))
  · exact .inl (by simp [issue, hm])

/-- An instruction that meets its conditions issues. -/
theorem issue_ready (c : Core) (w : Waits) (retires : Bool) (bs : List (Bool × Nat)) (ready : Bool) (eff : Core → CoreRes)
    (hm : c.mayIssue = true) (hw : c.ctl.pc < c.windowLen) (hp : w.parity = none) (hb : lowestCode bs = none)
    (hf : c.refills.contains (c.fetchLine / 32) = false) (hr : ready = true) :
    c.issue w retires bs ready eff = eff (c.advance w retires) := by
  rw [issue, hp, hb, hf]
  simp [hm, Nat.not_le.2 hw, hr]

/-- A core that waits for another instruction tries none. -/
theorem holding_other (c : Core) (word : BitVec 64) (g : Core → CoreRes) (hw : c.ctl.waiting = true) (hn : c.ctl.waitWord ≠ word) :
    c.holding word g = c.quiet := by simp [holding, hw, hn]

/-- A try that issues leaves the core as the effect does. -/
theorem holding_issued (c : Core) (word : BitVec 64) (g : Core → CoreRes) (h : c.ctl.waiting = false ∨ c.ctl.waitWord = word)
    (hi : (g c).core.ctl.waiting = false ∨ (g c).core.ctl.brimWait ≠ none) : c.holding word g = g c := by
  have h1 : (c.ctl.waiting && c.ctl.waitWord != word) = false := by
    cases h with
    | inl h => simp [h]
    | inr h => simp [h]
  have h2 : ((g c).core.ctl.waiting && (g c).core.ctl.brimWait.isNone) = false := by
    cases hi with
    | inl h => simp [h]
    | inr h => cases hb : (g c).core.ctl.brimWait with
      | none => exact absurd hb h
      | some x => simp
  simp [holding, h1, h2]

end Core
end Sys2Proof.Machine
end

