-- ==== Sys2Proof/Tests/Slice0.lean ====
section
/-!
SUPPORT. Tests: commands that their senders cannot form, words written out from the spec's encodings, single steps, and for every statement for the
provers that has hypotheses a state and operands that meet them.
-/
namespace Sys2Proof.Tests
open Sys2Proof.Machine

set_option Elab.async false

/-! Small states. -/

/-- A core that runs, with all else at reset. -/
def runCtl : CoreCtl := { CoreCtl.reset with enable := true, run := .running }
def runCore : Core := { Core.reset with ctl := runCtl }
/-- A device whose core 0 is `c`. -/
def withCore (c : Core) : State := { State.reset with cores := [(0, c)] }
def sRun : State := withCore runCore
def w0 : Waits := ⟨0, 0, 0, none⟩
/-- The fields of a control instruction. -/
def fc (d a b : Nat) (imm : Nat) : BitVec 56 := BitVec.ofNat 56 (d * 2 ^ 51 + a * 2 ^ 46 + b * 2 ^ 41 + imm)
/-- The fields of a vector instruction. -/
def fv (d a b c pg : Nat) : BitVec 56 := BitVec.ofNat 56 (d * 2 ^ 51 + a * 2 ^ 46 + b * 2 ^ 41 + c * 2 ^ 36 + pg * 2 ^ 33)
/-- The fields of a tile instruction. -/
def ft (acc tda tdb g start tds epi ve tdo : Nat) : BitVec 56 :=
  BitVec.ofNat 56 (acc * 2 ^ 52 + tda * 2 ^ 47 + tdb * 2 ^ 42 + g * 2 ^ 40 + start * 2 ^ 39 + tds * 2 ^ 31 + epi * 2 ^ 27 + ve * 2 ^ 22 + tdo * 2 ^ 17)

/-! Witnesses: the queue and the scalar instructions. -/

theorem witness_StepRunsFrontCommand : ({ State.reset with pending := [.idcode, .ueDrain 0 .crown] } : State).pending = .idcode :: [.ueDrain 0 .crown] := rfl

theorem witness_EmptyQueueTicks : State.reset.pending = [] ∧ State.reset.clock.slew = 0 := by decide

/-- A core that runs may try any instruction. -/
theorem witness_issues (op : Nat) (f : BitVec 56) : sRun.issues 0 w0 op f := by
  unfold State.issues
  exact ⟨by decide, by decide, by decide, by decide, by decide, .inl (by decide)⟩

def sEnding : State := withCore { runCore with ctl := { runCtl with ending := true } }

theorem witness_NopEndAndTraps :
    (sEnding.halt = none ∧ (sEnding.core 0).ctl.ending = true ∧ (sEnding.core 0).tilesDone = true ∧ (sEnding.core 0).mover = [] ∧ State.dirtySlots (sEnding.core 0) = []) ∧
    Opnd.unusedSet 0xFFFF [(15, 0)] = false ∧ Opnd.unusedSet 1 [] = true ∧ Opnd.unusedSet (1 <<< 40) [(55, 41)] = true ∧
    definedOpcode 6 = false ∧ definedOpcode 0xFF = false := by decide

theorem witness_ScalarBinaryResults : Opnd.unusedSet (fc 31 31 31 0) [(55, 41)] = false := by decide

def sHaz : State := withCore { runCore with a := [(1, 0xFFFF8)] }

theorem witness_ScalarMovesAndMemory :
    (Opnd.unusedSet (fc 15 15 0 0xFFFFFFFF) [(55, 46), (31, 0)] = false ∧ Opnd.crD (fc 15 15 0 0xFFFFFFFF) < 16 ∧ Opnd.crA (fc 15 15 0 0xFFFFFFFF) < 16) ∧
    Opnd.unusedSet (fc 31 0 0 0xFFFFFFFFFFFF) [(55, 51), (47, 0)] = false ∧ Opnd.unusedSet (fc 31 0 0 0xFFFF) [(55, 51), (15, 0)] = false ∧
    (Opnd.unusedSet (fc 15 15 0 0) [(55, 46)] = false ∧ Opnd.crD (fc 15 15 0 0) < 16 ∧ Opnd.crA (fc 15 15 0 0) < 16) ∧
    Opnd.unusedSet (fc 31 0 0 0) [(55, 51)] = false ∧
    (let f := fc 1 1 0 0
     let c := sHaz.core 0
     let addr := (c.getA (Opnd.crA f) + (f.extractLsb' 0 32).signExtend 64).toNat
     addr % 8 = 0 ∧ addr < 0x100000 ∧ c.noHazard none { Footprint.none with readLines := [(addr / 64, 1)] } = true ∧
     c.noHazard none { Footprint.none with writeLines := [(addr / 64, 1)] } = true) ∧
    (Opnd.unusedSet (fc 3 0 0 10) [(55, 51), (5, 0)] = false ∧ Opnd.imm32 (fc 3 0 0 10) = 10) ∧
    (Opnd.unusedSet (fc 0 3 0 6) [(50, 46), (5, 0)] = false ∧ Opnd.imm32 (fc 0 3 0 6) = 6 ∧ (0xFFF : BitVec 64).toNat < 2 ^ 12 ∧
     ((0x3FFF : BitVec 64).extractLsb' 0 14).toNat + ((0x3FFF : BitVec 64).extractLsb' 14 14).toNat ≤ 16383) := by decide

theorem witness_BranchTargets :
    (Opnd.unusedSet (fc 0 0 0 7) [(31, 0)] = false ∧ (0 : Int) ≤ 0 + 7 ∧ (0 : Int) + 7 < (sRun.core 0).windowLen) ∧
    (Opnd.unusedSet (fc 1 2 20 7) [(55, 43), (31, 0)] = false ∧ Opnd.cond (fc 1 2 20 7) = 5) ∧
    (Opnd.unusedSet (fc 1 0 0 7) [(55, 51), (31, 0)] = false ∧ ((withCore { runCore with s := [(1, 1)] }).core 0).getS 1 - 1 = 0 ∧
     (sRun.core 0).getS 1 - 1 ≠ 0) := by decide

/-! Witnesses: vector and tile instructions. -/

theorem witness_VectorLanesCompute :
    (∀ op ∈ [0x80, 0x81, 0x82, 0x83, 0x84, 0x85, 0x86, 0x87, 0x88, 0x89, 0x8B, 0x91], (sRun.core 0).vecReady op (fv 1 2 0 0 7)) ∧
    (sRun.core 0).vecReady 0x83 (fv 31 31 31 31 7) ∧ Opnd.vTile (fv 31 31 31 31 7) = false := by unfold Core.vecReady; decide

def chainStarted : Chain := { Chain.none with started := true }
def sChains : State := withCore { runCore with chains := [(0, chainStarted), (1, chainStarted), (2, chainStarted), (15, chainStarted)] }
/-- The TILE bit, and BM. -/
def tileForm (bm : Nat) : BitVec 56 := BitVec.ofNat 56 (2 ^ 32 + bm * 2 ^ 30)

theorem witness_VectorTilesAndStores :
    (∀ op ∈ [0x80, 0x81, 0x82, 0x83, 0x84, 0x85, 0x86, 0x87, 0x88, 0x89, 0x8B], (sChains.core 0).vecReady op (fv 15 2 0 0 7 ||| tileForm 0)) ∧
    (sChains.core 0).vecReady 0x80 (fv 15 2 31 0 7 ||| tileForm 3) ∧ Opnd.vTile (fv 15 2 0 0 7 ||| tileForm 0) = true ∧
    (vecReadsAcc (captureVec (sChains.core 0) 0x83 (fv 15 2 0 0 7 ||| tileForm 0))).all (fun t => !(sChains.core 0).poisoned t) = true ∧
    (sRun.core 0).vecReady 0x8E (fv 31 15 0 0 7) := by unfold Core.vecReady; decide

theorem witness_VectorMovesAndReductions :
    (∀ op ∈ [0x8A, 0x8C, 0x8D, 0x8F, 0x90, 0x92, 0x93, 0x94, 0x95, 0x96, 0x97], (sRun.core 0).vecReady op (fv 7 7 0 0 0)) ∧
    (sRun.core 0).vecReady 0x92 (fv 7 7 0 0 7 ||| (1 <<< 23)) ∧ Opnd.vSrf (fv 7 7 0 0 7 ||| (1 <<< 23)) = true ∧ Opnd.vSrf (fv 7 7 0 0 7) = false ∧
    (sRun.core 0).poisoned 15 = false := by unfold Core.vecReady; decide

theorem witness_SpecialInputs :
    ((val32 0x43000000).isFinite = true ∧ (0x43000000 : F32).toNat < 2 ^ 31 ∧ 0x43000000 ≤ (0x43000000 : F32).toNat) ∧
    ((val32 0xC3150001).isFinite = true ∧ 0xC3150000 < (0xC3150001 : F32).toNat) ∧ ((val32 0x80000001).isFinite = true ∧ 0x80000000 < (0x80000001 : F32).toNat) ∧
    (val32 0x7F800001).isNan = true := by decide

/-- A descriptor of FORMAT `fmt` at BASE `base`. -/
def td (fmt base : Nat) : BitVec 64 := BitVec.ofNat 64 (fmt * 2 ^ 32 + base)

theorem witness_FloatProductAccumulates :
    let f := ft 15 0 1 2 1 0 0 0 0
    (sRun.core 0).tileReady 0x40 f ∧ Opnd.tEpi f = 0 ∧ Opnd.tSpill f = false ∧
    isIntMode (laneMode (captureTile (sRun.core 0) 0x40 f).tda.format) = false := by unfold Core.tileReady; decide

def sInt8 : State := withCore { runCore with td := [(0, td 8 0), (1, td 8 1024)] }

theorem witness_IntegerProductAccumulates :
    let f := ft 15 0 1 2 1 0 0 0 0
    let c := sInt8.core 0
    let j := captureTile c 0x40 f
    let oa := readOperand c.sqb j.tda .product
    let ob := readOperand c.sqb j.tdb .product
    c.tileReady 0x40 f ∧ Opnd.tEpi f = 0 ∧ Opnd.tSpill f = false ∧ Opnd.tStart f = true ∧ isIntMode (laneMode j.tda.format) = true ∧ nanScale oa ob = false ∧
    intElement oa ob (groupSize j.g) (productK j.tda.format) 31 31 (intZc oa ob) 0 = some 0 := by unfold Core.tileReady; decide +kernel

def sTds : State := withCore { runCore with
  td := [(1, td 9 4096), (2, td 10 8192), (3, td 11 0)], chains := [(0, chainStarted), (1, { chainStarted with spilled := true })] }

theorem witness_TileLoadsAndStores :
    ((sTds.core 0).tileReady 0x41 (ft 15 0 0 0 0 0 0 0 0) ∧ (sTds.core 0).tileReady 0x41 (ft 15 2 0 0 0 0 0 0 0)) ∧
    ((sTds.core 0).tileReady 0x42 (ft 0 0 0 0 0 3 0 0 0) ∧ ((sTds.core 0).chain 0).spilled = false ∧ (sTds.core 0).tileReady 0x42 (ft 1 0 0 0 0 3 0 0 0) ∧
     ((sTds.core 0).chain 1).spilled = true ∧ ((sTds.core 0).chain 1).int32 = false) ∧
    ((sTds.core 0).tileReady 0x43 (ft 0 0 0 0 0 0 0 0 1) ∧ Opnd.tSr (ft 0 0 0 0 0 0 0 0 1) = false ∧ isMx ((sTds.core 0).getTd 1).format = false ∧
     ((sTds.core 0).getTd 1).format ≠ 10 ∧ ((sTds.core 0).chain 0).int32 = false ∧ (sTds.core 0).tileReady 0x44 (ft 0 1 0 0 0 0 0 0 0)) := by
  unfold Core.tileReady
  refine ⟨⟨by decide, by decide⟩, ⟨by decide, by decide, by decide, by decide, by decide⟩, by decide, by decide, by decide, by decide, by decide, by decide⟩

theorem witness_EpilogueRowStatistics :
    (sTds.core 0).tileReady 0x45 (ft 0 0 0 0 0 0 1 31 0) ∧ Opnd.tEpi (ft 0 0 0 0 0 0 1 31 0) = 1 ∧
    (sTds.core 0).tileReady 0x45 (ft 0 0 0 0 0 0 3 31 0) ∧ Opnd.tEpi (ft 0 0 0 0 0 0 3 31 0) = 3 := by unfold Core.tileReady; decide

/-! Small devices: memory, keys, a session, links. -/

/-- Maps page `p` at (partition, virtual page) as LOCAL. -/
def mapPage (part vpage p : Nat) (m : Memory) : Memory :=
  (m.link p (fun r => { r with part := BitVec.ofNat 5 part, vpage := BitVec.ofNat 31 vpage, state := 1 })).getD m
def mem5 : Memory := { mapPage 0 5 7 Memory.reset with dram := [(7 * pageSize, 1), (7 * pageSize + 63, 2), (7 * pageSize + 4095, 3)] }
/-- Every key slot of the memory, die-to-die, link and PCIe Cuffs. -/
def allKeys : Sparse (BitVec 64) := (List.range 59).map (fun q => (q, BitVec.allOnes 64))
def linkUp : Link := { Link.reset with run := .up, phase := 5, peer := 1, credits := [128, 768, 768, 384] }
/-- A device with one page, keys, and links 0 and 1 up to chip 1. -/
def sDev : State := { sRun with
  mem := mem5, keySlots := allKeys, net := { Net.reset with links := [(0, linkUp), (1, linkUp)] },
  keys := { Keys.reset with parts := [(0, { Partition.free with state := .open_, gen := 1 })] } }

/-- An operation that waits in mover slot 3: opcode, chip, partition, window offset, square-buffer address, bytes. -/
def mv (op chip part off al len : Nat) : MoverOp :=
  { slot := 3, order := 0, op := op, af := BitVec.ofNat 64 (chip * 2 ^ 50 + part * 2 ^ 45 + off), al := BitVec.ofNat 64 al, as_ := 0, cc := 15, len := len,
    relax := false, dtype := 0, sv := 1, sw := 2, job := 0, index := 0, slotno := 0, stage := .waiting, status := 0, code := 0, failAt := 0, owed := 0,
    signalOwed := false, tokens := 0, floored := false, progress := 0, reqs := [] }
def withMover (m : MoverOp) (s : State) : State := { s with cores := [(0, { runCore with mover := [m] })] }
/-- The fields of a move instruction. -/
def fm (af al cc sl dtype sv : Nat) : BitVec 56 :=
  BitVec.ofNat 56 (af * 2 ^ 52 + al * 2 ^ 48 + cc * 2 ^ 44 + sl * 2 ^ 39 + dtype * 2 ^ 31 + sv * 2 ^ 26)
def sMove : State := withCore { runCore with s := [(1, 0x100000), (2, 64)], mover := [{ mv 0xC1 1 0 0 0 64 with slot := 0 }, { mv 0xC1 1 0 0 0 64 with slot := 1 }] }
def mCas : MoverOp := { mv 0xC4 1 0 (5 * 16384) 8 8 with stage := .quota }
def mDone : MoverOp := { mv 0xC1 1 0 (5 * 16384) 0 64 with stage := .done, progress := 64 }

theorem witness_MoverOperations :
    ((∀ k, k < 2 → (sMove.core 0).mover.any (fun m => m.slot = k) = true) ∧ (sMove.core 0).mover.any (fun m => m.slot = 2) = false ∧
     (∀ op ∈ [0xC0, 0xC1, 0xC2], lowestCode ((sMove.core 0).moveBreaches op (fm 0 0 15 1 0 0)) = none) ∧
     lowestCode ((sMove.core 0).moveBreaches 0xC3 (fm 0 0 15 0 1 2)) = none ∧ lowestCode ((sMove.core 0).moveBreaches 0xC4 (fm 0 0 15 0 0 0)) = none ∧
     lowestCode ((sMove.core 0).moveBreaches 0xC5 (fm 0 0 15 1 3 0)) = none ∧ lowestCode ((sMove.core 0).moveBreaches 0xC6 0) = none) ∧
    (let s := withMover (mv 0xC1 1 0 (5 * 16384) 0 64) sDev
     let m := mv 0xC1 1 0 (5 * 16384) 0 64
     s.halt = none ∧ (s.core 0).mover = [m] ∧ (s.core 0).ctl.boosted = none ∧ (s.core 0).refills = [] ∧ (s.core 0).unret = [] ∧ s.ckpt.atRest = 0 ∧
     m.progress = 0 ∧ m.owed = 0 ∧ (s.core 0).sendLost m = false ∧ Core.sendFault m [] = none ∧ s.firstCheck 0 m = none ∧ m.chip ≠ s.chip) ∧
    (let s := withMover mCas sDev
     s.halt = none ∧ s.mem.engine = [] ∧ (s.core 0).mover = [mCas] ∧ mCas.part = 0 ∧ mCas.signalOwed = false ∧ mCas.reqs.length ≤ s.unsent 0 mCas ∧ mCas.inHost = false ∧ s.chooseLink mCas.chip (State.channelHash 0 0) = some 0 ∧ s.partDecl 0 = none ∧
     mCas.chip ≠ s.chip) ∧
    (mv 0xC1 1 31 0 0 64).part ≠ 0 ∧
    (let s := withMover mDone sDev
     mDone.status = 0 ∧ mDone.part = 0 ∧ 0 ≤ s.regField (ctl 0x000E 0x100) 23 12 ∧ (s.core 0).getCc 15 ≠ BitVec.allOnes 32) := by decide +kernel

def mGet : MoverOp := mv 0xC0 0 0 (5 * 16384) 0xFF000 4096

theorem witness_LocalGetBringsMemory :
    let s := withMover mGet sDev
    s.halt = none ∧ s.mem.engine = [] ∧ (s.core 0).mover = [mGet] ∧ (∀ i, i < 64 → s.lineFate 7 i = .sound false) ∧ s.firstCheck 0 mGet = none ∧ mGet.chip = s.chip ∧ mGet.vpage < 0x30000000 ∧ mGet.off % pageSize + mGet.len ≤ pageSize ∧
    mGet.al.toNat + mGet.len ≤ 0x100000 ∧ (s.access (.region 0) 0 mGet.vpage false).2 = .served 7 := by decide +kernel

/-! Witnesses: sync instructions, the Brim network, core control. -/

/-- A Brim slot: KIND, scope and entry below, ARRIVED in the upper half; SEEN or the flag's copy. -/
def slotB (kind arrived hi : Nat) : BrimSlot := ⟨BitVec.ofNat 32 (kind + arrived * 2 ^ 16), BitVec.ofNat 32 hi⟩
def sBrim : State := withCore { runCore with brim := [(0, slotB 2 65535 65535), (1, slotB 2 1 0), (2, slotB 1 0 5), (47, slotB 2 65535 65535)], s := [(1, 5)], cc := [(15, 7)] }
/-- The fields of a sync instruction. -/
def fy (slot cc sv cond imm : Nat) : BitVec 56 := BitVec.ofNat 56 (slot * 2 ^ 50 + cc * 2 ^ 46 + sv * 2 ^ 41 + cond * 2 ^ 38 + imm)
def sWait : State := withCore { runCore with ctl := { runCtl with waiting := true }, spec := { Special.reset with wdog := 10 }, seenWslot := true }

theorem witness_SyncInstructions :
    (let c := sBrim.core 0
     Opnd.unusedSet (fy 47 0 0 0 0) [(55, 50)] = false ∧ Opnd.ySlot (fy 47 0 0 0 0) < 48 ∧ c.slotKind 47 = 2 ∧ sBrim.slotBroken 0 47 = false ∧
     c.overrun 47 = false ∧ (c.slotArrived 47 + 1) % 65536 ≠ c.slotSeen 47 ∧ c.slotArrived 1 ≠ c.slotSeen 1 ∧ c.slotArrived 0 = c.slotSeen 0) ∧
    ((sBrim.core 0).slotKind 2 = 1 ∧ Opnd.unusedSet (fy 2 0 31 0 0) [(55, 50), (45, 41)] = false ∧
     Opnd.unusedSet (fy 2 0 0 0 0xFFFFFFFF) [(55, 50), (31, 0)] = false ∧ Opnd.unusedSet (fy 2 0 1 2 0) [(55, 50), (45, 38)] = false ∧
     Opnd.yCond (fy 2 0 1 2 0) = 2 ∧ (((sBrim.core 0).getS 1).setWidth 32).toNat = ((sBrim.core 0).brimSlot 2).hi.toNat) ∧
    (Opnd.unusedSet (fy 0 15 0 0 7) [(49, 46), (31, 0)] = false ∧ (fy 0 15 0 0 7).extractLsb' 0 32 ≠ 0 ∧
     ((fy 0 15 0 0 7).extractLsb' 0 32).toNat ≤ ((sBrim.core 0).getCc 15).toNat ∧ ((sBrim.core 0).getCc 14).toNat < ((fy 0 15 0 0 7).extractLsb' 0 32).toNat ∧
     Opnd.unusedSet (fy 0 15 31 0 0) [(49, 41)] = false ∧ (sRun.core 0).tilesDone = true ∧ (sRun.core 0).mover = [] ∧ (sMove.core 0).mover ≠ [] ∧
     ((withCore { runCore with unret := [⟨0, true, none, false, Footprint.none, false, none, none, 0⟩] }).core 0).tilesDone = false) ∧
    ((sRun.core 0).seenWslot = false ∧ (sWait.core 0).seenWslot = true ∧ (1 : BitVec 32) = (sWait.core 0).spec.slotno + 1 ∧ (2 : BitVec 32) ≠ (sWait.core 0).spec.slotno + 1) ∧
    ((sWait.core 0).ctl.enable = true ∧ (sWait.core 0).ctl.run = .running ∧ (sWait.core 0).ctl.stopping = none ∧ (sWait.core 0).ctl.waiting = true ∧
     (sWait.core 0).spec.wdog ≠ 0 ∧ (sRun.core 0).spec.wdog = 0) := by decide +kernel

/-- A node of a barrier in region 0 or of group scope with three members. -/
def nodeB (scope even gen rel : Nat) : BrimNode := ⟨⟨1, scope, 0, 0⟩, 0, false, [(0, 0), (1, 0), (2, 47)], even, 0, gen, rel, 5, false, 3 * 2 ^ 17, 0⟩
def withBrim (nodes : List BrimNode) (wire : List BrimMsg) : State := { sBrim with brim := { BrimNet.reset with nodes := nodes, wire := wire } }
/-- The path of a partition to chip 1, agreed, its keys zeros. -/
def path1 (part : Nat) : Path := ⟨1, part, 1, true, false, (0, 0), (0, 0), .none, false, false, List.replicate 72 0, [], []⟩
/-- `sDev` with the path of partition 0 to chip 1 ready. -/
def sNet : State := { sDev with net := { sDev.net with paths := [path1 0, path1 1] } }
/-- A frame of chip 1 on link 0 in the clear. -/
def clearf (part : Nat) (opw : BitVec 64) (payload : List (BitVec 8)) : RxFrame :=
  { link := 0, kgen := true, cls := 0, part := BitVec.ofNat 5 part, fid := 0, src := 1, rail := 0, time := 0, ctr := 0, opw := opw, payload := payload, tag := [], again := false }
/-- What a keyed frame in the clear must meet for the device to take it, sealed. -/
def takes (s : State) (f : RxFrame) (type : Nat) : Bool :=
  s.halt.isNone && (s.link f.link).run == .up && s.fidOk f && s.rxKey f && !s.keys.flipped.contains (64 * (22 + f.link.val) + (2 * f.part.toNat + b2n f.kgen)) &&
  s.ctrOk f && decide (32 ≤ (s.rxSeal f type).1.length)
theorem arrives_of_takes (s : State) (f : RxFrame) (type : Nat) (h : takes s f type = true) : s.arrives (s.sealedFor f type) type := by
  simp only [takes, Bool.and_eq_true, decide_eq_true_eq, Option.isNone_iff_eq_none, beq_iff_eq, Bool.not_eq_true'] at h
  obtain ⟨⟨⟨⟨⟨⟨h1, h2⟩, h3⟩, h4⟩, h5⟩, h6⟩, h7⟩ := h
  exact ⟨h1, h2, .inr ⟨h3, h4, h5, h6, State.frameTagOk_sealedFor s f type h7⟩⟩
theorem passed_of_takes (s : State) (f : RxFrame) (type : Nat) (h : takes s f type = true) : s.passed (s.sealedFor f type) type = s.passed f type := by
  simp only [takes, Bool.and_eq_true, decide_eq_true_eq] at h
  have l : (s.sealedFor f type).payload.length = f.payload.length := length_gcmText _ _ _ h.2
  unfold State.passed State.rxPassed
  rw [l]; rfl
theorem plain_of_takes (s : State) (f : RxFrame) (type : Nat) (h : takes s f type = true) (k : unkeyed f.link type = false) :
    (s.plain (s.sealedFor f type) type).payload = f.payload := by
  simp only [takes, Bool.and_eq_true, decide_eq_true_eq] at h
  have u : unkeyed (s.sealedFor f type).link type = false := k
  simp only [State.plain, u, Bool.false_eq_true, if_false]
  exact State.frameText_sealedFor s f type h.2

theorem witness_BrimBarriersAndFlags :
    (let s := withBrim [nodeB 0 0 0 0] [.arrive ⟨0, 0, 0⟩ 0]
     s.halt = none ∧ s.brim.wire = [.arrive ⟨0, 0, 0⟩ 0] ∧ s.brim.nodes = [nodeB 0 0 0 0] ∧ (nodeB 0 0 0 0).odd < 3 ∧ (nodeB 0 2 0 0).gen % 2 = 0 ∧ State.nodeHas ⟨0, 0, 0⟩ (nodeB 0 0 0 0) = true ∧ 0 + 1 < (nodeB 0 0 0 0).members.length ∧
     (nodeB 0 2 0 0).even + 1 = (nodeB 0 2 0 0).members.length ∧ (nodeB 0 2 0 0).id.scope ≤ 1) ∧
    ((sBrim.core 0).slotKind 47 = 2 ∧ ((sBrim.core 0).slotSeen 1 + 1) % 65536 = (sBrim.core 0).slotArrived 1) ∧
    ((State.reset.core 0).ctl.enable = false ∧ State.slotWriteBad BrimSlot.none false 2 = false ∧ State.slotWriteBad (slotB 1 0 0) true 0xFFFFFFFF = false) ∧
    (let s := withBrim [nodeB 2 0 1 0] [.counter ⟨1, 2, 0, 0⟩ false false 1]
     (nodeB 2 0 1 0).broken = false ∧ decide ((nodeB 2 0 1 0).rel % 2 = 1) = false ∧ 1 + 1 = s.brimAdders (nodeB 2 0 1 0) false * (0 / 2 + 1) ∧
     0 + 1 ≠ s.brimAdders (nodeB 2 0 1 0) false * (0 / 2 + 1)) ∧
    (let s := { sNet with brim := { BrimNet.reset with nodes := [{ nodeB 2 0 1 0 with id := ⟨0, 2, 0, 0⟩ }] } }
     let f := clearf 0 0 []
     takes s f 0x0E = true ∧ (s.passed f 0x0E).brim.nodes = s.brim.nodes ∧
     bitsNat f.opw.toNat 28 13 = 0 % 2 ^ 16 ∧ bitsNat f.opw.toNat 12 12 = 0 ∧ bitsNat f.opw.toNat 30 29 = 0) := by decide +kernel

def idleCore : Core := { Core.reset with ctl := { CoreCtl.reset with run := .idle } }
def uHeld (held isTile : Bool) : Unretired := ⟨4, isTile, none, false, Footprint.none, held, none, none, 0⟩

theorem witness_CoreControl :
    ((withCore idleCore).core 0).ctl.quar = false ∧ ((withCore idleCore).core 0).ctl.run = .idle ∧ (sRun.core 0).drained = true ∧
    ((withCore { runCore with unret := [uHeld false true] }).core 0).drained = false ∧
    ((withCore { runCore with ctl := { runCtl with run := .draining } }).core 0).mover = [] ∧
    (0 : BitVec 32).toNat < 2 ^ 28 ∧ ((0x3FFF : BitVec 32).extractLsb' 0 14).toNat + ((0x3FFF : BitVec 32).extractLsb' 14 14).toNat ≤ 16383 ∧
    Sparse.wf Chain.none (idleCore.chains) = true ∧ idleCore.ctl.enable = false ∧ State.reset.placedOn 0 = false ∧
    ({ State.reset with crown := { Crown.reset with parts := [(1, { CrownPart.none with placed := [⟨0, 7, false⟩] })] } } : State).placedOn 7 = true := by decide +kernel

def refillSrc : BitVec 64 := BitVec.ofNat 64 (1 * 2 ^ 50 + 5 * 16384)
def sRefill : State := { sDev with cores := [(0, { runCore with clean := [(511, refillSrc)], refills := [511] })] }

theorem witness_RetirementAndStops :
    ((withCore { runCore with unret := [uHeld false true] }).core 0).unret = [uHeld false true] ∧ (uHeld false true).redo = none ∧
    (sMove.core 0).mover.any (fun m => m.slot = (1 : BitVec 6).toNat) = true ∧
    ((withCore { runCore with ctl := { runCtl with stopping := some ⟨0x100D, 0⟩ }, unret := [uHeld true false] }).core 0).drained = true ∧
    ((sRefill.core 0).refills = [511] ∧ assocGet (sRefill.core 0).clean 511 = some refillSrc ∧ bitsNat refillSrc.toNat 62 50 ≠ sRefill.chip ∧
     (List.replicate 2048 (7 : BitVec 8)).length = 2048 ∧
     sRefill.firstCheck 0 (MoverOp.plain 0xC0 refillSrc 2048) = none ∧ sRefill.mem.engine = []) := by decide +kernel

/-! Witnesses: memory, the Cuffs, die-to-die edges, the update engine. -/

def onReg0 (f : Region → Region) (s : State) : State := s.setRegion 0 (f (s.region 0))
def onCuff0 (f : MemCuff → MemCuff) (s : State) : State := onReg0 (fun g => { g with cuff := f g.cuff }) s
def recHot : PrtRec := { PrtRec.free with valid := true, part := 0, vpage := 5, state := 1, heat := 255, epoch := 0xFEFFFE }
def sPatrol : State := { onReg0 (fun g => { g with patrol := true, corr := [(7, 3)] }) State.reset with
  mem := { Memory.reset with prt := [(131071, recHot)] } }
def sFill : State := onReg0 (fun g => { g with fills := [(131071, 255)] }) sPatrol
def withRepair (i groups : Nat) : State := { State.reset with mem := { Memory.reset with repairs := [(i, groups)] } }

/-- Lines 3 and 4 of page 131071 with one and with two symbols in error. -/
def oneFlip : Sparse Byte := [(70, 5)]
def twoFlips : Sparse Byte := [(0, 1), (71, 1)]
def withFlips (line : Nat) (e : Sparse Byte) : State := { sPatrol with mem := { sPatrol.mem with flips := [(Memory.lineAddr 131071 line, e)] } }

theorem witness_MemoryUpkeep :
    (sPatrol.mem.engine = [] ∧ sPatrol.mem.flips = [] ∧ rsCorrect twoFlips = none ∧ (rsCorrect oneFlip).isSome = true ∧ pageRegion 131071 = 0 ∧
     (withFlips 255 twoFlips).mem.flips = [(Memory.lineAddr 131071 255, twoFlips)] ∧ ((withFlips 255 oneFlip).region 0).patrol = true) ∧
    (sPatrol.halt = none ∧ (sPatrol.region (0 : BitVec 4).toNat).patrol = true ∧ (sPatrol.mem.record (0 * 131072 + 131071)).valid = true) ∧
    (sPatrol.mem.wf = true ∧ ((sPatrol.setReg (ctl 9 0) 1).reg (ctl 9 0)).toNat.testBit 0 = true) ∧
    ((withRepair (2 ^ 21 - 1) 224).mem.repairs = [(2 ^ 21 - 1, 224)] ∧ 224 % 32 = 0 ∧ 1 % 32 ≠ 0 ∧ ((withRepair 9 1).mem.record 9).valid = false ∧
     ((withRepair 9 1).region (9 / 131072)).cuff.scrubQ = []) ∧
    ((131071, 255) ∈ (sFill.region (0 : BitVec 4).toNat).fills ∧ (sFill.region (0 : BitVec 4).toNat).rb = [] ∧ (sFill.region (0 : BitVec 4).toNat).rbOff = []) := by
  decide +kernel

def mAdd : MoverOp := { mv 0xC3 0 0 (5 * 16384 + 64) 0 8 with stage := .passed }
def sMerge : State := onCuff0 (fun c => { c with merge := [⟨7, 1, true, [⟨64, .add64 5, .core 0 3⟩]⟩] }) (withMover mAdd sDev)
def trk (page written : Nat) : Tracker := ⟨page, BitVec.ofNat 256 written, true, .engine⟩
def sWhole : State := onCuff0 (fun c => { c with trackers := [trk 131071 (2 ^ 256 - 1)] }) sPatrol
def sScrub : State := onCuff0 (fun c => { c with scrubQ := [⟨.zeroFill, 131071⟩] }) sPatrol
def sJob (k : ScrubKind) : State := onCuff0 (fun c => { c with trackers := [trk 131071 0], running := some ⟨k, 131071⟩ })
  { sPatrol with mem := { sPatrol.mem with dram := [(131071 * pageSize, 9)] } }

theorem witness_CuffWritesAndScrubbing :
    ((sMerge.region (pageRegion 7)).cuff.merge = [⟨7, 1, true, [⟨64 * 1, .add64 5, .core 0 3⟩]⟩] ∧ sMerge.brim.nodes = [] ∧ (sMerge.core 0).mover = [mAdd] ∧
     mAdd.op = 0xC3 ∧ sMerge.torn 0 = false ∧ (sMerge.takePage 7 1).2 = true ∧ sMerge.lineFate 7 1 = .sound false ∧ sMerge.mem.engine = []) ∧
    ((sWhole.region (pageRegion 131071)).cuff.trackers = [trk 131071 (2 ^ 256 - 1)] ∧ (trk 131071 (2 ^ 256 - 1)).written = BitVec.allOnes 256 ∧
     (sWhole.mem.record 131071).epoch.toNat + 1 < 0xFF0000) ∧
    ((sScrub.region 0).cuff.running = none ∧ (sScrub.region 0).cuff.scrubQ = [⟨.zeroFill, 131071⟩] ∧ (sScrub.region 0).cuff.crownList = [] ∧
     (sScrub.region 0).cuff.trackers = [] ∧ (sScrub.region 0).cuff.merge = [] ∧ (sScrub.mem.record 131071).epoch.toNat < 2 ^ 24 - 1 ∧ pageRegion 131071 = 0) ∧
    (∀ k ∈ [ScrubKind.zeroFill, .erase, .sweep, .reencrypt], ((sJob k).region 0).cuff.trackers = [trk 131071 0] ∧
      ((sJob k).region 0).cuff.running = some ⟨k, 131071⟩ ∧ (sJob k).mem.retireQ = [] ∧
      (sJob k).mem.engine = [] ∧ ((sJob k).takePage 131071 0).2 = true ∧ ∀ i, i < 256 → (sJob k).lineFate 131071 i = .sound false) := by decide +kernel

/-- Compute die 0's end of the edge to LD at its other end's counter, the keys of both in one slot. -/
def sFlit (fails : Nat) : State := { sDev with
  keys := { sDev.keys with slotKeys := [(64 * 20 + 62, 1), (64 * 21 + 62, 1)], control := 1 },
  d2d := [(4, { D2d.reset with up := true, salt := 97 }), (5, { D2d.reset with up := true, txCtr := 2 ^ 64 - 1, rxCtr := 9, replay := [(8, ⟨0x1F, [], [], 0⟩)], fails := fails, salt := 101 })] }
def goodFlit : Flit := State.sealFlit 1 97 9 0x1F (List.replicate 32 5)
/-- Flits whose CRC stands but not their tag, and whose CRC does not stand. -/
def forgedFlit : Flit := ⟨0x1F, List.replicate 32 5, [], BitVec.ofNat 32 (crc32 (leBytes 8 0x1F ++ List.replicate 32 5))⟩
def lostFlit : Flit := ⟨0x1F, List.replicate 32 5, [], 0⟩

theorem witness_KeySlotsAndDieLinks :
    sDev.slotBusy 58 63 = false ∧ sMerge.slotBusy 0 0 = true ∧
    ((sFlit 3).keys.control ≠ 0 ∧ (sFlit 3).keys.storeFlipped = [] ∧ (sFlit 3).mem.engine = [] ∧ (sFlit 3).slotBusy (16 + 4) 62 = true ∧
     (sFlit 3).maySend 5 (2 * (31 : BitVec 5).toNat + b2n false) = true ∧ (sFlit 3).keys.flipped = [] ∧ ((sFlit 3).d2dEnd 5).txCtr < 2 ^ 64 ∧
     ((sFlit 3).d2dEnd 5).replay.length < 64) ∧
    ((sFlit 3).heldKeys (16 + 5) (State.flitSlot 0x1F) = 1 ∧ ((sFlit 3).d2dEnd (State.otherEnd 5)).salt = 97 ∧ ((sFlit 3).d2dEnd 5).rxCtr = 9 ∧
     State.flitCrcOk forgedFlit = true ∧ State.flitTagOk 1 97 9 forgedFlit = false ∧ State.flitCrcOk lostFlit = false ∧
     ((sFlit 3).d2dEnd 5).fails = 3 ∧ ((sFlit 0).d2dEnd 5).fails ≠ 3) ∧
    ({ sDev with halt := some (0x2105, 0x60) } : State).haltLow = false := by decide +kernel

theorem witness_goodFlit : goodFlit.header = 0x1F ∧ State.flitCrcOk goodFlit = true ∧ State.flitTagOk 1 97 9 goodFlit = true :=
  ⟨rfl, State.flitCrcOk_sealFlit _ _ _ _ _, State.flitTagOk_sealFlit _ _ _ _ _⟩
/-- A partition of a Charter with owner 15 alone, and the Charter of a session over chips 0 and 1. -/
def decl (n : Nat) : PartDecl :=
  { number := n, joint := true, owners := 0x8000, reads := 0, quotaPages := 1000, inflight := 32768, rate := 7200, burst := 1024, fid := 1 }
def dig (n : Nat) : List (BitVec 8) := BitVec.ofNat 8 n :: List.replicate 47 0
def charter1 : Charter :=
  { digest := dig 1, sessionId := List.replicate 16 9, owners := [15], ownerKeys := [[1]], parts := [decl 1], chips := [0, 1], digests := [dig 0, dig 2],
    rings := [⟨5, 1, 0, 2, 1, [0, 1]⟩], exports := [⟨1, 15, 0, 0⟩], escrow := [], seedCommit := [dig 3], workgraphs := [dig 4], notAfter := 10 ^ 18, rotateS := 60,
    restore := none, bytes := 1000 }
def session1 : Session := { Session.none with state := .active, charter := some charter1, seed := some (List.replicate 32 7), pairs := [⟨15, 0, 3, 0, List.replicate 36 1, List.replicate 36 2⟩] }
def part1 : Partition := { Partition.free with state := .open_, gen := 1, session := 0, tokens := 1024 * 2 ^ 20 }
/-- A partition's pages 100 and up on pages 100 and up. -/
def mem1 : Memory := (List.range 20).foldl (fun m i => mapPage 1 (100 + i) (100 + i) m) mem5
/-- `sNet` with partition 1 of a session in force, on core 0 too. -/
def sSess : State := { sNet with
  mem := mem1, cores := [(0, { runCore with spec := { Special.reset with part := 1 } })],
  keys := { Keys.reset with parts := [(0, { Partition.free with state := .open_, gen := 1 }), (1, part1)], sessions := [(0, session1)] },
  net := { sNet.net with paths := [path1 0, path1 1] } }

/-- What an engine's read got. -/
def gotBytes : EngRead → Option (State × List (BitVec 8))
  | .got s b => some (s, b)
  | _ => none

/-- A slot of 64 bytes from (offset, value) fields. -/
def slotOf (fields : List (Nat × Nat)) : List (BitVec 8) := leBytes 64 ((fields.map (fun x => x.2 * 2 ^ (8 * x.1))).foldl (· + ·) 0)
def cmdOf (fields : List (Nat × Nat)) : UeCmd := ⟨1, 100 * pageSize, slotOf fields, false, 0, [], 0, false⟩
/-- Tensor 7, one group from 3: SGD, BF16 moments, two micro-steps. -/
def reg7 : Registration := ⟨1, 7, 0, 3, 1, 101, 102, 103, 0, 104, 0, 2, false, 0⟩
def withUe (c : UeCmd) (f : UpdateEngine → UpdateEngine) : State := sSess.onUe 0 (fun u => f { u with window := [c], enable := true })
def cReg : UeCmd := cmdOf [(0, 1), (2, 7), (8, 3), (12, 1), (16, 101), (20, 102), (24, 103), (32, 104), (38, 2)]
def cRel : UeCmd := cmdOf [(0, 2), (2, 7), (8, 3), (12, 1)]
def cBad : UeCmd := cmdOf [(0, 6), (2, 7)]
def ringU : UeRing := ⟨1, 100, 256, 5⟩
def sRing : State := { sSess.onUe 0 (fun u => { u with rings := [ringU], enable := true }) with
  mem := mem1.write 100 (64 * 5) (slotOf [(0, 1), (4, 5)]) }

theorem witness_UpdateEngineTable :
    (let s := withUe cReg id
     let t := cReg.registration
     (s.region 0).ue.window[(0 : BitVec 6).toNat]? = some cReg ∧ s.ueLive 0 1 = true ∧ ((s.region 0).ue.window.take 0).all (fun e => !e.meets cReg) = true ∧
     cReg.op = 1 ∧ cReg.registerOk = true ∧ (s.region 0).ue.table.length + State.tableHeld (s.region 0).ue < 1024 ∧ 0 < t.count ∧
     (∀ x ∈ s.allRegs, x.part = t.part → ∀ a ∈ x.runs, ∀ b ∈ t.runs, runsMeet a b = false) ∧
     (∀ x ∈ s.allRegs, x.part = t.part → x.tensor = t.tensor → x.first + x.count ≤ t.first ∨ t.first + t.count ≤ x.first)) ∧
    (let s := withUe cRel (fun u => { u with table := [reg7] })
     s.ueLive 0 1 = true ∧ cRel.op = 2 ∧ cRel.fieldsOk = true ∧ reg7.part = cRel.part ∧ reg7.tensor = cRel.tensor ∧ reg7.first = cRel.first ∧ reg7.count = cRel.count ∧
     0 < cRel.count ∧ State.tableHeld (s.region 0).ue ≤ 1024) ∧
    (6 ≤ cBad.op ∧ (cmdOf []).op = 0) ∧
    (let s0 := (withUe cRel id).onUe 0 (fun u => { u with window := [] })
     cRel.slotOff < 2 ^ 45 ∧ cRel.slotOff % 64 = 0 ∧ (s0.access (.region 0) 1 (cRel.slotOff / pageSize) true).2 = .served 100) ∧
    ((sRing.region 0).ue.rings = [ringU] ∧ ringU.part = (1 : BitVec 5).toNat ∧ ringU.seq = 5 ∧
     (sRing.region 0).ue.state = 0 ∧ (sRing.region 0).ue.enable = true ∧ (sRing.region 0).ue.window.length < 64 ∧ sRing.ueLive 0 1 = true ∧
     (gotBytes (sRing.engineRead (some 0) 1 (100 * pageSize + 64 * (5 % max 1 256)) 64)).any (fun x => leNat ((x.2.drop 4).take 4) = 5 % 2 ^ 32) = true) := by decide +kernel

def cAcc : UeCmd := cmdOf [(0, 3), (1, 1), (2, 7), (8, 3), (12, 1), (16, 9), (24, 1), (32, 110)]
def cStep : UeCmd := cmdOf [(0, 4), (1, 1), (2, 7), (8, 3), (12, 1), (16, 9), (32, 110), (40, 1 * 2 ^ 45 + 111 * 16384)]
def cMode : UeCmd := cmdOf [(0, 5), (1, 1), (2, 7), (8, 3), (12, 1), (32, 112), (36, 113)]
def cRun : UeCmd := { cAcc with started := true, next := 3 }
/-- Two groups from 3, so that the first is not the last. -/
def reg72 : Registration := { reg7 with count := 2, comp := 101, lin := 103, m := 105, gacc := 107 }
def cRun2 : UeCmd := { cmdOf [(0, 3), (1, 1), (2, 7), (8, 3), (12, 2), (16, 9), (24, 1), (32, 112)] with started := true, next := 3 }
def sHyp : State := { withUe cStep (fun u => { u with table := [reg7] }) with
  mem := mem1.write 111 0 (slotOf [(36, 0x3F800000)]) }

theorem witness_UpdateEngineWork :
    (let s := withUe cAcc (fun u => { u with table := [reg7] })
     s.ueLive 0 1 = true ∧ cAcc.fieldsOk = true ∧ reg7.first = cAcc.first ∧ reg7.count = cAcc.count ∧ 0 < cAcc.count ∧ cAcc.op = 3 ∧ 1 < reg7.accN ∧
     cAcc.micro ≤ reg7.accN ∧ s.microDone 0 1 7 3 9 + 1 = cAcc.micro ∧ s.ueRefusal 0 cAcc = none) ∧
    (cStep.fieldsOk = true ∧ cStep.op = 4 ∧ cStep.src ≠ 0 ∧ (slotOf [(36, 0x3F800000)]).length = 64 ∧
     (gotBytes (sHyp.engineGet (some 0) 1 cStep.hypAddr 64)).any (fun x => decide ((x.1.region 0).ue = (sHyp.region 0).ue ∧ hypOk reg7.sgd x.2 = true ∧
       x.1.ueRefusal 0 cStep = none)) = true) ∧
    (cMode.fieldsOk = true ∧ cMode.op = 5 ∧ reg7.wide ≠ decide (cMode.src = 1) ∧
     (let s := withUe cMode (fun u => { u with table := [reg7] })
      State.tableFits (s.region 0).ue cMode = true ∧ s.ueRefusal 0 cMode = none)) ∧
    (let s := withUe cRun2 (fun u => { u with table := [reg72] })
     cRun2.started = true ∧ cRun2.retried = false ∧ cRun2.src = 1 ∧ cRun2.micro = 1 ∧ s.regOf 0 cRun2 3 = some reg72 ∧ reg72.sgd = true ∧ reg72.wide = false ∧
     1 < reg72.accN ∧ 3 + 1 < cRun2.first + cRun2.count ∧
     s.moving 1 112 = false ∧ (State.groupTargets reg72 cRun2 3).findSome? (s.ueBlock 0 1) = none ∧
     (gotBytes (s.engineReads (some 0) 1 [(112 * pageSize, pageSize)])).any (fun x => decide (x.2.length = pageSize)) = true) := by decide +kernel

/-! Witnesses: Charters, SPDM, owners' requests, rotation, teardown. -/

def charter0 : Charter := { charter1 with digests := [List.replicate 48 0, dig 2], escrow := [[4]] }
/-- Boot done, one owner asked for, plain exports allowed. -/
def sReady : State := ({ sDev with boot := { Boot.reset with ready := true } }).setReg (ctl 1 0x10) (BitVec.ofNat 32 (1 + 2 ^ 6 + 2 ^ 7 + 2 ^ 8))

theorem witness_Charters :
    (sReady.halt = none ∧ sReady.keys.storeFlipped = [] ∧ sReady.boot.ready = true ∧ (sReady.reg (ctl 1 0x10)).toNat.testBit 7 = true ∧ sReady.charterCheck charter0 true true true = none ∧
     sReady.charterCheck charter0 true false true = some 0x2201 ∧ sReady.charterCheck { charter0 with notAfter := 0 } true true true = some 0x2202 ∧
     State.reset.boot.ready = false) ∧
    (sReady.test.opened = false ∧ sReady.test.bscan = false) := by decide +kernel

def sSpdm : State := { sSess with keys := { sSess.keys with conns := [⟨0, true, true, true⟩], secure := [⟨4, 0, true⟩], nextSecure := 5 } }

theorem witness_SpdmResponder :
    (sSpdm.halt = none ∧ (sSpdm.spdmConn 0).version = true ∧ (sSpdm.spdmConn 0).caps = true ∧ (sSpdm.spdmConn 0).algs = true ∧ (sSpdm.spdmConn 1).version = false ∧
     (sSpdm.spdmConn 1).algs = false ∧ (sSpdm.session ((32 : BitVec 8).toNat - 32)).charter = some charter1) ∧
    (sSpdm.keys.secure.length < 32 ∧ (0 : Fin 3).val ≠ 2 ∧ sSpdm.keys.secure = [⟨4, (0 : Fin 3), true⟩] ∧ (4 : BitVec 8).toNat < 5) := by decide +kernel

def share0 : List (BitVec 8) := List.replicate 32 6
def charterK (owners : List Nat) : Charter := { charter1 with
  owners := owners, ownerKeys := owners.map (fun _ => [1]), seedCommit := owners.map (fun o => sha384 (List.replicate 16 9 ++ [BitVec.ofNat 8 o] ++ share0)) }
def sKeying (owners : List Nat) : State := { sSpdm with
  keys := { sSpdm.keys with sessions := [(0, { Session.none with state := .keying, charter := some (charterK owners) })] } }
/-- Shares that have come before, and a Charter with these escrow keys that restores the image of this chip's buddy slot. -/
def sEscrow (escrow : List (List (BitVec 8))) (came : List (Nat × List (BitVec 8))) (image : List (BitVec 8)) : State := { sSpdm with
  keys := { sSpdm.keys with sessions := [(0, { session1 with escrow := came, charter := some { charter1 with escrow := escrow, restore := some (List.replicate 16 9) } })] }
  mem := (mapPage 1 (buddyVp 0) 131 sSpdm.mem).write 131 0 image
  ckpt := { Ckpt.reset with sess := [(0, { CkptSess.off with cfg := some ⟨1, false, 5, 2, 109, 0, 2, 9, 60⟩, run := .idle })] } }

theorem witness_OwnerRequests_commitment (owner : Nat) (h : owner = 15) :
    ((charterK [15]).owners.zip (charterK [15]).seedCommit).find? (fun x => x.1 = owner) =
      some (owner, sha384 ((charterK [15]).sessionId ++ [BitVec.ofNat 8 owner] ++ share0)) := by subst h; rfl

theorem witness_OwnerRequests :
    (sSpdm.keys.secure.find? (fun x => x.id = 4) = some ⟨4, 0, true⟩ ∧ sSpdm.sessionOf (List.replicate 16 9) = some (0, session1) ∧
     session1.charter = some charter1 ∧ 15 ∈ charter1.owners ∧ session1.state ≠ .ending ∧ share0.length = 32) ∧
    ((1 : BitVec 5).toNat ∈ sSpdm.partsOf 0 ∧ (sSpdm.rotate 1).2 = 0) ∧
    (sSpdm.calm ∧ ∀ r, r < 16 → (sSpdm.region r).ue.window = []) ∧
    (session1.ckKnown = false ∧ ({ session1 with ckKnown := true } : Session).ckKnown = true ∧ ([] : List (List (BitVec 8))).length ≤ 0 ∧
     (assocSet session1.escrow 0 share0).length < [[1], [2]].length ∧
     (let u := sEscrow [[1]] [(0, share0)] [1]
      u.imageSource 0 = some (u.chip, 0, 1) ∧ [[1]].length ≤ (assocSet session1.escrow 0 share0).length ∧ (sSpdm.setSession 0 session1).imageSource 0 = none ∧
      (gotBytes (u.imageRead (u.chip, 0, 1) pageSize)).any (fun x => u.sharedKey 0 x.2 = none) = true) ∧
     (let u := sEscrow [[1]] [(0, share0)] (List.replicate 48 0 ++ State.kcv share0)
      (gotBytes (u.imageRead (u.chip, 0, 1) pageSize)).any (fun x => u.sharedKey 0 x.2 = some share0) = true)) := by decide +kernel

def withPart1 (p : Partition) (s : State) : State := { s with keys := { s.keys with parts := [(1, p)] } }
def withSession0 (y : Session) (s : State) : State := { s with keys := { s.keys with sessions := [(0, y)] } }
def sFenced : State := withPart1 { part1 with state := .ending } (withSession0 { session1 with state := .ending, teardown := .fenced } { sSess with cores := [] })
def sDrained : State := { withPart1 { part1 with state := .erasing } (withSession0 { session1 with state := .ending, teardown := .drained } sSess) with mem := Memory.reset }

theorem witness_RotationAndTeardown :
    ((sSess.part 1).state = .open_ ∧ (sSess.part 1).gen ≠ 65535 ∧ (sSess.session 0).charter = some charter1 ∧ charter1.rotateS ≠ 0 ∧ sSess.partsOf 0 = [1] ∧
     sSess.halt = none) ∧
    (let s := { withPart1 { part1 with state := .rotating, gen := 65535 } sSess with mem := Memory.reset }
     (s.part 1).state = .rotating ∧ s.olderLeft 1 = false ∧ (s.slotsIdle (2 * 1 + (65535 + 1) % 2)).2 = true ∧ (s.part 1).schedulePending = false) ∧
    (sSess.calm ∧ (sSess.session 0).state = .active ∧ (∀ r, r < 16 → (sSess.region r).ue.window = []) ∧
     ({ charter1 with notAfter := 0 } : Charter).notAfter ≤ sSess.clock.now) ∧
    (sFenced.calm ∧ (sFenced.session 0).teardown = .fenced ∧ sFenced.fenceHeld (sFenced.partsOf 0) = false ∧ sFenced.partsOf 0 = [1] ∧
     ∀ b, b < 2 → (∀ q, q < 16 → sFenced.slotBusy q (2 * 1 + b) = false) ∧ ∀ n, n < 6 → sFenced.flitsOut n (2 * 1 + b) = false) ∧
    (sDrained.calm ∧ (sDrained.session 0).teardown = .drained ∧ ∀ e ∈ sDrained.mem.prt, e.2.state.toNat = prtScrubbing → e.2.part.toNat ∉ sDrained.partsOf 0) := by
  decide +kernel
/-! Witnesses: cold boot, the host port. -/

def bytesOf (n : Nat) (fields : List (Nat × Nat)) : List (BitVec 8) := leBytes n ((fields.map (fun x => x.2 * 2 ^ (8 * x.1))).foldl (· + ·) 0)
/-- A Start Image: a header, three empty Kearnef items, and a protection record with a chip map that gives chip 5 the digest of zeros. -/
def imgHead : List (BitVec 8) :=
  bytesOf 32 [(0, 0x4D49534B), (4, 0x0100), (8, 0x5120), (10, 0xB1), (12, 4096), (16, 56), (20, 4152), (24, 232), (28, 4384)] ++ List.replicate 4064 0
def imgKearnef : List (BitVec 8) := bytesOf 56 [(0, 3), (8, 1), (12, 56), (24, 2), (28, 56), (40, 3), (44, 56)]
def imgIntegrator : List (BitVec 8) :=
  bytesOf 40 [(0, 2), (8, 0x10), (12, 40), (16, 128), (24, 0x11), (28, 168), (32, 64)] ++ bytesOf 128 [(0, 32768), (12, 1 + 2 ^ 7)] ++
  bytesOf 64 [(0, 1), (56, 5)]
/-- Flash with that image in a slot, the other slot and both selection records erased. -/
def sFlash (slot : Nat) : State := { State.reset with boot := { Boot.reset with
  flash := Sparse.setRun 0xFF (Sparse.setRun 0xFF (Sparse.setRun 0xFF [] (imageBase slot) imgHead) (imageBase slot + 4096) imgKearnef) (imageBase slot + 4152) imgIntegrator } }
def bootFacts : BootFacts := ⟨0, 3, 3, List.replicate 48 0, 25, true, 0, [], none, 0⟩

theorem imgHead_length : imgHead.length = 4096 := by decide +kernel
theorem imgKearnef_length : imgKearnef.length = 56 := by decide +kernel
theorem imgIntegrator_length : imgIntegrator.length = 232 := by decide +kernel

theorem readImage_sFlash (slot : Nat) : (sFlash slot).readImage slot = ⟨imgHead, imgKearnef, imgIntegrator⟩ := by
  have h1 : (sFlash slot).flashAt (imageBase slot) 4096 = imgHead := by
    unfold State.flashAt sFlash
    rw [Sparse.getRun_setRun_other, Sparse.getRun_setRun_other]
    · have := Sparse.getRun_setRun_same (0xFF : BitVec 8) [] (imageBase slot) imgHead
      rwa [imgHead_length] at this
    · left; omega
    · left; omega
  have h2 : (sFlash slot).flashAt (imageBase slot + 4096) 56 = imgKearnef := by
    unfold State.flashAt sFlash
    rw [Sparse.getRun_setRun_other]
    · have := Sparse.getRun_setRun_same (0xFF : BitVec 8) (Sparse.setRun 0xFF [] (imageBase slot) imgHead) (imageBase slot + 4096) imgKearnef
      rwa [imgKearnef_length] at this
    · left; omega
  have h3 : (sFlash slot).flashAt (imageBase slot + 4152) 232 = imgIntegrator := by
    unfold State.flashAt sFlash
    have := Sparse.getRun_setRun_same (0xFF : BitVec 8)
      (Sparse.setRun 0xFF (Sparse.setRun 0xFF [] (imageBase slot) imgHead) (imageBase slot + 4096) imgKearnef) (imageBase slot + 4152) imgIntegrator
    rwa [imgIntegrator_length] at this
  have f : field_ imgHead 12 4 = 4096 ∧ field_ imgHead 16 4 = 56 ∧ field_ imgHead 20 4 = 4152 ∧ field_ imgHead 24 4 = 232 := by decide +kernel
  have k : headOk imgHead = true := by decide +kernel
  simp only [State.readImage, h1, f.1, f.2.1, f.2.2.1, f.2.2.2, h2, h3, k, if_true]

theorem img_ok : headOk imgHead = true ∧ itemsOk imgKearnef [1, 2, 3] = true ∧ itemsOk imgIntegrator [0x10, 0x11] = true ∧
    chipMapOk (Image.map ⟨imgHead, imgKearnef, imgIntegrator⟩) = true ∧ Image.svn ⟨imgHead, imgKearnef, imgIntegrator⟩ = 0 ∧
    protOk (Image.prot ⟨imgHead, imgKearnef, imgIntegrator⟩) = true ∧
    (chipMap (Image.map ⟨imgHead, imgKearnef, imgIntegrator⟩)).any (fun e => e.1 = bootFacts.own) = true := by decide +kernel

theorem imageCode_sFlash (slot : Nat) (h : slot = 0 ∨ slot = 1) : (sFlash slot).imageCode bootFacts slot = none := by
  have k := img_ok
  have u : bootFacts.unread.toNat.testBit slot = false ∧ bootFacts.kSig.toNat.testBit slot = true ∧ bootFacts.iSig.toNat.testBit slot = true := by
    rcases h with h | h <;> subst h <;> decide
  have v : (sFlash slot).keys.svnFuses = 0 := rfl
  simp [State.imageCode, readImage_sFlash, v, k.1, k.2.1, k.2.2.1, k.2.2.2.1, k.2.2.2.2.1, k.2.2.2.2.2.1, k.2.2.2.2.2.2, u.1, u.2.1, u.2.2]

theorem witness_ColdBoot :
    (∀ slot ∈ [0, 1], (sFlash slot).halt = none ∧ (sFlash slot).boot.phase = 0 ∧ (sFlash slot).boot.measures = [] ∧ (sFlash slot).pwr.seq = .up ∧
      ((sFlash slot).pin 0).active = false ∧ ((sFlash slot).pin 1).active = false ∧ (sFlash slot).boot.held = 0) ∧
    (bootFacts.edge = none ∧ bootFacts.dramStacks = 0 ∧ bootFacts.rows = [] ∧ bootFacts.fuseOk = true) ∧
    (State.reset.bootSlot = 0 ∧ State.reset.imageCode { bootFacts with unread := 3 } 0 ≠ none ∧ State.reset.imageCode { bootFacts with unread := 3 } 1 ≠ none) ∧
    ({ State.reset with boot := { Boot.reset with phase := 4 } } : State).boot.phase = 4 ∧ State.reset.boot.phase ≠ 6 ∧ sReady.boot.ready = true := by
  refine ⟨fun slot h => ?_, by decide, by decide +kernel, by decide, by decide, by decide⟩
  simp only [List.mem_cons, List.not_mem_nil, or_false] at h
  rcases h with h | h <;> subst h <;> exact ⟨rfl, rfl, rfl, rfl, rfl, rfl, rfl⟩

theorem witness_ColdBoot_slots (slot : Nat) (h : slot = 0 ∨ slot = 1) :
    (sFlash slot).imageCode bootFacts slot = none ∧ ({ bootFacts with unread := BitVec.ofNat 2 (2 ^ (1 - slot)) } : BootFacts).unread.toNat.testBit (1 - slot) = true :=
  ⟨imageCode_sFlash slot h, by rcases h with h | h <;> subst h <;> decide⟩

/-- Boot done, a Secure stream, a session in force; TAIL of ring 0 past two records of 128 bytes. -/
def sHost : State := ({ sSess with boot := { Boot.reset with ready := true }, host := { HostPort.reset with ideSecure := true, speed := 6, width := 16 } }).setReg (ctl 2 0x104) 256
def hdrOf (magic owner part seq len sess dest : Nat) : List (BitVec 8) :=
  bytesOf 32 [(0, magic), (5, owner), (6, part), (8, seq), (16, len), (20, sess), (24, dest)]
def hdrSealed : List (BitVec 8) := hdrOf magicSealed 15 1 3 64 0x09090909 (105 * 16384)
def sRestore : State := { withSession0 { session1 with state := .keying, charter := some { charter1 with restore := some (List.replicate 16 1) } } sHost with
  mem := mapPage 1 (buddyVp 0 + 1) 121 (mapPage 1 (buddyVp 0) 120 mem1) }
def hdrRestore : List (BitVec 8) := bytesOf 32 [(0, magicRestore), (4, 2), (5, 0xFF), (6, 1), (16, 64), (24, (buddyVp 0 + 1) * 16384)]
def xPlain : Export := ⟨1, 0, 1, 0, 0, 3, 7, List.replicate 64 5⟩
def mExport : MoverOp := { mv 0xC1 0 1 (0x3FFFF000 * 16384) 0 64 with stage := .passed }
def sEgr : State := ({ sHost with host := { sHost.host with exports := [xPlain] }, cores := [(0, { runCore with mover := [mExport] })] }).setReg (ctl 2 0x208) (BitVec.ofNat 32 (1 + 16 * 2))

theorem witness_HostRecords :
    (sHost.halt = none ∧ sHost.ringOpen 0 = true ∧ (recHeader (hdrOf magicWrap 0 0 0 0 0 0)).magic = magicWrap ∧ (recHeader []).magic ≠ magicWrap ∧
     (recHeader []).magic ≠ magicSealed ∧ (recHeader []).magic ≠ magicRestore) ∧
    (let h := recHeader hdrSealed
     h.magic = magicSealed ∧ sHost.recordAt 0 h = some 128 ∧ session1.pairs = [⟨15, 0, 3, 0, List.replicate 36 1, List.replicate 36 2⟩] ∧ h.owner = 15 ∧ h.seq = 3 ∧ charter1.parts = [decl 1] ∧ h.part = 1 ∧
     (decl 1).owners.toNat.testBit h.owner = true ∧ h.sess = leNat (charter1.sessionId.take 4) ∧ h.dir = 0 ∧ h.rule = 0 ∧ 1 ≤ h.len ∧ h.len ≤ 4194304 ∧
     sHost.recordLands h.part h.dest h.len = true ∧ (List.replicate 64 (1 : BitVec 8)).length = h.len ∧
     (let text := gcmText ((List.replicate 36 (1 : BitVec 8)).take 32) ((List.replicate 36 1).drop 32 ++ leBytes 8 3) (List.replicate 64 1)
      (sHost.engineWrite h.part h.dest text).2 = some true)) ∧
    (let h := recHeader (hdrOf magicRestore 15 1 3 64 0x09090909 0)
     h.magic = magicRestore ∧ sHost.recordAt 0 h = some 128 ∧ sHost.leadPart 0 = some 1 ∧ sHost.restoreOk 0 1 h (List.replicate 64 0) = false) ∧
    (sRestore.ringOpen 0 = true ∧ sRestore.recordAt 0 (recHeader hdrRestore) = some 128 ∧ sRestore.restoreOk 0 1 (recHeader hdrRestore) (List.replicate 64 3) = true ∧
     ((sRestore.restoreMap 1 (recHeader hdrRestore).dest (recHeader hdrRestore).len).restoreWrite 1 (recHeader hdrRestore).dest (List.replicate 64 3)).isSome = true ∧
     (List.replicate 64 (3 : BitVec 8)).length = (recHeader hdrRestore).len) ∧
    (sEgr.calm ∧ sEgr.host.exports = [xPlain] ∧ xPlain.slot = mExport.slot ∧ (sEgr.exportHeader xPlain).isSome = true ∧ (sEgr.reg (ctl 2 0x208)).toNat.testBit 0 = true ∧ sEgr.host.ideSecure = true ∧
     sEgr.host.egrTail + recSize xPlain.data.length ≤ sEgr.egrSize ∧ sEgr.egrUsed + recSize xPlain.data.length < sEgr.egrSize ∧ (sEgr.core 0).mover = [mExport]) := by
  decide +kernel

theorem witness_HostPort :
    (sHost.host.ideSecure = true ∧ sHost.boot.ready = true ∧ (sHost.ingRing 7).stopped = false ∧ (2 ^ 25 - 64) % 64 = 0 ∧
     ((65536 - 64) % 64 = 0 ∧ sEgr.egrSize = 65536 ∧ (0 + sEgr.egrSize - sEgr.egrHead) % sEgr.egrSize ≤ sEgr.egrUsed) ∧ State.reset.host.ideSecure = false) ∧
    (hasBit ({ State.reset with pwr := { Pwr.reset with running := BitVec.allOnes 25 } } : State).pwr.running 25 = true ∧ (State.reset.pin 2).active = false) ∧
    (let s := { sHost with keys := { sHost.keys with secure := [⟨2, 1, true⟩] } }
     s.keys.secure = [⟨2, 1, true⟩] ∧ s.host.speed ≠ 0 ∧ s.keys.storeFlipped = [] ∧ s.keys.flipped = [] ∧ (Sparse.get (0 : BitVec 64) s.keySlots 58).toNat.testBit 1 = true) := by decide +kernel

/-! Witnesses: Crown. -/

/-- A work graph of one variant, one stream of seven lines in group 0, one slot that may restart, one operand tensor of pages 100 and 101. -/
def graphTail : List (BitVec 8) :=
  bytesOf 8 [(0, 1), (4, 40)] ++ bytesOf 32 [(0, 3000), (4, 7), (6, 4), (12, 72), (16, 80)] ++ bytesOf 8 [(0, 10 * 2 ^ 17 + 2 ^ 34)] ++
  (bytesOf 2 [(0, 0)] ++ List.replicate 46 0xFF) ++ bytesOf 16 [(0, 100), (4, 2), (10, 1)]
def graphHead : List (BitVec 8) :=
  bytesOf 32 [(0, 0x47575243), (4, 0x0100), (6, 1), (7, 1), (8, 1), (12, 1), (14, 1), (16, 32), (20, 128), (24, 144), (28, 2115494091)] ++ graphTail
def graph1 : WorkGraph :=
  ⟨1, 1, 1, [[⟨3000, 7, 4, 0, 0, [⟨0, 10, true⟩], 0 :: List.replicate 23 0xFFFF, []⟩]], [⟨100, 2, 0, false, 1⟩]⟩
def slotSubmit : List (BitVec 8) := slotOf [(0, 1), (8, 110), (12, 1), (16, 5)]
def slotWithdraw : List (BitVec 8) := slotOf [(0, 2)]
def charterG : Charter := { charter1 with workgraphs := [sha384 graphHead] }
def activeRegion0 (s : State) : State := { s with pwr := { s.pwr with regions := [(0, { RegPwr.reset with st := .active })] } }
def memRing : Memory := mapPage 1 3000 134 ((mapPage 1 0x3FFFFFFE 130 mem1).onRecord 130 (fun x => { x with state := 3 }))
/-- Partition 1's Crown ring on page 130 with one slot, its work graph on page 110, its stream's image on page 134; `quar` marks the cores of quarantine. -/
def sRingOf (slot : List (BitVec 8)) (quar : BitVec 512) : State := activeRegion0 { withSession0 { session1 with charter := some charterG } sSess with
  quarMap := quar, mem := (memRing.write 110 0 graphHead).write 130 0 slot }
/-- What reads of whole pages and runs got. -/
def runsOf (s : State) (runs : List (Nat × Nat)) : Option (State × List (BitVec 8)) :=
  gotBytes (s.engineReads none 1 (runs.flatMap (fun x => State.pageParts x.1 x.2)))

/-- The page that a SUBMIT reads its work graph from. -/
def graphPage : List (BitVec 8) := ((runsOf (sRingOf slotSubmit 0) [(110 * pageSize, pageSize)]).map Prod.snd).getD []

/-- A work graph in force: its one stream on core 0. -/
def sStep (quar : BitVec 512) (ended : Bool) (withdraw : Option (Nat × Nat)) : State :=
  activeRegion0 { withSession0 { session1 with charter := some charterG } sSess with
    quarMap := quar, cores := [(0, idleCore)], mem := memRing,
    crown := { Crown.reset with parts := [(1, { CrownPart.none with
      wg := some graph1, begun := true, step := 5, groups := [(0, 0)], placed := [⟨0, 0, ended⟩], withdraw := withdraw })] } }

theorem witness_WorkGraphs_slot :
    (let s := sRingOf slotSubmit 0
     s.halt = none ∧ (s.crownSlot 1).2 = some (0x3FFFFFFE * pageSize, slotSubmit) ∧ (s.crownPart 1).withdraw = none ∧
     (let t := (s.crownSlot 1).1
      (t.part 1).state ≠ .free ∧ (t.session (t.part 1).session).state = .active ∧ (t.session (t.part 1).session).charter.map Charter.digest = some (dig 1) ∧ (t.crownPart 1).wg = none ∧
      (t.partDecl 1).map PartDecl.quotaPages = some 1000)) ∧
    ((sRingOf slotSubmit (BitVec.allOnes 512)).crownSlot 1).2 = some (0x3FFFFFFE * pageSize, slotSubmit) := by decide +kernel

theorem witness_WorkGraphs_plans :
    (runsOf (sRingOf slotSubmit 0) [(110 * pageSize, pageSize)]).any (fun x => decide (x.1.setSize 0 1 graph1 ≤ 917504) &&
      (runsOf x.1 [(3000 * pageSize, 7 * 64)]).any (fun y =>
        (State.variantPlans graph1 (State.cutRuns [(3000 * pageSize, 7 * 64)] y.2)).all (fun xs => !y.1.plansBad 1 graph1 xs && y.1.plansFit 1 (State.planIds 1 xs)))) = true := by
  decide +kernel

theorem graphPage_length : graphPage.length = pageSize := by decide +kernel
theorem graphTail_crc : crc32 graphTail = 2115494091 := by
  have a : (graphTail.take 56).foldl crcByte 0xFFFFFFFF = 442097726 := by decide +kernel
  have b : (graphTail.drop 56).foldl crcByte 442097726 = 2179473204 := by decide +kernel
  rw [crc32, ← List.take_append_drop 56 graphTail, List.foldl_append, a, b]; rfl
theorem witness_WorkGraphs_graph :
    graphPage.length = pageSize ∧ graphOk graphPage 1 1000 = true ∧ parseGraph graphPage = graph1 ∧ field_ graphPage 24 4 = 144 ∧ graphPage.take 144 = graphHead ∧
    field_ slotSubmit 0 1 = 1 ∧ field_ slotSubmit 1 3 = 0 ∧ field_ slotSubmit 24 24 = 0 ∧ field_ slotSubmit 16 8 = 5 ∧ field_ slotSubmit 8 4 = 110 ∧
    field_ slotSubmit 12 4 = 1 := by
  refine ⟨?_, ?_, ?_, ?_, ?_, ?_, ?_, ?_, ?_, ?_, ?_⟩
  · exact graphPage_length
  · have e : (graphPage.take (field_ graphPage 24 4)).drop 32 = graphTail := by decide +kernel
    simp only [graphOk, graphPage_length, e, graphTail_crc]; decide +kernel
  all_goals decide +kernel

theorem witness_WorkGraphs_digest : sha384 graphHead ∈ charterG.workgraphs := List.mem_singleton_self _

theorem witness_WorkGraphs_begun :
    (let s := sRingOf slotSubmit 0
     let placed := s.placeStreams 1 (graph1.variants.getD 0 []) [(0, 0)]
     s.chooseVariant 1 graph1 = some (0, [(0, 0)], true) ∧ ((s.releasePrev 1 graph1).mapGraph 1 1000 (fun _ => 0) graph1).good = true ∧
     placed = [⟨0, 0, false⟩] ∧ (s.awake (placed.map (fun x => x.core / 32))).2 = true ∧ (runsOf s [(3000 * pageSize, 7 * 64)]).isSome = true) ∧
    (let s := sRingOf slotSubmit (BitVec.allOnes 512)
     s.chooseVariant 1 graph1 = none ∧ ((s.releasePrev 1 graph1).mapGraph 1 1000 (fun k => k) graph1).good = true) := by decide +kernel

theorem witness_WorkGraphs_withdrawn :
    ((sRingOf slotWithdraw 0).crownSlot 1).2 = some (0x3FFFFFFE * pageSize, slotWithdraw) ∧ field_ slotWithdraw 0 1 = 2 ∧ field_ slotWithdraw 1 3 = 0 ∧
    field_ slotWithdraw 24 24 = 0 ∧ (((sRingOf slotWithdraw 0).crownSlot 1).1.crownPart 1).wg = none ∧
    (let s := { sRingOf slotWithdraw 0 with crown := (sStep 0 true none).crown }
     (s.crownSlot 1).2 = some (0x3FFFFFFE * pageSize, slotWithdraw) ∧ ((s.crownSlot 1).1.crownPart 1).wg.isSome = true ∧ (s.crownPart 1).withdraw = none) ∧
    (field_ (slotOf [(0, 3)]) 0 1 ≠ 1 ∧ ((sRingOf (slotOf [(0, 3)]) 0).crownSlot 1).2 = some (0x3FFFFFFE * pageSize, slotOf [(0, 3)])) ∧
    (let s : State := withSession0 { session1 with state := .ending } (sRingOf slotSubmit 0)
     (s.crownSlot 1).2 = some (0x3FFFFFFE * pageSize, slotSubmit) ∧ ((s.crownSlot 1).1.session ((s.crownSlot 1).1.part 1).session).state ≠ .active) ∧
    (let s := sStep 0 true (some (64, 0)); let cp := s.crownPart 1
     cp.withdraw = some (64, 0) ∧ cp.wg = some graph1 ∧ (∀ x ∈ cp.placed, x.ended = true ∧ (s.core x.core).ctl.run = .idle) ∧ ∀ j ∈ s.red.jobs, j.part ≠ 1) := by
  decide +kernel

/-- That work graph's core 0, with what its core and its region report. -/
def sErr (ctl0 : CoreCtl → CoreCtl) (f : Crown → Crown) : State :=
  let s := sStep 0 false none
  { s with cores := [(0, { runCore with ctl := ctl0 runCtl, seenWslot := true, spec := { Special.reset with part := 1 } })], crown := f s.crown }
/-- A stream to restart, or to place anew. -/
def sReload (restarts replaces : List (Nat × Nat)) : State :=
  let s := sStep 0 false none
  { s with cores := [(0, { runCore with ctl := { CoreCtl.reset with run := .stopped } })],
           crown := { s.crown with parts := [(1, { (s.crownPart 1) with restarts := restarts, replaces := replaces })] } }

theorem witness_StepsAndRestarts :
    (∀ s ∈ [sStep 0 true none, sStep (BitVec.allOnes 512) true none], let cp := s.crownPart 1
      s.halt = none ∧ cp.wg = some graph1 ∧ cp.held = false ∧ cp.begun = true ∧ cp.withdraw = none ∧ (∀ x ∈ cp.placed, x.ended = true) ∧ s.ckpt.atRest.toNat.testBit 1 = false ∧
      s.ckptKeeps 1 cp.step = false ∧ (s.part 1).state ≠ .ending) ∧
    (let s := sStep 0 true none
     let placed := s.placeStreams 1 (graph1.variants.getD 0 []) [(0, 0)]
     s.chooseVariant 1 graph1 = some (0, [(0, 0)], true) ∧ placed = [⟨0, 0, false⟩] ∧ (s.awake (placed.map (fun x => x.core / 32))).2 = true ∧
     (runsOf s [(3000 * pageSize, 7 * 64)]).isSome = true ∧ (sStep (BitVec.allOnes 512) true none).chooseVariant 1 graph1 = none) ∧
    (let s := sErr (fun k => { k with escalated := [0x1001] }) id
     s.halt = none ∧ (s.core 0).ctl.escalated = [0x1001] ∧ (s.region 0).errHist = [] ∧ 2 ≤ s.regField (ctl (regionBlock 0) 0xA00) 7 0) ∧
    (let s := sErr (fun k => { k with escalated := [0x1002] }) id
     (s.core 0).ctl.escalated = [0x1002] ∧ (s.core 0).ctl.quar = false) ∧
    (∀ code ∈ [0x1007, 0x1005], let s := sErr id (fun c => { c with escalations := [(0, code, false)] })
     s.streamOn 0 = some (1, ⟨0, 0, false⟩) ∧ s.crown.escalations = [(0, code, false)] ∧ (s.crownPart 1).held = false ∧ (s.part 1).state ≠ .ending ∧
     s.restartable 1 0 0 = true) ∧
    (let s := sReload [(0, 0)] []
     (s.crownPart 1).placed = [⟨0, 0, false⟩] ∧ (s.crownPart 1).wg = some graph1 ∧ (s.streamDecl 1 0).isSome = true ∧ (s.core 0).mover = [] ∧ (s.part 1).state ≠ .ending ∧
     (s.streamDecl 1 0).map State.imageRun = some (3000 * pageSize, 7 * 64) ∧ (runsOf s [(3000 * pageSize, 7 * 64)]).isSome = true ∧
     (s.crownPart 1).restarts = [(0, 0)] ∧ (s.core 0).ctl.run = .stopped ∧ (s.core 0).ctl.quar = false ∧ (s.core 0).ctl.enable = false) ∧
    (let s := sReload [] [(0, 0)]
     (s.streamDecl 1 0).isSome = true ∧ (s.crownPart 1).replaces = [(0, 0)] ∧ s.ckpt.atRest.toNat.testBit 1 = false ∧ s.spareCore 0 = some 1 ∧ (s.regPwr (1 / 32)).st = .active ∧
     (s.core 1).ctl.enable = false) := by
  refine ⟨?_, ?_, ?_, ?_, ?_, ?_, ?_⟩ <;> decide +kernel

/-- Migration on, page 100 hot with its uses in region 1. -/
def sHot (copies : List PageCopy) (state : BitVec 3) : State := ({ sSess with
  mem := sSess.mem.onRecord 100 (fun x => { x with heat := 255, affinity := 1, state := state, becomes := 1 }),
  crown := { Crown.reset with copies := copies } }).setReg (ctl 8 0) 0xF
def sLend (least : Nat) (loans : List Loan) (copies : List PageCopy) : State :=
  ({ sHot copies 2 with crown := { Crown.reset with loans := loans, copies := copies } }).setReg (ctl 8 0x18) (BitVec.ofNat 32 least)
def loan1 : Loan := ⟨1, 500, 1, 3, false, false, 0⟩
/-- Page 500 of partition 1 is back from the lender. -/
def fetch1 : EngFetch := ⟨1, 500, 0, 256, 1, 0, (sHot [] 2).mem.read 200 0 pageSize, 0⟩
def sBack : State := let s := sLend 0 [loan1] [⟨200, 200, .recall 1 500 1 3⟩]; { s with mem := { s.mem with fetched := [fetch1] } }

/-- Page 100 moves: the copy under way, the page read, what its record is then, the page written and unlinked. -/
def sMigr : State := sHot [⟨100, 131072, .migrate⟩] 2
def sRead : State := (sMigr.readWhole .ld 100).1
def xMove : PrtRec := { (sSess.mem.record 100) with heat := 255, affinity := 1, state := 2, becomes := 1 }
def sWritten : State := (((sRead.enginePage 131072 (sRead.newestKgen 1) (sRead.mem.read 100 0 pageSize)).1.tcDrop 1 100).onMem (fun m => m.unlink 100))

theorem witness_PagesMove :
    (let s := sHot [] 1; let r := s.mem.record 100
     s.halt = none ∧ (s.reg (ctl 8 0)).toNat.testBit 0 = true ∧ s.crown.selected = [] ∧ s.migrants = [100] ∧ (s.groupOf 100).isNone = true ∧
     s.inPageSet r.part.toNat r.vpage.toNat = false ∧
     r.state.toNat = prtLocal ∧ pageRegion 100 ≠ r.affinity.toNat ∧ s.ckpt.atRest.toNat.testBit r.part.toNat = false ∧ s.pinnedPage 100 = false ∧
     1 ≤ s.regionFree r.affinity.toNat ∧ s.freePage r.affinity.toNat = some 131072 ∧ s.mem.retireQ = []) ∧
    (sMigr.crown.copies = [⟨100, 131072, .migrate⟩] ∧ (sMigr.mem.record 100).state.toNat = prtMigrating ∧ pageHalf 131072 = pageHalf 100 ∧
     (sMigr.readWhole .ld 100).2 = true ∧ sRead.mem.record 100 = xMove ∧ (sRead.enginePage 131072 (sRead.newestKgen 1) (sRead.mem.read 100 0 pageSize)).2 = true ∧
     (({ sMigr with keySlots := [] } : State).readWhole .ld 100).2 = false) ∧
    (sWritten.chainFull 1 100 (pageHalf 131072) = false) ∧
    (let s := sLend 0x1FFFFF [] []
     s.mayBorrow = true ∧ s.freePages < s.regField (ctl 8 0x18) 20 0 ∧ takes s (clearf 0 0 []) 0x0D = true) ∧
    (let s := sLend 0 [] [⟨100, 100, .lend 1 100 1 3⟩]
     s.net.eng.contains (s.groupChip 1, 60) = false ∧ (s.mem.record 100).state.toNat = prtMigrating ∧ s.crown.copies = [⟨100, 100, .lend 1 100 1 3⟩]) ∧
    (let s := sLend 0 [loan1] []
     s.crown.loans = [loan1] ∧ s.nextRecall = some loan1 ∧ s.ckpt.atRest = 0 ∧ (List.range 16).findSome? s.freePage = some 0) ∧
    (sBack.crown.loans = [loan1] ∧ sBack.crown.copies = [⟨200, 200, .recall loan1.part loan1.vpage loan1.lender loan1.index⟩] ∧
     fetch1.part = loan1.part ∧ fetch1.vpage = loan1.vpage ∧ fetch1.lines = 256 ∧ fetch1.left = 0 ∧ fetch1.code = 0 ∧
     sBack.chainFull 1 500 (pageHalf 200) = false) ∧
    ((sBack.enginePage 200 (sBack.newestKgen 1) fetch1.got).2 = true ∧
     (sBack.enginePage 200 (sBack.newestKgen 1) fetch1.got).1.chainFull 1 500 (pageHalf 200) = false) := by
  refine ⟨?_, ?_, ?_, ?_, ?_, ?_, ?_, ?_⟩ <;> decide +kernel

/-- Room in a chain is what linking needs. -/
theorem link_isSome (s : State) (part : BitVec 5) (vpage : BitVec 31) (p : Nat) (f : PrtRec → PrtRec)
    (hp : ∀ r, (f r).part = part) (hv : ∀ r, (f r).vpage = vpage) (h : s.chainFull part.toNat vpage.toNat (pageHalf p) = false) : (s.mem.link p f).isSome = true := by
  have h' : ¬ 32 ≤ (s.mem.chainList 33 (s.mem.record (Memory.anchor (pageHalf p) (bucket part.toNat vpage.toNat s.mem.salt))).head).length := by
    simpa [State.chainFull] using h
  simp only [Memory.link, hp, hv, if_neg h', Option.isSome_some]

theorem witness_PagesMove_back : sBack.mem.fetched = [fetch1] ∧ fetch1.got.length = pageSize :=
  ⟨rfl, by simp only [fetch1, Memory.length_read]⟩
/-! Witnesses: links, paths, fabric time, frames of other chips. -/

def withLink (j : Nat) (f : Link → Link) (s : State) : State := s.onLink j f
def withPath (f : Path → Path) (s : State) : State := { s with net := { s.net with paths := s.net.paths.map f } }
/-- A data frame to chip 1 in partition 0. -/
def fData : Frame := ⟨0x10, 0, false, 0, 1, linesOpw 1280 3 4 1 false, List.replicate 64 9, false, 0, 0, 0, []⟩
/-- A frame of chip 8 that came over rail 0. -/
def rxRail : RxFrame := { clearf 0 0 [] with link := 28, src := 8 }
def sRail : State := withLink 28 (fun _ => { linkUp with peer := 0xFFFF }) sNet
theorem witness_LinkTraining :
    (let s := (withLink 0 (fun l => { l with run := .down }) sNet).setReg (ctl 0x20 0) 1
     s.halt = none ∧ s.linkOn 0 = true ∧ (s.link 0).run = .down) ∧
    (∀ p ∈ [0, 3, 5], let s := withLink 0 (fun l => { l with run := .training, phase := p }) sNet
     (s.link 0).run = .training ∧ (s.link 0).phase = p ∧ s.identity 0 7 3 = false ∧ (s.link 0).attempts + 1 < 3) ∧
    (let s := withLink 0 (fun l => { l with run := .training, phase := 3 }) sDev
     (s.link 0).run = .training ∧ (s.link 0).phase = 3 ∧ s.identity 0 1 24 = true ∧ (s.path 1 0).isNone = true) ∧
    (let s := withLink 28 (fun l => { l with run := .training, phase := 3, attempts := 2 }) sNet
     (s.link 28).run = .training ∧ (s.link 28).phase = 3 ∧ 3 ≤ (s.link 28).attempts + 1) ∧
    (let s := withPath (fun p => { p with ready := false }) (withLink 0 (fun l => { l with run := .authenticating, phase := 4, peer := 1 }) sNet)
     (s.link 0).run = .authenticating ∧ (s.link 0).phase = 4 ∧ s.path (s.link 0).peer 0 = some { path1 0 with ready := false }) ∧
    (let s := (withLink 0 (fun l => { l with run := .fastRetrain, unacked := [fData] }) sNet).setReg (ctl 0x20 0) 1
     (s.link 0).run = .fastRetrain ∧ s.linkOn 0 = true ∧ (s.link 0).loop.mode = 0 ∧ (sNet.link 0).run = .up ∧ (sNet.link 0).loop.mode = 0) := by
  refine ⟨?_, ?_, ?_, ?_, ?_, ?_⟩ <;> decide +kernel

theorem witness_LinkLossAndAbsence :
    (let s := withLink 0 (fun l => { l with queue := [fData] }) sNet; let l := s.link 0
     s.halt = none ∧ l.run = .up ∧ l.unacked = [] ∧ (1 ∈ s.linksTo l.peer ∧ s.linkUsable 1 = true) ∧ (sNet.link 0).queue = [] ∧ l.queue = [fData] ∧
     State.linkOwn fData = false ∧ s.otherLink 0 fData.dst = some 1) ∧
    ((sNet.link (clearf 0 0 []).link).run = .up ∧ unkeyed 0 2 = true ∧ (sRail.link rxRail.link).run = .up ∧ unkeyed 28 2 = true ∧ unkeyed 28 0x0B = true ∧
     rxRail.link = 28 ∧ sRail.inGroup 9 = false ∧ (9, 0) ∉ sRail.net.far ∧ (9, 1) ∉ sRail.net.far) ∧
    (let s := withLink 1 (fun l => { l with run := .down }) (withLink 0 (fun l => { l with run := .fastRetrain }) sNet)
     1 ≠ s.chip % 8 ∧ s.linksTo (s.groupChip 1) = [0, 1, 2, 3] ∧ (s.link 0).run = .fastRetrain ∧ ∀ j ∈ s.linksTo (s.groupChip 1), (s.link j).run ≠ .up) := by
  refine ⟨?_, ?_, ?_⟩ <;> decide +kernel

/-- The flit after reset: no frames, or one heartbeat at its front, and its CRC. -/
def flitSlot (first : BitVec 8) (crc : Nat) : List (BitVec 8 × Bool) :=
  ((List.replicate 12 0 ++ leBytes 4 crc) ++ (first :: List.replicate 255 0)).map (fun b => (b, false))

theorem crc_fold (first : BitVec 8) (a b c d e : Nat) (ha : (List.replicate 12 0 ++ first :: List.replicate 43 0).foldl crcByte 0xFFFFFFFF = a)
    (hb : (List.replicate 53 (0 : BitVec 8)).foldl crcByte a = b) (hc : (List.replicate 53 (0 : BitVec 8)).foldl crcByte b = c)
    (hd : (List.replicate 53 (0 : BitVec 8)).foldl crcByte c = d) (he : (List.replicate 53 (0 : BitVec 8)).foldl crcByte d = e) :
    crc32 (List.replicate 12 0 ++ first :: List.replicate 255 0) = e ^^^ 0xFFFFFFFF := by
  have h : (List.replicate 12 0 ++ first :: List.replicate 255 0 : List (BitVec 8)) =
      (List.replicate 12 0 ++ first :: List.replicate 43 0) ++ (List.replicate 53 0 ++ (List.replicate 53 0 ++ (List.replicate 53 0 ++ List.replicate 53 0))) := by
    simp only [List.append_assoc, List.cons_append, List.replicate_append_replicate, Nat.reduceAdd]
  rw [crc32, h, List.foldl_append, ha, List.foldl_append, hb, List.foldl_append, hc, List.foldl_append, hd, he]

theorem witness_FramesOnLinks_crc :
    crc32 (List.replicate 12 0 ++ 0 :: List.replicate 255 0) = 2062445753 ∧ crc32 (List.replicate 12 0 ++ 1 :: List.replicate 255 0) = 3034389874 :=
  ⟨crc_fold 0 741825206 155635497 43286317 3685432522 2232521542 (by decide +kernel) (by decide +kernel) (by decide +kernel) (by decide +kernel) (by decide +kernel),
   crc_fold 1 102720212 2096327224 3286616622 2382483065 1260577421 (by decide +kernel) (by decide +kernel) (by decide +kernel) (by decide +kernel) (by decide +kernel)⟩

theorem witness_FramesOnLinks_flit :
    ∀ x ∈ [((0 : BitVec 8), 2062445753, 0), (1, 3034389874, 1)],
      let bytes := (flitSlot x.1 x.2.1).map Prod.fst; let w := leNat (bytes.take 16); let l := sNet.link 0
      (flitSlot x.1 x.2.1).any Prod.snd = false ∧ bytes.take 12 ++ bytes.drop 16 = List.replicate 12 0 ++ x.1 :: List.replicate 255 0 ∧ bitsNat w 127 96 = x.2.1 ∧
      bitsNat w 29 25 < 16 ∧ bitsNat w 11 0 = (l.rxFseq + 1) % 4096 ∧ l.held = [] ∧
      State.flitFrames (bytes.drop 16) 16 l.rxLeft (if 0 < l.rxLeft ∧ l.rxLeft ≤ 16 then 1 else 0) = some (x.2.2, 0) := by decide +kernel

theorem witness_FramesOnLinks :
    (let s := withLink 0 (fun l => { l with queue := [fData] }) sNet; let l := s.link 0
     s.halt = none ∧ l.run = .up ∧ ((0 : BitVec 12).toNat + 4096 - l.fseq) % 4096 < 2048 ∧ ((0 : BitVec 12).toNat + 4096 - l.ackFseq) % 4096 ≤ 2048 ∧ l.floorNext = none ∧
     l.queue = [fData] ∧ unkeyed 0 fData.type = false ∧ fData.len + 1 ≤ l.credits.getD fData.cls 0 ∧ s.path fData.dst fData.part = some (path1 0) ∧ (path1 0).ready = true ∧
     s.slotLoaded (22 + 0) fData.part (s.kgenNow fData) = true ∧ s.keys.flipped = [] ∧ l.replays < 7) ∧
    (let s := (withLink 0 (fun l => { l with queue := [fData] }) sNet).setReg (ctl 0x000E 4) 10
     (s.reg (ctl 0x000E 4)).toNat % 2 ^ 16 ≠ 0 ∧ (s.link 0).queue.any (fun f => f.cls = 0) = true) ∧
    ((sNet.link 0).rxLine.length < 272 ∧ ((withLink 0 (fun l => { l with rxLine := flitSlot 0 0 }) sNet).link 0).rxLine.length = 272) ∧
    (let f := clearf 0 0 []
     takes sNet f 0x10 = true ∧ sNet.keys.flipped = [] ∧ sNet.frameTagOk f 0x10 = false ∧ sNet.ctrOk f = true ∧ sNet.fidOk f = true ∧ sNet.rxKey f = true ∧
     sNet.fidOk { f with fid := 1 } = false ∧
     ({ sNet with keySlots := [] } : State).rxKey f = false ∧ sNet.ctrOk { f with ctr := 5 } = false ∧ f.again = false ∧ takes sNet f 1 = true ∧ unkeyed f.link 1 = false ∧
     (sNet.link f.link).held = []) := by
  refine ⟨?_, ?_, ?_, ?_⟩ <;> decide +kernel

/-- `sSess` without the path of partition 1, and with paths at some point of a rekey. -/
def sSetup : State := { sSess with net := { sSess.net with paths := [path1 0] } }
def sRekey (f : Path → Path) : State := withPath f sNet

theorem witness_PathKeys :
    (let s := withPath (fun p => { p with tx := (2 ^ 40, 0) }) sNet
     s.halt = none ∧ s.path 1 0 = some { path1 0 with tx := (2 ^ 40, 0) } ∧ (path1 0).ready = true ∧ (path1 0).rekey = .none) ∧
    (takes sNet (clearf 0 0 []) 6 = true ∧ ((sNet.passed (clearf 0 0 []) 6).path 1 0).map (fun p => (p.rekey, p.older)) = some (.none, false)) ∧
    (let s := sRekey (fun p => { p with rekey := .offered })
     takes s (clearf 0 0 []) 7 = true ∧ ((s.passed (clearf 0 0 []) 7).path 1 0).map Path.rekey = some .offered) ∧
    (let s := sRekey (fun p => { p with rekey := .switched, older := true, doneSent := true })
     takes s (clearf 0 0 []) 8 = true ∧ ((s.passed (clearf 0 0 []) 8).path 1 0).map (fun p => (p.older, p.doneSent)) = some (true, true) ∧ sNet.inGroup 1 = true ∧
     (s.path 1 0).map Path.rekey = some .switched) ∧
    (let f := clearf 0 0 []; let u := sSetup.passed f 9
     takes sSetup f 9 = true ∧ u.pathAgrees 1 1 (dig 1) (dig 2) true = some 1 ∧ u.pathAgrees 1 2 (dig 1) (dig 2) true = none ∧ u.inGroup 1 = true ∧ (u.path 1 1).isNone = true) ∧
    (let f := clearf 0 0 []; let u := sSess.passed f 0x0A
     takes sSess f 0x0A = true ∧ u.pathAgrees 1 1 (dig 1) (dig 2) true = some 1 ∧ (u.path 1 1).isSome = true) ∧
    (let s := withLink 2 (fun l => { l with run := .authenticating, peer := 1 }) sNet; let f : RxFrame := { clearf 0 0 [] with link := 2 }
     (s.link f.link).run = .authenticating ∧ s.path (s.link f.link).peer 0 = some (path1 0) ∧ 32 ≤ (s.rxSeal f 0x0C).1.length ∧ s.frameTagOk f 0x0C = false) ∧
    (let s := { sNet with net := { sNet.net with links := [(28, { linkUp with queue := [{ fData with dst := 8, part := 1 }] })],
                                                 paths := (List.range 2048).map (fun i => { path1 1 with peer := 100 + i, ready := false }) } }
     (s.link 28).queue = [{ fData with dst := 8, part := 1 }] ∧ s.inGroup 8 = false ∧ s.path 8 1 = none ∧ (s.pathRoom 8).isNone = true) := by
  refine ⟨?_, ?_, ?_, ?_, ?_, ?_, ?_, ?_⟩ <;> decide +kernel

def sTime (slew : Bool) : State := { sNet with clock := { FabTime.reset with t1 := some 4000, slewOnly := slew } }
theorem witness_FabricTime :
    (sNet.halt = none ∧ sNet.clock.source ≠ 1 ∧ 1 ≠ sNet.chip % 8 ∧ sNet.chooseLink (sNet.groupChip 1) 0 = some 0 ∧ takes sNet (clearf 0 0 []) 4 = true) ∧
    (let f := clearf 0 5000 (leBytes 8 30)
     ∀ slew ∈ [true, false], takes (sTime slew) f 5 = true ∧ ((sTime slew).passed f 5).clock.t1 = some 4000 ∧ ((sTime slew).passed f 5).clock.slewOnly = slew ∧ unkeyed f.link 5 = false) ∧
    (let s := ({ sNet with mgmt := { sNet.mgmt with ppsSecond := some 5 } } : State).setReg (ctl 0x000E 0x10) 1
     s.mgmt.ppsSecond = some 5 ∧ (s.reg (ctl 0x000E 0x10)).toNat.testBit 0 = true ∧ (s.pin 3).active = false ∧ (s.pin 3).stuck = false ∧ (s.pin 3).accepted = none ∧
     s.clock.slewOnly = false ∧ 5 * 1000000000 < 2 ^ 64) := by
  refine ⟨?_, ?_, ?_⟩ <;> decide +kernel

/-- An operation in slot 3 of core 0 that waits for one reply of chip 1. -/
def sAwait (op len : Nat) : State := withMover { mv op 1 0 (5 * 16384) 64 len with stage := .passed, progress := len, reqs := [⟨1, 0, len⟩] } sNet
def nodeG (rel gen : Nat) : BrimNode := { nodeB 2 0 gen rel with id := ⟨0, 2, 9, 0⟩ }
def fPut : RxFrame := clearf 0 (linesOpw (5 * 256) 3 4 1 false) (List.replicate 64 7)
def fGet : RxFrame := clearf 0 (linesOpw (5 * 256) 3 4 1 false) []
/-- `sNet` whose merge buffer holds line 0 of page 7, and with two symbols of that line in error. -/
def sLine7 : State := onCuff0 (fun c => { c with merge := [⟨7, 0, false, []⟩] }) sNet
def sTwo7 : State := { sNet with mem := { sNet.mem with flips := [(Memory.lineAddr 7 0, twoFlips)] } }
/-- What a partial write came to: pending, landed, or landed with an old value. -/
def partialCame (x : State × State.WriteEnd) : Nat := match x.2 with | .pending => 1 | .landed none => 2 | .landed (some _) => 3 | _ => 0

theorem witness_RemoteOperations_lines :
    (let u := sNet.passed fPut 0x10; let w := linesOp fPut.opw; let a := u.access (.peer 1) 0 (w.off / pageSize) true
     takes sNet fPut 0x10 = true ∧ fPut.cls ≠ 3 ∧ u.peerWaits 1 w.core w.slot w.relax = false ∧ a.2 = .served 7 ∧
     (a.1.lineWrite 7 (w.off % pageSize) (fPut.payload.take (64 * w.lines))).isSome = true ∧ unkeyed fPut.link 0x10 = false) ∧
    (∀ x ∈ [(sNet, true), (sTwo7, false)], let u := x.1.passed fGet 0x13; let w := linesOp fGet.opw; let a := u.access (.peer 1) 0 (w.off / pageSize) false
     takes x.1 fGet 0x13 = true ∧ u.peerWaits 1 w.core w.slot w.relax = false ∧ a.2 = .served 7 ∧
     (a.1.memRead (.peer 1) 7 (w.off % pageSize / 64) w.lines []).2 = x.2) := by
  refine ⟨?_, ?_⟩ <;> decide +kernel

theorem witness_RemoteOperations_partial :
    ∀ type ∈ [0x11, 0x12, 0x15], let f := clearf 0 (offOpw (5 * 16384 + 8) 3 4 false 0) (List.replicate 63 0 ++ [8]); let w := offOp f.opw
      let op : PartialOp := if type = 0x11 then .bytes (List.replicate 8 0) else .add64 1
      ∀ x ∈ [(sNet, 1), (sLine7, if type = 0x11 then 2 else 3)], let u := x.1.passed f type; let a := u.access (.peer 1) 0 (w.off / pageSize) true
      takes x.1 f type = true ∧ u.peerWaits 1 w.core w.slot w.relax = false ∧ u.dataFailed 1 w.core w.slot = false ∧ a.2 = .served 7 ∧
      partialCame (a.1.partialWrite (if type = 0x12 then .signal 0 1 3 4 0 else .peer 0 1 3 4 0) 7 8 op) = x.2 := by decide +kernel

theorem witness_RemoteOperations_replies :
    (∀ x ∈ [(0x17, 0xC1, 64, []), (0x14, 0xC0, 64, List.replicate 64 3), (0x16, 0xC4, 8, List.replicate 8 3)],
     let s := sAwait x.2.1 x.2.2.1; let f := clearf 0 (replyOpw 0 3 0 0) x.2.2.2; let u := s.passed f x.1
     takes s f x.1 = true ∧ u.net.relays = [] ∧ u.brim.atomics = [] ∧
     (u.core 0).mover.map (fun m => [m.slot, m.op, m.progress, m.len, m.owed, b2n m.signalOwed, m.status]) = [[3, x.2.1, x.2.2.1, x.2.2.1, 0, 0, 0]] ∧
     (u.core 0).mover.map MoverOp.reqs = [[⟨1, 0, x.2.2.1⟩]] ∧ (u.core 0).mover.all (fun m => decide (m.al.toNat + m.len ≤ 0x100000)) = true) ∧
    (∀ x ∈ [(0x14, 64, List.replicate 64 (3 : BitVec 8)), (0x16, 8, List.replicate 8 3)], (x.2.2.take x.2.1).length = x.2.1 ∧ unkeyed 0 x.1 = false) ∧
    (let f : RxFrame := { clearf 1 0 [] with fid := 1 }
     f.part ≠ 0 ∧ takes sSess f 3 = true ∧ (sSess.session (sSess.part 1).session).state = .active ∧ (sSess.part 1).state ≠ .free) := by
  refine ⟨?_, ?_, ?_⟩ <;> decide +kernel

theorem witness_BrimFrames :
    let s := { sNet with brim := { BrimNet.reset with nodes := [nodeG 4 5] } }
    ∀ f ∈ [clearf 0 (BitVec.ofNat 64 (9 + 4 * 2 ^ 13)) [], clearf 0 (BitVec.ofNat 64 (9 + 3 * 2 ^ 13)) []],
      takes s f 0x0E = true ∧ (s.passed f 0x0E).brim.nodes = [nodeG 4 5] ∧
      (nodeG 4 5).id = ⟨f.part.toNat, 2, bitsNat f.opw.toNat 11 0, 0⟩ ∧ bitsNat f.opw.toNat 12 12 = 0 ∧ bitsNat f.opw.toNat 30 29 = 0 ∧ (nodeG 4 5).rel < (nodeG 4 5).gen := by
  decide +kernel
/-! Witnesses: gradient reduction. -/

/-- OPEN of job `job`: BF16 wire, one bucket of `elems` elements, two in flight. -/
def cmdOpen (job elems : Nat) : List (BitVec 8) :=
  slotOf [(0, 1), (1, job), (2, 2), (8, elems), (12, 1), (13, 1), (14, 2), (16, 101), (20, 103), (32, 7), (40, 2 ^ 45 + 111 * 16384), (48, 2 ^ 45 + 112 * 16384)]
def cmdClose : List (BitVec 8) := slotOf [(0, 2), (1, 5)]
def redJob5 (run : RedRun) (f : RedJob → RedJob) : RedJob := f ⟨0, 1, cmdOpen 5 32, 100 * 16384, run, [], 0, [], 0, 0, [], [], [], none⟩
def sRed (slot : List (BitVec 8)) (jobs : List RedJob) : State := { sSess with
  mem := mem1.write 100 0 slot, red := { Reduce.reset with rings := [⟨1, 100, 256, 0⟩], jobs := jobs } }
def bucket0 : RedBucket := ⟨0, false, false, false, [], [], [], [], []⟩
/-- A frame of chip 1 in partition 1, and one of chip 8 over rail 0. -/
def rx1 (opw : Nat) (payload : List (BitVec 8)) : RxFrame := { clearf 1 (BitVec.ofNat 64 opw) payload with fid := 1 }
def rx8 (opw : Nat) : RxFrame := { rx1 opw [] with link := 28, src := 8 }
/-- Job 6 over chips 0 and 8, two rows of one. -/
def sFab (jobs : List RedJob) : State :=
  let s := withSession0 { session1 with charter := some { charter1 with rings := [⟨6, 1, 0, 1, 2, [0, 8]⟩] } } (sRed cmdClose jobs)
  { s with net := { s.net with links := s.net.links ++ [(28, { linkUp with peer := 0xFFFF })], paths := s.net.paths ++ [{ path1 1 with peer := 8 }] } }
def job6 (f : RedJob → RedJob) : RedJob := redJob5 .active (fun j => f { j with cmd := cmdOpen 6 32 })

theorem witness_Reductions :
    (let s := sRed (cmdOpen 5 32) []; let u := (s.redSlot 1).1.redConsume 1; let c := cmdOpen 5 32
     s.halt = none ∧ (s.redSlot 1).2 = some (100 * 16384, c) ∧ leNat (c.take 1) = 1 ∧ State.redOpenBad c = false ∧ u.redFlagBad 1 c = false ∧ (u.ringPos 1 5).isSome = true ∧
     u.redJob 1 5 = none ∧ (List.range 32).find? (fun t => (u.redEntry t).isNone) = some 0 ∧ u.red.early = []) ∧
    (∀ j ∈ [redJob5 .idle id, redJob5 .failed id], let s := sRed cmdClose [j]; let c := cmdClose
     (s.redSlot 1).2 = some (100 * 16384, c) ∧ leNat (c.take 1) = 2 ∧ leNat ((c.drop 2).take 2) = 0 ∧ leNat ((c.drop 8).take 40) = 0 ∧
     ((s.redSlot 1).1.redConsume 1).redJob 1 5 = some j) ∧
    (let j := redJob5 .opening id; let s := sRed cmdClose [j]; let f := rx1 (5 + State.redDigest j.cmd * 2 ^ 8) []
     takes s f 0x20 = true ∧ (((s.passed f 0x20).ringPos 1 5).map RingPos.neighbours) = some [1] ∧ (s.passed f 0x20).red.jobs = [j] ∧
     bitsNat f.opw.toNat 63 8 = State.redDigest j.cmd ∧ bitsNat f.opw.toNat 7 0 = 5 ∧ ((sRed cmdClose []).passed f 0x20).redJob 1 5 = none ∧
     takes (sRed cmdClose []) f 0x20 = true) ∧
    (let j := redJob5 .closing (fun j => { j with closeOff := some 64 }); j.closeOff = some 64 ∧ j.flight = [] ∧ State.redOpenBad (slotOf [(0, 1), (1, 5)]) = true) ∧
    (let j := redJob5 .idle (fun j => { j with landed := [(0, 64)] }); let s := sRed cmdClose [j]
     (s.ringPos 1 5).map RingPos.cols = some 2 ∧ s.ckpt.atRest.toNat.testBit 1 = false ∧ j.started < j.buckets ∧ j.landedOf 0 = 2 * j.bucketSize 0 ∧ j.flight.length < j.inflight ∧ j.early = []) ∧
    (let j := redJob5 .active (fun j => { j with flight := [{ bucket0 with done := [0] }], started := 1 })
     j.blocks 0 ≤ 1 ∧ 0 + 1 = j.buckets ∧ j.complete = 0 ∧ (let k := { j with cmd := cmdOpen 5 600000, flight := [{ bucket0 with done := List.range 16384 }] }
     k.blocks 0 ≤ 16384 ∧ 0 + 1 < k.buckets)) ∧
    (let s := sFab [job6 id]; let f := rx8 (6 + 1 * 2 ^ 8)
     takes s f 0x21 = true ∧ (s.ringPos 1 6).map (fun r => (r.rows, r.fabSucc)) = some (2, 8) ∧ (job6 id).job = bitsNat f.opw.toNat 7 0 ∧
     bitsNat f.opw.toNat 9 8 = 1 ∧ 0 < (job6 id).buckets ∧ bitsNat f.opw.toNat 33 26 = (job6 id).roundOf 0 % 256 ∧ (job6 id).bucket 0 = none) ∧
    (let j := redJob5 .active (fun j => { j with flight := [bucket0], started := 1 }); let s := sRed cmdClose [j]; let f := rx1 (5 + 3 * 2 ^ 8 + 2 ^ 46) (List.replicate 256 0x40)
     let r1 := (s.ringPos 1 5).getD ⟨0, 0, 0, 0, [], 0⟩
     takes s f 0x22 = true ∧ takes s f 0x23 = true ∧ unkeyed f.link 0x22 = false ∧ f.payload.length = 256 ∧ r1.segOf (j.blocks 0) 0 ≠ r1.c ∧ (s.ringPos 1 5).map (fun r => (r.cols, r.groupPred)) = some (2, 1) ∧ bitsNat f.opw.toNat 9 8 = 3 ∧
     bitsNat f.opw.toNat 52 46 = 1 ∧ f.opw.toNat.testBit 53 = false ∧ bitsNat f.opw.toNat 61 54 = j.roundOf 0 % 256 ∧ 0 < j.blocks 0 ∧ j.wire = 2 ∧ j.result = 0 ∧
     ((State.onRed (s.passed f 0x22) (fun q => { q with jobs := [{ j with flight := [{ bucket0 with seen := [(3, 0)] }] }] })).engineWrite 1 (j.resultOff + 2 * (0 * j.bucketElems + 32 * 0)) (List.replicate 64 0x40)).2 = some true) := by
  refine ⟨?_, ?_, ?_, ?_, ?_, ?_, ?_, ?_⟩ <;> decide +kernel

/-- TEST_HOP in 16-bit form on page 6 of partition 0. -/
def cmdHop : List (BitVec 8) := slotOf [(0, 3), (2, 1), (10, 4), (12, 1), (16, 6), (20, 6), (24, 6), (28, 32), (32, 9), (48, 5 * 16384)]
def sHop (s : State) : State := { s with
  mem := (mapPage 0 6 8 s.mem).write 7 0 cmdHop, red := { Reduce.reset with rings := [⟨0, 5, 256, 0⟩] } }

theorem witness_TestHopAdds :
    (let s := sHop sNet; let u := (s.redSlot 0).1.redConsume 0; let c := cmdHop; let f := fun o n => leNat ((c.drop o).take n)
     s.halt = none ∧ (s.redSlot 0).2 = some (5 * 16384, c) ∧ f 0 1 = 3 ∧ (s.redSlot 0).1.sessionsHeld = false ∧ f 1 1 = 0 ∧ f 2 2 ≤ 1023 ∧ f 8 1 ≤ 1 ∧ f 9 1 = 0 ∧ 1 ≤ f 12 1 ∧ f 12 1 ≤ 64 ∧
     f 13 3 = 0 ∧ f 32 8 < 2 ^ 48 ∧ f 40 8 = 0 ∧ u.sessionsHeld = false ∧
     (gotBytes ((s.redSlot 0).1.engineReads none 0 [(f 16 4 * pageSize, pageSize), (f 20 4 * pageSize, pageSize)])).any (fun x => decide (x.2.length = 2 * pageSize)) = true) ∧
    (let s := sHop sSess; (s.redSlot 0).2 = some (5 * 16384, cmdHop) ∧ ((s.redSlot 0).1.redConsume 0).sessionsHeld = true) := by
  refine ⟨?_, ?_⟩ <;> decide +kernel
/-! Witnesses: checkpoint and restore. -/

/-- A session over this chip alone, and over chips 0 and 1. -/
def charterS : Charter := { charter1 with chips := [0], digests := [dig 0], rings := [⟨5, 1, 0, 1, 1, [0]⟩] }
def cfg1 (settle : Nat) : CkptCfg := ⟨1, false, 5, 2, 109, settle, 2, 9, 60⟩
def ckpt0 (run : CkptRun) (f : CkptSess → CkptSess) : CkptSess := f { CkptSess.off with cfg := some (cfg1 0), run := run }
def sCk (c : Charter) (k : CkptSess) (m : Memory) : State := { withSession0 { session1 with charter := some c } sSess with
  mem := m, ckpt := { Ckpt.reset with sess := [(0, k)], rings := [⟨1, 100, 256, 0⟩] } }
def slotConfig : List (BitVec 8) := slotOf [(0, 1), (2, 5), (3, 2), (8, 109), (14, 2), (16, 9), (20, 60)]
def sConfig (slot : List (BitVec 8)) : State := sCk charterS CkptSess.off (mem1.write 100 0 slot)
/-- The command ring after its slot has been taken. -/
def configTaken (s : State) : State := let t := (s.ckptSlot 1).1; { t with ckpt := { t.ckpt with rings := [⟨1, 100, 256, 1⟩] } }

/-- The set is page 119; its area pages are 131 and 132. -/
def graphS : WorkGraph := { graph1 with tensors := [⟨119, 1, 3, true, 1⟩] }
def memArea (dirty : Bool) : Memory :=
  ((mapPage 1 0x39000000 132 (mapPage 1 0x38000000 131 mem1)).onRecord 131 (fun x => { x with state := 3 })).onRecord 119 (fun x => { x with dirty := dirty })
def sSnap (k : CkptSess) (ended dirty : Bool) : State := { sCk charterS k (memArea dirty) with
  crown := { Crown.reset with parts := [(1, { CrownPart.none with wg := some graphS, begun := true, groups := [(0, 0)], placed := [⟨0, 0, ended⟩] })] } }
/-- A CONFIG whose control tensor the work graph declares, with every region held down. -/
def sNoRoom : State := { sConfig slotConfig with
  boot := { Boot.reset with held := BitVec.allOnes 16 }
  crown := { Crown.reset with parts := [(1, { CrownPart.none with wg := some { graphS with tensors := [⟨109, 2, 3, true, 1⟩] } })] } }
/-- Its areas reserved. -/
def reserved (s : State) : State := (s.reserve 0 1 (s.buddyPages 0)).finish s

theorem witness_CheckpointTaken :
    (let s := sConfig slotConfig; let b := slotConfig; let u := configTaken s
     s.halt = none ∧ (s.ckptSlot 1).2 = some (100 * 16384, b) ∧ (s.ckptSlot 1).1.ckpt.rings = [⟨1, 100, 256, 0⟩] ∧ State.configOk b = true ∧ (u.ckptSess 0).cfg = none ∧
     u.leadPart 0 = some 1 ∧ u.controlTensor 1 (field_ b 8 4) = true ∧ ¬ 1 < charterS.chips.length ∧ u.partsOf 0 = [1] ∧ (u.reserve 0 1 0).good = true ∧
     (u.reserve 0 1 0).st.pagesHeld 1 ≤ ((u.partDecl 1).map PartDecl.quotaPages).getD 0) ∧
    (State.configOk (slotOf [(0, 1)]) = false ∧ ((sConfig (slotOf [(0, 1)])).ckptSlot 1).2 = some (100 * 16384, slotOf [(0, 1)])) ∧
    (let u := configTaken sNoRoom
     (sNoRoom.ckptSlot 1).2 = some (100 * 16384, slotConfig) ∧ (u.ckptSess 0).cfg = none ∧ u.leadPart 0 = some 1 ∧ u.controlTensor 1 109 = true ∧ (u.reserve 0 1 0).good = false) ∧
    (let k := ckpt0 .idle id; let x : Placed := ⟨0, 0, true⟩
     ∀ e ∈ [true, false], let s := sSnap k e false
     s.partsOf 0 = [1] ∧ (s.crownPart 1).begun = true ∧ (s.crownPart 1).held = false ∧ (s.crownPart 1).placed = [{ x with ended := e }] ∧ (s.crownPart 1).step = k.plan.next ∧
     k.run = .idle ∧ k.taken ≠ some k.plan.next ∧ ∀ j ∈ s.red.jobs, (s.part j.part).session = 0 → j.run = .idle) ∧
    (∀ dirty ∈ [true, false], let s := sSnap (ckpt0 .quiescing id) true dirty; let u := reserved s
     (s.ckptSess 0).run = .quiescing ∧ s.atRestNow 0 = true ∧ (s.ckptSess 0).copied = [] ∧ (s.reserve 0 1 (s.buddyPages 0)).good = true ∧
     u.areaPages 0 0 = [(1, 0x38000000, 119)] ∧ u.mapped 1 119 = some 119 ∧ (u.mem.record 119).dirty = dirty ∧ 119 ∉ u.ckpt.last) ∧
    (let u := reserved (sSnap (ckpt0 .quiescing id) true true)
     u.mapped 1 0x38000000 = some 131 ∧ (u.mem.record 131).state.toNat = prtPinned ∧ (u.readWhole .ld 119).2 = true ∧
     ((u.readWhole .ld 119).1.enginePage 131 ((u.readWhole .ld 119).1.newestKgen 1) ((u.readWhole .ld 119).1.mem.read 119 0 16384)).2 = true) ∧
    (let s := { sSnap (ckpt0 .quiescing id) true true with clock := { FabTime.reset with now := 1000000 } }
     (s.ckptSess 0).since + 1000000 ≤ s.clock.now ∧ (ckpt0 .copying id).run = .copying) ∧
    ({ sSnap (ckpt0 .quiescing id) true true with cores := [(0, { runCore with mover := [mv 0xC1 0 1 0 0 64], spec := { Special.reset with part := 1 } })] } : State).atRestNow 0 =
      false := by
  refine ⟨?_, ?_, ?_, ?_, ?_, ?_, ?_, ?_⟩ <;> decide +kernel

/-- The header page of an image of generation 2, from the chip at (0, 1), of one page. -/
def imagePage : List (BitVec 8) :=
  [0x43, 0x4B, 0x49, 0x4D] ++ leBytes 2 0x0100 ++ leBytes 2 0 ++ leBytes 1 1 ++ List.replicate 7 0 ++ List.replicate 16 9 ++ leBytes 4 2 ++ leBytes 8 0 ++ leBytes 4 1
def sImage (landed : List (Nat × Nat)) : State := sCk charter1 (ckpt0 .idle (fun k => { k with landed := landed }))
  ((mapPage 1 (buddyVp 0 + 1) 134 (mapPage 1 (buddyVp 0) 133 mem1)).write 133 0 imagePage)
/-- A plan record, a restore record, or a word in the control tensor. -/
def planPage (n next : Nat) : List (BitVec 8) := CkptPlan.bytes ⟨n, 0, next, 2, 0, 0, 0⟩
def sPlan (k : CkptSess) (off : Nat) (bs : List (BitVec 8)) : State := sCk charterS k (mem1.write 109 off bs)
def regWide : Registration := { reg7 with wide := true }
def record1 (gen : Nat) : CkptRecord := ⟨gen, 5, 0, [], [], [], [], [], [], [], [], [], [], [], []⟩
/-- Reads of the control tensor. -/
def ctlOf (s : State) (off n : Nat) : Option (State × List (BitVec 8)) := gotBytes (s.engineReads none 1 (State.pageParts (109 * 16384 + off) n))
def drained2 (run : CkptRun) : CkptSess :=
  ckpt0 run (fun k => { k with begun := 2, taken := some 0, pause := 30, mean := ⟨60 * 10 ^ 9, 0⟩, tau := ⟨10 ^ 9, 0⟩, even := some (record1 2) })
/-- Two members, whose drains have been reported with a pause of 30 µs each, or have not. -/
def sReports (word : Nat) : State := sCk charter1 (drained2 .draining) (mem1.write 109 (512 + 16) (leBytes 8 word))
/-- A member that has its restored image, and one that holds a work graph at the restored step. -/
def sResume : State := sPlan (ckpt0 .restoring (fun k => { k with target := some (3, 7), phase := .reported })) 0 (planPage 3 4)
def sResumeRun : State :=
  { activeRegion0 sResume with mem := memRing.write 109 0 (planPage 3 4), crown := { Crown.reset with parts := [(1, { (sStep 0 true none).crownPart 1 with step := 7 })] } }

theorem witness_CheckpointCommitted :
    ((ckpt0 .draining id).owed = 0 ∧ (ckpt0 .draining id).run = .draining ∧ (ckpt0 .idle id).run ≠ .draining) ∧
    (let s := sImage [(0, 0), (0, 1), (0, 2), (0, 3)]; let b := imagePage
     s.halt = none ∧ (s.ckptSess 0).cfg = some (cfg1 0) ∧ (s.ckptPos 0 s.chip).map State.CkptPos.partner = some 1 ∧
     (gotBytes (s.engineReads none 1 (State.pageParts (buddyVp 0 * pageSize) pageSize))).any (fun x => decide (x.2.length = pageSize ∧ x.2.take 48 = b ∧ recordPage x.2 = 1) &&
       (gotBytes (x.1.engineReads none 1 (State.pageParts (buddyVp 0 * pageSize + 1 * pageSize) 4))).any (fun y => decide (y.2.length = 4))) = true ∧
     b.take 4 = [0x43, 0x4B, 0x49, 0x4D] ∧ field_ b 4 2 = 0x0100 ∧ (s.ckptPos 0 1).map State.CkptPos.g = some (field_ b 6 2) ∧
     (s.ckptPos 0 1).map State.CkptPos.c = some (field_ b 8 1) ∧ (b.drop 16).take 16 = ((s.session 0).charter.map Charter.sessionId).getD [] ∧ field_ b 32 4 % 2 = 0 ∧
     field_ b 44 4 = 1 ∧ (∀ q, q < 4 → (0, q) ∈ (s.ckptSess 0).landed) ∧ s.coordinator 0 = some 0) ∧
    (let s := sPlan (drained2 .draining) 0 []; let k := s.ckptSess 0
     k.cfg = some (cfg1 0) ∧ (cfg1 0).tMin ≤ (cfg1 0).tMax ∧ s.coordinator 0 = some s.chip ∧ k.plan.n ≠ k.begun ∧ k.begun ≠ 0 ∧ (s.ckptMembers 0).length = 1 ∧ k.run = .draining ∧
     k.wrote ≤ k.rseq ∧ k.even.map CkptRecord.gen = some k.begun ∧ (ctlOf s (512 + 8 * (2 % 64)) 8).any (fun x => decide (x.2.length = 8)) = true) ∧
    (∀ w ∈ [0, 2 + 60 * 2 ^ 20], let s := sReports w; let k := s.ckptSess 0
     s.coordinator 0 = some s.chip ∧ k.plan.n ≠ k.begun ∧ (s.ckptMembers 0).length = 2 ∧ k.even.map CkptRecord.gen = some k.begun ∧
     (ctlOf s (512 + 8 * (2 % 64)) 8).any (fun x => decide (x.2 = leBytes 8 w)) = true) ∧
    ((ckpt0 .idle id).begun = 0 ∧ leNat (leBytes 8 (2 + 60 * 2 ^ 20)) % 2 ^ 20 = 2) ∧
    (let s := sPlan (ckpt0 .idle id) 0 (planPage 3 4)
     (ctlOf s 0 64).any (fun x => decide (x.2.length = 64 ∧ planFrom x.2 = ⟨3, 0, 4, 2, 0, 0, 0⟩ ∧ (x.1.crownPart 1).step ≤ 4)) = true) ∧
    (let s := { sPlan (ckpt0 .idle id) 0 (planPage 3 4) with crown := (sStep 0 true none).crown }
     (ctlOf s 0 64).any (fun x => decide (x.2.length = 64 ∧ (planFrom x.2).n ≠ 0 ∧ (planFrom x.2).next < (x.1.crownPart 1).step)) = true) ∧
    ((ctlOf sResume 0 64).any (fun x => let k := x.1.ckptSess 0; decide (x.2.length = 64 ∧ k.run = .restoring ∧ k.target = some (3, 7) ∧ k.phase = .reported ∧
       (planFrom x.2).n = 3 ∧ k.cfg = some (cfg1 0) ∧ x.1.partsOf 0 = [1]) && (x.1.crownPart 1).wg.isNone) = true ∧ (cfg1 0).settle = 0) ∧
    ((ctlOf sResumeRun 0 64).any (fun y =>
       let x := ((y.1.onCkpt 0 (fun k => { k with plan := planFrom y.2 })).onCkpt 0 (fun k => { k with phase := .resuming, settleLeft := 0, taken := some 7 }))
       let placed := x.placeStreams 1 (graph1.variants.getD 0 []) [(0, 0)]
       decide ((planFrom y.2).n = 3 ∧ (x.crownPart 1).wg = some graph1 ∧ (x.crownPart 1).held = false ∧ (x.crownPart 1).step = 7 ∧ x.partsOf 0 = [1]) &&
       (x.chooseVariant 1 graph1 == some (0, [(0, 0)], true)) && (x.awake (placed.map (fun y => y.core / 32))).2 && placed == [⟨0, 0, false⟩] &&
       (runsOf x [(3000 * pageSize, 7 * 64)]).isSome) = true) ∧
    (let s := { sPlan { ckpt0 .idle id with cfg := some (cfg1 4) } 0 [] with regions := [(0, { (sSess.region 0) with ue := { (sSess.region 0).ue with table := [regWide] } })] }
     0 < (cfg1 4).settle ∧ (s.ckptSess 0).settleLeft = 0 ∧ ∃ t ∈ s.allRegs, t.part ∈ s.partsOf 0 ∧ t.wide = true) := by
  refine ⟨?_, ?_, ?_, ?_, ?_, ?_, ?_, ?_, ?_, ?_⟩ <;> decide +kernel

def sAsk (k : CkptSess) : State := sPlan k 1024 (leBytes 8 1)
/-- Two members, chip 1 of them absent, and no spare. -/
def sGone (k : CkptSess) : State := let s := sCk charter1 k (mem1.write 109 1024 (leBytes 8 1)); { s with net := { s.net with absent := 2 } }
def kReported : CkptSess := ckpt0 .restoring (fun k => { k with phase := .reported, target := some (2, 5), rseq := 1 })

theorem witness_Restores :
    (let s := sPlan (ckpt0 .idle id) 0 []; let k := s.ckptSess 0
     s.halt = none ∧ k.cfg = some (cfg1 0) ∧ (s.session 0).charter = some charterS ∧
     (ctlOf s 1024 8).any (fun x => decide (x.2.length = 8 ∧ leNat x.2 = (x.1.ckptSess 0).absorbed ∧ x.1.coordinator 0 = some x.1.chip ∧
       (x.1.ckptMembers 0).filter (fun m => x.1.chipAbsent m) = [])) = true ∧ k.target.isNone = true) ∧
    (let s := sAsk (ckpt0 .idle (fun k => { k with plan := { k.plan with n := 2 }, even := some (record1 2), odd := some (record1 3) }))
     (ctlOf s 1024 8).any (fun x => let k := x.1.ckptSess 0; decide (x.2.length = 8 ∧ leNat x.2 ≠ k.absorbed ∧ k.target = none ∧ k.wrote ≤ k.rseq ∧ k.plan.n = 2 ∧
       (x.1.ckptMembers 0).filter (fun m => x.1.chipAbsent m) = []) && (State.ckptRecordOf k (2 - 1)).isNone) = true ∧ (ckpt0 .idle id).plan.n = 0) ∧
    (let s := sGone (ckpt0 .idle (fun k => { k with plan := { k.plan with n := 2 } }))
     (ctlOf s 1024 8).any (fun x => decide (((x.1.ckptMembers 0).filter (fun m => x.1.chipAbsent m)).length = 1 ∧
       (charter1.chips.filter (fun m => !(x.1.ckptMembers 0).contains m && !x.1.chipAbsent m)).length = 0 ∧ x.1.coordinator 0 = some x.1.chip)) = true) ∧
    (let s := sPlan (ckpt0 .idle id) 64 (restoreBytes 2 5 1 []).1
     (ctlOf s 64 320).any (fun x => decide (x.2.length = 320 ∧ field_ x.2 14 4 = 1 ∧ field_ x.2 0 4 = 2 ∧ (x.1.ckptSess 0).rseq = 0)) = true ∧
     (ctlOf (sPlan (ckpt0 .idle id) 0 []) 64 320).any (fun x => decide (x.2.length = 320 ∧ field_ x.2 14 4 = 0)) = true ∧
     (ctlOf (sPlan kReported 64 (restoreBytes 2 5 1 []).1) 64 320).any (fun x => decide (field_ x.2 14 4 = 1 ∧ (x.1.ckptSess 0).rseq = 1)) = true) ∧
    ((sPlan (ckpt0 .idle id) 0 []).imageSource 0 = none) ∧
    (let both := fun (s : State) => gotBytes (s.engineReads none 1 (State.pageParts (109 * 16384 + (1040 + 8 * (1 % 16))) 8 ++ State.pageParts (109 * 16384 + 1024) 8))
     (sPlan kReported 0 []).coordinator 0 = some (sPlan kReported 0 []).chip ∧
     (both (sPlan kReported 0 [])).any (fun x => decide (x.2.length = 16 ∧ leNat (x.2.take 8) < (x.1.ckptMembers 0).length)) = true ∧
     (both (sPlan kReported (1040 + 8) (leBytes 8 1))).any (fun x => decide (x.2.length = 16 ∧ (x.1.ckptMembers 0).length ≤ leNat (x.2.take 8))) = true) := by
  refine ⟨?_, ?_, ?_, ?_, ?_, ?_⟩ <;> decide +kernel

/-! The image of a record, sealed and fetched. -/

/-- Pages that have come of another chip's buddy slot, and the reads that take them. -/
def ready (chip part : Nat) : List (List (BitVec 8)) → Nat → List EngFetch
  | [], _ => []
  | p :: ps, vp => ⟨part, vp, 0, 256, chip, 0, p, 0⟩ :: ready chip part ps (vp + 1)
def readsOf : List (List (BitVec 8)) → Nat → List (Nat × Nat)
  | [], _ => []
  | _ :: ps, vp => (vp * pageSize, pageSize) :: readsOf ps (vp + 1)

theorem fetchReads_ready (chip part : Nat) : ∀ (pages : List (List (BitVec 8))) (vp : Nat) (rest : List EngFetch) (s : State),
    s.mem.fetched = ready chip part pages vp ++ rest → (∀ p ∈ pages, p.length ≤ pageSize) →
    s.fetchReads chip part (readsOf pages vp) = .got (s.onMem (fun m => { m with fetched := rest })) pages.flatten
  | [], vp, rest, s, h, _ => by
    have e : s.onMem (fun m => { m with fetched := rest }) = s := by
      have : s.mem.fetched = rest := h
      rw [← this]; rfl
    simp only [readsOf, State.fetchReads, List.flatten_nil, e]
  | p :: ps, vp, rest, s, h, hl => by
    have hp : p.length ≤ pageSize := hl p (List.mem_cons_self ..)
    have a1 : vp * pageSize / pageSize = vp := Nat.mul_div_cancel _ (by decide)
    have a2 : vp * pageSize % pageSize = 0 := Nat.mul_mod_left _ _
    have a3 : vp * pageSize % 64 = 0 := by unfold pageSize; omega
    have f : s.fetchOf chip part vp 0 256 = some ⟨part, vp, 0, 256, chip, 0, p, 0⟩ := by
      rw [State.fetchOf, h]; simp [ready]
    have d : s.mem.fetched.erase ⟨part, vp, 0, 256, chip, 0, p, 0⟩ = ready chip part ps (vp + 1) ++ rest := by
      rw [h, ready, List.cons_append, List.erase_cons_head]
    have g : s.fetchGet chip part vp 0 256 (vp * pageSize) (vp * pageSize) pageSize false =
        .got (s.onMem (fun m => { m with fetched := ready chip part ps (vp + 1) ++ rest })) p := by
      simp only [State.fetchGet, f, ne_eq, not_true_eq_false, if_false, if_true, a3, List.drop_zero]
      rw [List.take_of_length_le hp, ← d]; rfl
    have n : (0 + pageSize + 63) / 64 - 0 / 64 = 256 := by decide
    have z : 0 / 64 = 0 := rfl
    simp only [readsOf, State.fetchReads, a1, a2, n, z, g]
    rw [fetchReads_ready chip part ps (vp + 1) rest _ rfl (fun q hq => hl q (List.mem_cons_of_mem _ hq))]
    rfl

/-- Pages cut off the front of a list of strings of one length. -/
theorem drop_flatten (n : Nat) : ∀ (k : Nat) (ps : List (List (BitVec 8))) (z : List (BitVec 8)), (∀ p ∈ ps, p.length = n) → k ≤ ps.length →
    (ps.flatten ++ z).drop (n * k) = (ps.drop k).flatten ++ z
  | 0, _, _, _, _ => rfl
  | k + 1, [], _, _, hk => absurd hk (by simp)
  | k + 1, p :: ps, z, h, hk => by
    have hp : p.length = n := h p (List.mem_cons_self ..)
    rw [List.flatten_cons, List.append_assoc, Nat.mul_succ, Nat.add_comm, ← List.drop_drop]
    conv => lhs; arg 2; rw [← hp]
    rw [List.drop_left, drop_flatten n k ps z (fun q hq => h q (List.mem_cons_of_mem _ hq)) (by simpa using hk)]; rfl

theorem page_flatten (n k : Nat) (ps : List (List (BitVec 8))) (z : List (BitVec 8)) (h : ∀ p ∈ ps, p.length = n) (hk : k < ps.length) :
    ((ps.flatten ++ z).drop (n * k)).take n = ps[k] := by
  rw [drop_flatten n k ps z h (Nat.le_of_lt hk), List.drop_eq_getElem_cons hk, List.flatten_cons, List.append_assoc]
  conv => lhs; arg 1; rw [← h _ (List.getElem_mem hk)]
  exact List.take_left

theorem length_flatten_pages (n : Nat) : ∀ ps : List (List (BitVec 8)), (∀ p ∈ ps, p.length = n) → ps.flatten.length = ps.length * n
  | [], _ => by simp
  | p :: ps, h => by
    rw [List.flatten_cons, List.length_append, length_flatten_pages n ps (fun q hq => h q (List.mem_cons_of_mem _ hq)), h p (List.mem_cons_self ..), List.length_cons]
    rw [Nat.succ_mul, Nat.add_comm]

theorem pagesOf_flatten (ps : List (List (BitVec 8))) (h : ∀ p ∈ ps, p.length = pageSize) : pagesOf ps.flatten = ps := by
  have c : ceilDiv ps.flatten.length pageSize = ps.length := by
    rw [length_flatten_pages pageSize ps h]; unfold ceilDiv pageSize; omega
  rw [pagesOf, c]
  refine List.ext_getElem (by simp) (fun i h1 h2 => ?_)
  have := page_flatten pageSize i ps [] h h2
  simp only [List.append_nil] at this
  simp only [List.getElem_map, List.getElem_range, Nat.mul_comm i]; exact this

/-- Pages sealed from number `k` on under a key (R616). -/
def sealFrom (ck aad : List (BitVec 8)) (n place : Nat) : Nat → List (List (BitVec 8)) → List (List (BitVec 8) × List (BitVec 8))
  | _, [] => []
  | k, p :: ps => sealPage ck (imageIv n (k + 1) place) aad (if k + 1 = 1 then 4 else 0) p :: sealFrom ck aad n place (k + 1) ps

theorem openPages_sealFrom (ck aad : List (BitVec 8)) (n place : Nat) (h : 32 ≤ ck.length) (texts : List (List (BitVec 8))) (hl : ∀ p ∈ texts, 4 ≤ p.length) :
    openPages ck aad n place 0 ((sealFrom ck aad n place 0 texts).map Prod.fst) ((sealFrom ck aad n place 0 texts).map Prod.snd) = some texts := by
  have z : ∀ xs : List (List (BitVec 8) × List (BitVec 8)), (xs.map Prod.fst).zip (xs.map Prod.snd) = xs := by
    intro xs; rw [List.zip_map', List.map_id'']; intro x; rfl
  have fold : ∀ (ts : List (List (BitVec 8))) (k : Nat) (acc : List (List (BitVec 8))), (∀ p ∈ ts, 4 ≤ p.length) →
      ((sealFrom ck aad n place k ts).zipIdx k).foldl (fun acc x => acc.bind (fun ps =>
        let j := x.2 + 1
        let clear := if j = 0 + 1 then 4 else 0
        let ct := x.1.1.drop clear
        if gcmTag ck (imageIv n j place) aad ct = x.1.2 then some (ps ++ [x.1.1.take clear ++ gcmText ck (imageIv n j place) ct]) else none)) (some acc) =
      some (acc ++ ts) := by
    intro ts
    induction ts with
    | nil => intro k acc _; simp [sealFrom]
    | cons p ps ih =>
      intro k acc hp
      have l : (p.take (if k + 1 = 1 then 4 else 0)).length = if k + 1 = 1 then 4 else 0 := by
        have := hp p (List.mem_cons_self ..)
        rw [List.length_take]; split <;> omega
      simp only [sealFrom, List.zipIdx_cons, List.foldl_cons, sealPage, Option.bind_some, Nat.zero_add]
      generalize hc : (if k + 1 = 1 then 4 else 0 : Nat) = c at l ⊢
      rw [List.drop_left' l, List.take_left' l, if_pos rfl, gcmText_gcmText _ _ _ h, List.take_append_drop,
        ih (k + 1) (acc ++ [p]) (fun q hq => hp q (List.mem_cons_of_mem _ hq))]
      simp
  simpa [openPages, z] using fold texts 0 [] hl

/-- The key of generation 2, its record, and the image: a header, four sealed pages, and the page of their tags. -/
def ckImg : List (BitVec 8) := List.replicate 32 1
def headImg : List (BitVec 8) :=
  ([0x43, 0x4B, 0x49, 0x4D] ++ leBytes 2 0x0100 ++ leBytes 2 0 ++ leBytes 1 0 ++ List.replicate 7 0 ++ List.replicate 16 9 ++ leBytes 4 2 ++ leBytes 8 0 ++ leBytes 4 6) ++
  List.replicate (pageSize - 48) 0
def textsImg : List (List (BitVec 8)) := pagesOf (recordBytes (record1 2))
def sealedImg : List (List (BitVec 8) × List (BitVec 8)) := sealFrom ckImg (sha384 headImg) 2 0 0 textsImg
def tagsImg : List (BitVec 8) := (sealedImg.map Prod.snd).flatten ++ List.replicate (pageSize - 64) 0
def pagesImg (tags : List (BitVec 8)) : List (List (BitVec 8)) := headImg :: (sealedImg.map Prod.fst ++ [tags])
/-- Chip 0 restores generation 2, the pages of its image have come from chip 1. -/
def sFetched (fs : List EngFetch) : State :=
  let s := sCk charter1 (ckpt0 .restoring (fun k => { k with phase := .image, target := some (2, 5), rseq := 1, cks := [(2, ckImg)] })) mem1
  { s with mem := { s.mem with fetched := fs } }
def sImg (tags : List (BitVec 8)) : State := sFetched (ready 1 1 (pagesImg tags) (buddyVp 0))

theorem headImg_length : headImg.length = pageSize := by
  unfold headImg; rw [List.length_append, List.length_replicate]; rfl

theorem textsImg_pages : (∀ p ∈ textsImg, p.length = pageSize) ∧ textsImg.length = 4 ∧ textsImg.flatten = recordBytes (record1 2) := by
  have l : (recordBytes (record1 2)).length = 4 * pageSize := by
    rw [recordBytes, List.length_append, List.length_map, List.length_range]; rfl
  generalize hb : recordBytes (record1 2) = b at l
  have e : textsImg = [b.take pageSize, (b.drop (1 * pageSize)).take pageSize, (b.drop (2 * pageSize)).take pageSize, (b.drop (3 * pageSize)).take pageSize] := by
    have c : ceilDiv (4 * pageSize) pageSize = 4 := by decide
    rw [textsImg, hb, pagesOf, l, c]
    simp [List.range_succ]
  refine ⟨fun p hp => ?_, by rw [e]; rfl, ?_⟩
  · rw [e] at hp
    simp only [List.mem_cons, List.not_mem_nil, or_false] at hp
    rcases hp with rfl | rfl | rfl | rfl <;> simp only [List.length_take, List.length_drop, l] <;> decide
  · rw [e]
    simp only [List.flatten_cons, List.flatten_nil, List.append_nil]
    have s3 : (b.drop (3 * pageSize)).take pageSize = b.drop (3 * pageSize) := List.take_of_length_le (by rw [List.length_drop, l]; decide)
    have j (k : Nat) : (b.drop (k * pageSize)).take pageSize ++ b.drop ((k + 1) * pageSize) = b.drop (k * pageSize) := by
      have := List.take_append_drop pageSize (b.drop (k * pageSize))
      rwa [List.drop_drop, show k * pageSize + pageSize = (k + 1) * pageSize by rw [Nat.succ_mul]] at this
    have := j 0
    simp only [Nat.zero_mul, List.drop_zero, Nat.zero_add] at this
    rw [s3, j 2, j 1, this]

theorem sealFrom_lengths (ck aad : List (BitVec 8)) (n place : Nat) (h : 32 ≤ ck.length) : ∀ (ts : List (List (BitVec 8))) (k : Nat), (∀ p ∈ ts, p.length = pageSize) →
    (sealFrom ck aad n place k ts).length = ts.length ∧ ∀ x ∈ sealFrom ck aad n place k ts, x.1.length = pageSize ∧ x.2.length = 16
  | [], _, _ => ⟨rfl, fun _ hx => absurd hx (List.not_mem_nil)⟩
  | p :: ps, k, hp => by
    have r := sealFrom_lengths ck aad n place h ps (k + 1) (fun q hq => hp q (List.mem_cons_of_mem _ hq))
    refine ⟨by simp only [sealFrom, List.length_cons, r.1], fun x hx => ?_⟩
    rcases List.mem_cons.mp hx with rfl | hx
    · have l := hp p (List.mem_cons_self ..)
      refine ⟨?_, length_gcmTag _ _ _ _ h⟩
      simp only [sealPage, List.length_append, length_gcmText _ _ _ h, List.length_take, List.length_drop, l]
      have : pageSize = 16384 := rfl
      split <;> omega
    · exact r.2 x hx

theorem readsOf_range : ∀ (ps : List (List (BitVec 8))) (vp : Nat), readsOf ps vp = (List.range ps.length).map (fun i => ((vp + i) * pageSize, pageSize))
  | [], _ => rfl
  | p :: ps, vp => by
    rw [readsOf, readsOf_range ps (vp + 1), List.length_cons, List.range_succ_eq_map, List.map_cons, List.map_map, Nat.add_zero]
    refine congrArg _ (List.map_congr_left (fun i _ => ?_))
    simp only [Function.comp_apply, Nat.succ_eq_add_one, Nat.add_assoc, Nat.add_comm 1 i]

theorem sealedImg_lengths : sealedImg.length = 4 ∧ ∀ x ∈ sealedImg, x.1.length = pageSize ∧ x.2.length = 16 := by
  have r := sealFrom_lengths ckImg (sha384 headImg) 2 0 (by decide) textsImg 0 textsImg_pages.1
  exact ⟨r.1.trans textsImg_pages.2.1, r.2⟩

theorem pagesImg_lengths (tags : List (BitVec 8)) (h : tags.length ≤ pageSize) : (pagesImg tags).length = 6 ∧ ∀ p ∈ pagesImg tags, p.length ≤ pageSize := by
  refine ⟨by simp [pagesImg, sealedImg_lengths.1], fun p hp => ?_⟩
  simp only [pagesImg, List.mem_cons, List.mem_append, List.mem_map, List.not_mem_nil, or_false] at hp
  rcases hp with rfl | ⟨x, hx, rfl⟩ | rfl
  · exact Nat.le_of_eq headImg_length
  · exact Nat.le_of_eq (sealedImg_lengths.2 x hx).1
  · exact h

theorem sFetched_regs (fs : List EngFetch) : (sFetched fs).regs = sSess.regs := rfl
theorem sFetched_chip (fs : List EngFetch) : (sFetched fs).chip = sSess.chip := by
  simp only [State.chip, State.regField, State.reg, sFetched_regs]
theorem sImg_chip (tags : List (BitVec 8)) : ¬ ((1, 0, 1) : Nat × Nat × Nat).1 = (sImg tags).chip := by
  rw [sImg, sFetched_chip]; decide +kernel

theorem imageRead_head (tags : List (BitVec 8)) : ∃ u, (sImg tags).imageRead (1, 0, 1) pageSize = .got u headImg := by
  have k : State.pageParts (buddyVp 0 * pageSize) pageSize = readsOf [headImg] (buddyVp 0) := by rw [readsOf_range]; decide
  have c := sImg_chip tags
  have r := fetchReads_ready 1 1 [headImg] (buddyVp 0) (ready 1 1 (sealedImg.map Prod.fst ++ [tags]) (buddyVp 0 + 1)) (sImg tags)
    (by show ready 1 1 (pagesImg tags) (buddyVp 0) = _; simp only [pagesImg, ready, List.cons_append, List.nil_append])
    (fun p hp => by rw [List.mem_singleton.mp hp]; exact Nat.le_of_eq headImg_length)
  rw [List.flatten_singleton] at r
  have e : (sImg tags).imageRead (1, 0, 1) pageSize = (sImg tags).fetchReads 1 1 (readsOf [headImg] (buddyVp 0)) := by
    unfold State.imageRead
    rw [if_neg c, k]
  exact ⟨_, e.trans r⟩

theorem imageRead_all (tags : List (BitVec 8)) (h : tags.length ≤ pageSize) :
    ∃ t, (sImg tags).imageRead (1, 0, 1) (6 * pageSize) = .got t (pagesImg tags).flatten := by
  have l := pagesImg_lengths tags h
  have k : State.pageParts (buddyVp 0 * pageSize) (6 * pageSize) = readsOf (pagesImg tags) (buddyVp 0) := by rw [readsOf_range, l.1]; decide
  have c := sImg_chip tags
  have r := fetchReads_ready 1 1 (pagesImg tags) (buddyVp 0) [] (sImg tags) (List.append_nil _).symm l.2
  have e : (sImg tags).imageRead (1, 0, 1) (6 * pageSize) = (sImg tags).fetchReads 1 1 (readsOf (pagesImg tags) (buddyVp 0)) := by
    unfold State.imageRead
    rw [if_neg c, k]
  exact ⟨_, e.trans r⟩

theorem headImg_fields : field_ headImg 44 4 = 6 ∧ field_ headImg 32 4 = 2 ∧ field_ headImg 6 2 * 8 + field_ headImg 8 1 = 0 ∧ imageSet 6 = some 0 := by decide +kernel

theorem sImg_asks : (State.ckptSess (sImg []) 0).cfg = some (cfg1 0) ∧ (sImg []).imageSource 0 = some (1, 0, 1) ∧ (sImg []).imageNamed 0 headImg = true ∧
    ((sImg []).imageKey 0 headImg).2 = some ckImg ∧ (sImg []).halt = none := by decide +kernel

/-- An image whose tags stand: all that RestoreImageFetched asks of it. -/
theorem witness_Restores_image :
    (∃ u, (sImg tagsImg).imageRead (1, 0, 1) pageSize = .got u headImg) ∧ (∃ t, (sImg tagsImg).imageRead (1, 0, 1) (6 * pageSize) = .got t (pagesImg tagsImg).flatten) ∧
    (let ps := (pagesOf (pagesImg tagsImg).flatten).drop 1
     openPages ckImg (sha384 headImg) 2 0 0 (ps.take 4) ((List.range 4).map (fun j => (((ps.drop 4).flatten).drop (16 * j)).take 16)) = some textsImg) ∧
    ((textsImg.drop 0).take 4).flatten = recordBytes (record1 2) := by
  have tl : ∀ t ∈ sealedImg.map Prod.snd, t.length = 16 := by
    intro t ht; obtain ⟨x, hx, rfl⟩ := List.mem_map.mp ht; exact (sealedImg_lengths.2 x hx).2
  have tn : (sealedImg.map Prod.snd).length = 4 := by rw [List.length_map]; exact sealedImg_lengths.1
  have l : tagsImg.length = pageSize := by
    rw [tagsImg, List.length_append, List.length_replicate, length_flatten_pages 16 _ tl, tn]; decide
  refine ⟨imageRead_head _, imageRead_all _ (Nat.le_of_eq l), ?_, ?_⟩
  · have pl : ∀ p ∈ pagesImg tagsImg, p.length = pageSize := by
      intro p hp
      simp only [pagesImg, List.mem_cons, List.mem_append, List.mem_map, List.not_mem_nil, or_false] at hp
      rcases hp with h | ⟨x, hx, h⟩ | h
      · rw [h]; exact headImg_length
      · rw [← h]; exact (sealedImg_lengths.2 x hx).1
      · rw [h]; exact l
    have fl : (sealedImg.map Prod.fst).length = 4 := by rw [List.length_map]; exact sealedImg_lengths.1
    have e : (pagesOf (pagesImg tagsImg).flatten).drop 1 = sealedImg.map Prod.fst ++ [tagsImg] := by rw [pagesOf_flatten _ pl, pagesImg, List.drop_succ_cons, List.drop_zero]
    have tags : (List.range 4).map (fun j => (tagsImg.drop (16 * j)).take 16) = sealedImg.map Prod.snd := by
      refine List.ext_getElem (by rw [List.length_map, List.length_range, tn]) (fun i h1 h2 => ?_)
      rw [List.getElem_map, List.getElem_range]
      exact page_flatten 16 i _ _ tl h2
    simp only [e]
    rw [List.take_left' fl, List.drop_left' fl, List.flatten_singleton, tags]
    exact openPages_sealFrom ckImg (sha384 headImg) 2 0 (by decide) textsImg (fun p hp => by rw [textsImg_pages.1 p hp]; decide)
  · rw [List.drop_zero, List.take_of_length_le (Nat.le_of_eq textsImg_pages.2.1)]; exact textsImg_pages.2.2

/-- One whose page of tags is missing: no page opens. -/
theorem witness_Restores_forged :
    (∃ u, (sImg []).imageRead (1, 0, 1) pageSize = .got u headImg) ∧ (∃ t, (sImg []).imageRead (1, 0, 1) (6 * pageSize) = .got t (pagesImg []).flatten) ∧
    (let ps := (pagesOf (pagesImg []).flatten).drop 1
     openPages ckImg (sha384 headImg) 2 0 0 (ps.take 4) ((List.range 4).map (fun j => (((ps.drop 4).flatten).drop (16 * j)).take 16)) = none) := by
  refine ⟨imageRead_head _, imageRead_all _ (Nat.zero_le _), ?_⟩
  have f : (pagesImg []).flatten = (headImg :: sealedImg.map Prod.fst).flatten := by
    simp [pagesImg]
  have pl : ∀ p ∈ headImg :: sealedImg.map Prod.fst, p.length = pageSize := by
    intro p hp
    simp only [List.mem_cons, List.mem_map] at hp
    rcases hp with rfl | ⟨x, hx, rfl⟩
    · exact headImg_length
    · exact (sealedImg_lengths.2 x hx).1
  have fl : (sealedImg.map Prod.fst).length = 4 := by rw [List.length_map]; exact sealedImg_lengths.1
  have e : (pagesOf (pagesImg []).flatten).drop 1 = sealedImg.map Prod.fst := by rw [f, pagesOf_flatten _ pl, List.drop_succ_cons, List.drop_zero]
  have ne : ∀ iv aad ct, gcmTag ckImg iv aad ct ≠ [] := by
    intro iv aad ct h
    have := length_gcmTag ckImg iv aad ct (by decide)
    rw [h] at this; cases this
  simp only [e]
  rw [List.take_of_length_le (Nat.le_of_eq fl), List.drop_of_length_le (Nat.le_of_eq fl)]
  clear e f pl
  revert fl
  generalize sealedImg.map Prod.fst = ps
  intro fl
  match ps, fl with
  | [a, b, c, d], _ =>
    generalize sha384 headImg = aad
    simp [openPages, List.range_succ, ne]
/-! Witnesses: management. -/

def onMgmt1 (f : Mgmt → Mgmt) (s : State) : State := { s with mgmt := f { s.mgmt with phyUp := true, addrOk := true, conns := [⟨0, [7], 0, []⟩] } }
/-- Boot done, connection 0 open, a session in force. -/
def sMg : State := onMgmt1 id ({ sSess with boot := { Boot.reset with ready := true } }.setReg (ctl 1 0x10) (BitVec.ofNat 32 (1 + 2 ^ 6 + 2 ^ 7 + 2 ^ 8)))
def sMgR : State := onMgmt1 id sReady

theorem witness_ManagementPort :
    (let m := sMg.mgmt
     m.phyUp = true ∧ m.addrOk = true ∧ ({ sMg with mgmt := { m with conns := [] } } : State).mgmt.conns = [] ∧ sMg.clock.locked = false ∧
     m.conns.any (fun c => c.id = (0 : Fin 4).val) = true ∧ sMg.halt = none) ∧
    ((sMg.session 0).charter = some charter1 ∧ [(1 : BitVec 8)] ∈ charter1.ownerKeys ∧ [(2 : BitVec 8)] ∉ charter1.ownerKeys) ∧
    (let conns : List MgmtConn := [⟨0, [7], 0, []⟩, ⟨1, [7], 0, []⟩, ⟨2, [7], 0, []⟩, ⟨3, [7], 0, []⟩]
     ∀ n, n < 4 → ∃ x ∈ conns, x.id = n) ∧
    (blockOf (BitVec.ofNat 32 (ctl 0x10 0x40) : BitVec 32).toNat < 0x66 ∧ (BitVec.ofNat 32 (ctl 0x10 0x40) : BitVec 32).toNat % 4 = 0 ∧
     ctl 0x10 0x40 ≠ ctl 0xE 8 ∧ ctl 0x10 0x40 + 4 ≠ ctl 0xE 8 ∧ 0x66 ≤ blockOf (BitVec.ofNat 32 (ctl 0x66 0) : BitVec 32).toNat) ∧
    ((onMgmt1 (fun m => { m with conns := [⟨0, [7], 50, []⟩] }) sMg).mgmt.conns = [⟨0, [7], 50, []⟩] ∧ 10 ≤ 50 ∧ 50 ≤ 60000 ∧ 50 % 10 = 0) := by
  refine ⟨?_, ?_, ?_, ?_, ?_⟩ <;> decide +kernel

theorem witness_ManagementSessions :
    (sMgR.halt = none ∧ sMgR.boot.ready = true ∧ (sMgR.reg (ctl 1 0x10)).toNat.testBit 8 = true ∧ sMgR.charterCheck charter0 true true true = none ∧
     sMgR.charterCheck charter0 true false true = some 0x2201 ∧ ((sMgR.setReg (ctl 1 0x10) 1).reg (ctl 1 0x10)).toNat.testBit 8 = false) ∧
    ((sMg.session 0).state ≠ .none ∧ (sMg.session 0).state ≠ .ending ∧ ((withSession0 { session1 with state := .ending } sMg).session 0).state = .ending ∧
     (sMg.rotate 1).2 = 0 ∧ (sMg.rotate 1).1.out = sMg.out) ∧
    (({ sMg with halt := some (0x0801, 8) } : State).halt.isSome = true ∧ ({ sMg with pwr := { sMg.pwr with pins := [(3, { (sMg.pin 3) with accepted := some 5 })] } } : State).pin 3 =
       { (sMg.pin 3) with accepted := some 5 }) ∧
    (∀ t ∈ [100000005, 900000005], let s : State := { sMg with clock := { sMg.clock with now := t }, pwr := { sMg.pwr with pins := [(3, { (sMg.pin 3) with accepted := some 5 })] } }
     (s.pin 3).accepted = some 5 ∧ 5 + 100000000 ≤ s.clock.now ∧ s.clock.now ≤ 5 + 900000000) := by
  refine ⟨?_, ?_, ?_, ?_⟩ <;> decide +kernel

/-- Slot 1 holds an image, both selection records are written, and connection 0 stages in slot 1. -/
def sStaged : State := onMgmt1 (fun m => { m with stage := ⟨1, 1, 0, some 0, 4384⟩ }) { sFlash 1 with boot := { (sFlash 1).boot with
  flash := Sparse.setRun 0xFF (Sparse.setRun 0xFF (sFlash 1).boot.flash 0 (State.selectionBytes 0 4)) 0x1000 (State.selectionBytes 0 5) } }

theorem flashAt_sStaged (a n : Nat) (h : 0x1040 ≤ a) : sStaged.flashAt a n = (sFlash 1).flashAt a n := by
  have l : ∀ c, (State.selectionBytes 0 c).length = 64 := fun c => by simp [State.selectionBytes, leBytes]
  show Sparse.getRun 0xFF (Sparse.setRun 0xFF (Sparse.setRun 0xFF (sFlash 1).boot.flash 0 (State.selectionBytes 0 4)) 0x1000 (State.selectionBytes 0 5)) a n = _
  rw [Sparse.getRun_setRun_other _ _ _ _ _ _ (by right; rw [l]; omega), Sparse.getRun_setRun_other _ _ _ _ _ _ (by right; rw [l]; omega)]
  rfl

theorem imageCode_sStaged :
    sStaged.imageCode ⟨0, 3, 3, sStaged.boot.deviceId, 0, true, 0, [], none, 0⟩ sStaged.mgmt.stage.slot = none := by
  have r : sStaged.readImage 1 = ⟨imgHead, imgKearnef, imgIntegrator⟩ := by
    rw [← readImage_sFlash 1]
    simp only [State.readImage, flashAt_sStaged _ _ (show 0x1040 ≤ imageBase 1 by decide)]
    rw [flashAt_sStaged _ _ (Nat.le_trans (show 0x1040 ≤ imageBase 1 by decide) (Nat.le_add_right _ _)),
      flashAt_sStaged _ _ (Nat.le_trans (show 0x1040 ≤ imageBase 1 by decide) (Nat.le_add_right _ _))]
  have g : sStaged.mgmt.stage.slot = 1 := rfl
  have v : sStaged.keys.svnFuses = 0 := rfl
  have o : sStaged.boot.deviceId = bootFacts.own := rfl
  have k := img_ok
  simp [State.imageCode, g, r, v, o, k.1, k.2.1, k.2.2.1, k.2.2.2.1, k.2.2.2.2.1, k.2.2.2.2.2.1, k.2.2.2.2.2.2]
  decide

theorem selection_sStaged : sStaged.selection 0 = some (4, 0) ∧ sStaged.selection 1 = some (5, 0) := by
  have l : ∀ c, (State.selectionBytes 0 c).length = 64 := fun c => by simp [State.selectionBytes, leBytes]
  have a : sStaged.flashAt (0x1000 * 0) 64 = State.selectionBytes 0 4 := by
    show Sparse.getRun 0xFF (Sparse.setRun 0xFF (Sparse.setRun 0xFF (sFlash 1).boot.flash 0 (State.selectionBytes 0 4)) 0x1000 (State.selectionBytes 0 5)) 0 64 = _
    rw [Sparse.getRun_setRun_other _ _ _ _ _ _ (by left; omega)]
    have h := Sparse.getRun_setRun_same (0xFF : BitVec 8) (sFlash 1).boot.flash 0 (State.selectionBytes 0 4)
    rwa [l] at h
  have b : sStaged.flashAt (0x1000 * 1) 64 = State.selectionBytes 0 5 := by
    have h := Sparse.getRun_setRun_same (0xFF : BitVec 8) (Sparse.setRun 0xFF (sFlash 1).boot.flash 0 (State.selectionBytes 0 4)) 0x1000 (State.selectionBytes 0 5)
    rw [l] at h
    exact h
  constructor
  · simp only [State.selection, a]; decide +kernel
  · simp only [State.selection, b]; decide +kernel

theorem witness_Staging :
    sStaged.mgmt.conns.any (fun c => c.id = (0 : Fin 4).val) = true ∧ sStaged.boot.slot ≤ 1 ∧ sStaged.mgmt.stage = ⟨1, 1, 0, some 0, 4384⟩ ∧ 1 = 1 - sStaged.boot.slot ∧
    4384 ≤ imageMax ∧ (List.replicate 64 (0 : BitVec 8)).length ≤ 65536 ∧ 0 + (List.replicate 64 (0 : BitVec 8)).length ≤ 4384 ∧ sMg.mgmt.stage.state = 0 ∧
    (onMgmt1 (fun m => { m with stage := ⟨1, 1, 0, some 1, 4384⟩ }) State.reset).mgmt.stage.conn ≠ some 0 ∧
    (onMgmt1 (fun m => { m with stage := ⟨3, 1, 0, some 1, 4384⟩ }) State.reset).mgmt.stage.state = 3 := by
  refine ⟨?_, ?_, ?_, ?_, ?_, ?_, ?_, ?_, ?_, ?_⟩ <;> decide +kernel

theorem witness_FaultLogAndRegisters :
    (sMg.halt = none ∧ sMg.boot.phase ≠ 6 ∧ sMg.mgmt.toFlash.length ≤ 100 ∧ sMg.mgmt.flash.length + sMg.mgmt.toFlash.length ≤ 30720) ∧
    (let e : FlogEntry := ⟨1, 2, 0x0801, 8, 0, 0, 0, 0⟩; let es : List FlogEntry := (List.range 101).map (fun n => ⟨n, 2, 0x2003, 9, 0, 0, 0, 0⟩)
     let s := { onMgmt1 (fun m => { m with toFlash := es ++ [e] }) sMg with halt := some (0x0801, 8) }
     s.halt = some (0x0801, 8) ∧ s.boot.phase ≠ 6 ∧ s.mgmt.toFlash = es ++ [e] ∧ (e.code, e.block) = (0x0801, 8) ∧ es.length = 101 ∧
     (∀ x ∈ es, (x.code, x.block) ≠ (0x0801, 8)) ∧ es.Nodup ∧ s.mgmt.flash.length + 102 ≤ 30720) ∧
    (sMg.mgmt.flashed % 2048 = 0 ∧ ∀ (e : FlogEntry) (fs : List FlogEntry), fs.length = 30721 → (onMgmt1 (fun m => { m with flash := fs, toFlash := [e] }) sMg).mgmt.toFlash = [e] ∧
       30720 < (onMgmt1 (fun m => { m with flash := fs, toFlash := [e] }) sMg).mgmt.flash.length) ∧
    ((onMgmt1 (fun m => { m with i3cAddr := true }) sMg).mgmt.i3cAddr = true ∧
     (∃ x ∈ ({ sMg with keys := { sMg.keys with secure := [⟨4, 2, true⟩] } } : State).keys.secure, x.transport = 2 ∧ x.finished = true) ∧
     ∀ x ∈ sMg.keys.secure, x.transport ≠ 2) ∧
    (State.reset.halt = none ∧ State.reset.locked = false ∧ ctl 1 0 ∈ State.bootLocked ∧ 900 ≤ (1000 : BitVec 32).toNat ∧ (1000 : BitVec 32).toNat ≤ 2100 ∧ ctl 1 0x44 ∈ (List.range 12).map (fun i => ctl 1 (0x40 + 4 * i)) ∧
     (∀ v : BitVec 32, v = 33 ∨ v = 48 → v.toNat < 512 ∧ 1 ≤ v.toNat % 32 ∧ v.toNat % 32 ≤ 16) ∧ (∀ v : BitVec 32, v = 32 ∨ v = 49 → v.toNat < 512 ∧ (v.toNat % 32 = 0 ∨ 16 < v.toNat % 32)) ∧
     2 ^ 13 ≤ (8192 : BitVec 32).toNat) := by
  refine ⟨?_, ?_, ⟨rfl, fun e fs h => ⟨rfl, by show 30720 < fs.length; omega⟩⟩, ?_, ?_⟩
  · decide +kernel
  · decide +kernel
  · decide +kernel
  · refine ⟨?_, ?_, ?_, ?_, ?_, ?_, fun v h => ?_, fun v h => ?_, ?_⟩ <;> first | (rcases h with h | h <;> subst h <;> decide) | decide +kernel
/-! Witnesses: clocks, power, temperature, pins and rails. -/

def onPwr1 (f : Pwr → Pwr) (s : State) : State := { s with pwr := f s.pwr }
def sClk : State := onPwr1 (fun p => { p with running := BitVec.allOnes 25, seams := BitVec.allOnes 25 }) sSess
def withReg (f : RegPwr → RegPwr) (s : State) : State := onPwr1 (fun p => { p with regions := [(0, f { RegPwr.reset with st := .active, point := 14 })] }) s

theorem witness_ClocksAndPoints :
    (sClk.halt = none ∧ hasBit sClk.pwr.running 4 = true ∧ hasBit sClk.pwr.running 3 = true ∧ hasBit sClk.pwr.running 25 = true ∧ hasBit sClk.pwr.running 20 = true ∧
     hasBit sClk.pwr.seams 4 = true ∧ hasBit sClk.pwr.seams 3 = true ∧ hasBit sClk.pwr.seams 25 = true ∧ hasBit sClk.pwr.seams 2 = true ∧ hasBit sClk.pwr.failed 4 = false ∧
     hasBit (onPwr1 (fun p => { p with starting := dbit 4 }) sClk).pwr.starting 4 = true ∧ hasBit (onPwr1 (fun p => { p with failed := dbit 4 }) sClk).pwr.failed 4 = true ∧
     sClk.boot.held.toNat.testBit (0 : BitVec 4).toNat = false) ∧
    ((sClk.pin 4).active = false ∧ ((withReg id sClk).regPwr 0).st = .active ∧ ((withReg id sClk).regPwr 0).trip = false ∧
     ((withReg (fun g => { g with trip := true }) sClk).regPwr 0).trip = true ∧ ((withReg (fun g => { g with st := .slow }) sClk).regPwr 0).st = .slow ∧
     ((withReg (fun g => { g with st := .slow }) sClk).region 0).ue.window = [] ∧ (sClk.regPwr 0).st = .stop) ∧
    (let s := (withReg id sClk).setReg (ctl 8 0) 4
     (s.reg (ctl 8 0)).toNat.testBit 2 = true ∧ (s.regPwr 0).st = .active ∧ s.streamsIn 0 = false) ∧
    (let s := withReg (fun g => { g with st := .entering }) sClk; (s.regPwr 0).st = .entering ∧ (s.regPwr 0).pend = false) ∧
    (let s := { withReg (fun g => { g with st := .waking }) sClk with cores := [(0, { runCore with ctl := { runCtl with run := .asleep } })] }
     (s.regPwr 0).st = .waking ∧ hasBit s.pwr.running (4 + 0) = true ∧ hasBit s.pwr.seams (4 + 0) = true ∧ (s.core (32 * 0 + 0)).ctl.run = .asleep ∧
     (s.core (32 * 0 + 0)).ctl.enable = true) := by
  refine ⟨?_, ?_, ?_, ?_, ?_⟩ <;> decide +kernel

/-- Samples of `w` watts, and a state that has taken `n` of them. -/
def watts (w : Nat) : List (Nat × Nat) := [(1000, 1000 * w)]
def sPow (n w overMs under point : Nat) : State := onPwr1 (fun p => { p with samples := List.replicate n (w * 1000000), overMs := overMs, under := under, chipPoint := point })
  (State.reset.setReg (ctl 5 0) 1000)

theorem witness_PowerAndTemperature :
    (∀ x ∈ [(4, 1200, 4, 0), (4, 1200, 0, 0), (9, 1010, 0, 0), (9, 500, 0, 3), (9, 500, 0, 9), (9, 970, 0, 3)], let s := sPow x.1 x.2.1 x.2.2.1 x.2.2.2 14
      s.halt = none ∧ (watts x.2.1).length ≤ 11 ∧ s.powerLimit = 1000 ∧ s.pwr.samples.length = x.1 ∧ s.pwr.overMs = x.2.2.1 ∧ s.pwr.under = x.2.2.2) ∧
    (11 * (1000 * 1000000) < 10 * (1200 * 1000000) ∧ 10 * (1010 * 1000000) ≤ 11 * (1000 * 1000000) ∧ 10 * (1000 * 1000000) < 10 * (1010 * 1000000) ∧
     20 * (10 * (500 * 1000000)) ≤ 190 * (1000 * 1000000) ∧ 10 * (970 * 1000000) ≤ 10 * (1000 * 1000000) ∧ 190 * (1000 * 1000000) < 20 * (10 * (970 * 1000000))) ∧
    (([1060, 1010, 900] : List Nat).length ≤ 16 ∧ ([1010, 960, 800] : List Nat).length ≤ 8 ∧ sClk.pwr.resetHeld = false ∧ sClk.halt = none ∧ sClk.pwr.shutdown = false ∧
     sClk.pwr.seq = .up ∧ (sClk.regPwr 0).trip = false ∧ (onPwr1 (fun p => { p with resetHeld := true, shutdown := true }) sClk).pwr.resetHeld = true) := by
  refine ⟨?_, ?_, ?_⟩ <;> decide +kernel

theorem witness_PinsAndRails :
    (sClk.pwr.shutdown = false ∧ (onPwr1 (fun p => { p with shutdown := true, logic := 900 }) sClk).pwr.shutdown = true ∧
     (onPwr1 (fun p => { p with shutdown := true, logic := 900 }) sClk).pwr.logic = 900 ∧ (sClk.pin 1).active = false ∧ sClk.pwr.seq = .up ∧
     (sClk.pin 2).active = false ∧ (sClk.pin 2).stuck = false ∧ (sClk.pin 2).accepted = none ∧ (sClk.pin 4).active = false ∧ (sClk.pin 4).stuck = false ∧ (sClk.pin 4).accepted = none ∧
     ((onPwr1 (fun p => { p with pins := [(4, ⟨true, false, some 5, none⟩)] }) sClk).pin 4).active = true ∧
     (let s := onPwr1 (fun p => { p with pins := [(4, ⟨false, false, some 5, none⟩)] }) sClk; (s.pin 4).accepted = some 5 ∧ s.clock.now < 5 + 1000000)) ∧
    (let s := onPwr1 (fun p => { p with seq := .off, rails := [], enables := 0 }) State.reset
     s.pwr.seq = .off ∧ (s.pin 1).active = false ∧ s.pwr.latched = false ∧ s.pwr.shutdown = false) ∧
    ((onPwr1 (fun p => { p with seq := .rising 3 }) State.reset).pwr.seq = .rising 3 ∧ (onPwr1 (fun p => { p with seq := .falling 3 }) State.reset).pwr.seq = .falling 3 ∧
     (State.reset.pwr.enables.toNat.testBit ((5 : Fin 11) - 1 : Fin 11)) = true ∧ State.reset.pwr.aonLog.length ≤ 3) := by
  refine ⟨?_, ?_, ?_⟩ <;> decide +kernel


theorem witness_RegionSleepEntry :
    (let c : UeCmd := ⟨0, 0, List.replicate 64 0, false, 0, [], 0, false⟩
     let s := ((withReg id sClk).setReg (ctl 8 0) 4).onRegion 0 (fun g => { g with ue := { g.ue with enable := true, state := 0, window := [c] } })
     (s.reg (ctl 8 0)).toNat.testBit 2 = true ∧ (s.regPwr 0).st = .active ∧ s.streamsIn 0 = false ∧ (s.region 0).ue.table = [] ∧ (s.region 0).ue.window ≠ [] ∧
       (s.region 0).ue.enable = true ∧ (s.region 0).ue.state = 0) ∧
    (let s := withReg (fun g => { g with st := .entering, deep := true }) sClk
     (s.regPwr 0).st = .entering ∧ (s.regPwr 0).pend = false ∧ (s.regPwr 0).deep = true ∧ (s.region 0).ue.enable = false ∧ (s.region 0).ue.table = []) ∧
    ((withReg (fun g => { g with st := .held, cause := 0x6001 }) sClk).regPwr 0).st = .held ∧
    ((sClk.regPwr 0).st = .stop ∧ ((sClk.setReg (ctl 8 0) 0).reg (ctl 8 0)).toNat.testBit 2 = false ∧ ({ sClk with boot := { sClk.boot with ready := true } } : State).boot.ready = true) := by
  refine ⟨?_, ?_, ?_, ?_⟩ <;> decide +kernel

/-! Witnesses: the Visor and the tests. -/

/-- Unit 0 planned at `planned`, with ALARM_PS and PERIOD_DAYS of 1, one plan waiting. -/
def sVis (planned : Option Int) (since : Option Nat) : State :=
  let s := State.reset.setReg (ctl 6 0) 0x101
  { s with visor := { s.visor with units := [(0, ⟨0, [], planned, 0, 0, 1, 64, since⟩)], days := 3, doubts := [((0, 5), 7)] }, clock := { s.clock with now := 4000000000000 } }
/-- Monitor 5 of unit 0: what a reading of 1 000 comes to is a value of the device, whatever it is. -/
def seen : Int := State.reset.monitorDelta 0 5 1000

theorem seen_sVis (p : Option Int) (o : Option Nat) : (sVis p o).monitorDelta 0 5 1000 = seen := rfl

/-- Whether a monitor is `far` from its unit's oscillators rests on values of the device (log entry 117): either may hold. -/
theorem witness_Visor :
    (∀ p o, let s := sVis p o
      s.visor.starting = false ∧ (0, 5) ∉ s.visor.excluded ∧ 5 < State.monitors 0 ∧ (s.vUnit 0).planned = p ∧ (s.vUnit 0).overSince = o ∧ s.visor.fresh = none ∧
      newest 100 ((s.vUnit 0).samples ++ [s.monitorDelta 0 5 1000]) = [seen] ∧ (s.vUnit 0).rateDays = 1 ∧ (s.vUnit 0).rateNum = 0 ∧ 7 + 1000000000 ≤ s.clock.now ∧
      s.visor.doubts.find? (fun b => b.1 = (0, 5)) = some ((0, 5), 7) ∧ 7 + 3600000000000 ≤ s.clock.now ∧ s.visor.doubts.find? (fun b => b.1 = (0, 6)) = none) ∧
    (∀ s ∈ [sVis none none], s.regField (ctl 6 0) 12 8 = 1 ∧ s.regField (ctl 6 0) 7 0 = 1) ∧
    ((([seen] : List Int).foldl (· + ·) 0 / ([seen] : List Int).length) = seen ∧
      (∀ n : Nat, n = 1 ∨ n = 2 → (seen - 1000000 + ((n * (1000 * 1) : Nat) : Int)) * (1 : Nat) + ((0 * 1 : Nat) : Int) ≤ seen * (1 : Nat)) ∧
      ¬ (seen + ((1 * (1000 * 1) : Nat) : Int)) * (1 : Nat) + ((0 * 1 : Nat) : Int) ≤ seen * (1 : Nat)) ∧
    (let s := { sVis none none with visor := { (sVis none none).visor with excluded := (List.range 59).map (fun m => (0, m + 5)) } }
     s.visor.starting = false ∧ (0, 4) ∉ s.visor.excluded ∧ State.monitors 0 - (s.visor.excluded.filter (fun b => b.1 = 0)).length < 6) ∧
    (let s := { sVis none none with visor := { (sVis none none).visor with fresh := some ([(0, 3, 700)], 2) } }
     s.visor.fresh = some ([(0, 3, 700)], 2)) := by
  refine ⟨fun p o => ⟨rfl, by show (0, 5) ∉ []; simp, by decide, rfl, rfl, rfl, ?_, rfl, rfl, by show 7 + 1000000000 ≤ 4000000000000; omega, rfl, by show 7 + 3600000000000 ≤ 4000000000000; omega, rfl⟩, ?_, ⟨?_, ?_, ?_⟩, ?_, ?_⟩
  · rw [seen_sVis]; generalize seen = x; rfl
  · decide +kernel
  · generalize seen = x; simp
  · generalize seen = x; rintro n (rfl | rfl) <;> omega
  · generalize seen = x; omega
  · decide +kernel
  · decide +kernel

/-- Core 5 of region 0 in quarantine, with the region's test. -/
def sDiag (t : RegTest) : State := State.setRegTest { State.reset with cores := [(5, { idleCore with ctl := { idleCore.ctl with quar := true } })] } 0 t
def sLoop (l : LinkLoop) : State := State.reset.onLink 3 (fun k => { k with loop := l })
def sOpen : State := State.reset.onTest (fun t => { t with opened := true, scope := 8 })

theorem witness_FieldTests :
    (let s := sDiag RegTest.reset; s.halt = none ∧ (s.core (32 * (0 : BitVec 4).toNat + (5 : Fin 32).val)).ctl.quar = true ∧ s.placedOn 5 = false ∧ (s.regTest 0).running = none ∧
      (s.core 6).ctl.quar = false) ∧
    ((sDiag { RegTest.reset with running := some 5 }).regTest 0).running = some 5 ∧
    (let s := State.reset.setReg (ctl 0x23 0) 0; s.halt = none ∧ (s.reg (ctl 0x23 0)).toNat.testBit 0 = false ∧ (s.link 3).run = .off ∧ (s.link 3).loop.mode = 0 ∧
      ((s.setReg (ctl 0x23 0) 1).reg (ctl 0x23 0)).toNat.testBit 0 = true) ∧
    (let s := sLoop ⟨3, 10, false, false, 0, 0, true⟩; (s.link 3).loop.mode = 3 ∧ (s.link 3).loop.done = false ∧ (s.link 3).loop.latched = true) ∧
    (let s := sOpen; s.test.opened = true ∧ s.test.scope.toNat.testBit 3 = true ∧ s.halt = none ∧ s.boot.held.toNat.testBit 0 = false) ∧
    ¬ (State.reset.test.opened = true ∧ State.reset.test.scope.toNat.testBit 3 = true) ∧
    (Sparse.get 0 (sOpen.regTest 0).rows 15 + 64 ≤ 64 ∧ 64 < Sparse.get 0 (sOpen.regTest 0).rows 15 + 65 ∧
      64 < Sparse.get 0 ((State.setRegTest sOpen 0 { RegTest.reset with rows := [(15, 64)] }).regTest 0).rows 15 + 1) := by
  refine ⟨?_, ?_, ?_, ?_, ?_, ?_, ?_⟩ <;> decide +kernel

/-- A token for SCOPE 8 with a nonce of 16 bytes of 7. -/
def token1 (scope : BitVec 8) : List (BitVec 8) :=
  [0x4B, 0x44, 0x42, 0x47, 0, 1, scope, 0] ++ State.reset.boot.deviceId ++ List.replicate 16 7 ++ List.replicate 24 0 ++ List.replicate 96 1
def sNonce : State := State.reset.onTest (fun t => { t with nonce := some (List.replicate 16 7) })

theorem witness_TestPortAndDebug :
    (State.reset.sessionsHeld = false ∧ State.reset.test.bscan = false ∧ sSess.sessionsHeld = true) ∧
    (let s := sNonce; let token := token1 8
     (s.reg (ctl 1 0xC)).toNat.testBit 0 = false ∧ s.sessionsHeld = false ∧ token.length = 192 ∧ token.take 6 = [0x4B, 0x44, 0x42, 0x47, 0, 1] ∧
      field_ token 6 2 ≠ 0 ∧ field_ token 6 2 < 32 ∧ (token.drop 72).take 24 = List.replicate 24 0 ∧ (token.drop 8).take 48 = s.boot.deviceId ∧
      s.test.nonce = some ((token.drop 56).take 16)) ∧
    field_ (token1 0) 6 2 = 0 := by
  refine ⟨?_, ?_, ?_⟩ <;> decide +kernel

/-! Witnesses: the machine as a whole. -/

def sHalted : State := { State.reset with halt := some (0x2003, 7) }

def sHaltedFence : State := { sHalted with pending := [.fence 3 w0 0] }

theorem witness_HaltStays :
    (sHalted.halt = some (0x2003, 7) ∧ ∀ c rest, sHalted.pending = c :: rest → resets c = false) ∧
    (sHaltedFence.halt = some (0x2003, 7) ∧ ∀ c rest, sHaltedFence.pending = c :: rest → resets c = false) := by
  refine ⟨⟨by decide +kernel, ?_⟩, by decide +kernel, ?_⟩
  · intro c rest h
    rw [show sHalted.pending = [] from rfl] at h
    cases h
  · intro c rest h
    rw [show sHaltedFence.pending = [.fence 3 w0 0] from rfl] at h
    cases h
    rfl

theorem witness_CoreWordsRoundTrip :
    let i := Instr.fence 3 w0 5
    issuingCore i = some 3 ∧ wellFormed i = true ∧ (encodeWord i).isSome = true := by decide +kernel

theorem witness_CoresReachOnlyThemselves : issuingCore (.fence 3 w0 5) = some 3 ∧ sHalted.halt = some (0x2003, 7) := by decide +kernel

/-! Terms that no sender can form are refused by the check. -/

def lineIn (n : Nat) : RxFrame := { clearf 1 0 (List.replicate n 0) with tag := List.replicate 16 0 }

theorem test_ill_formed_addresses :
    wellFormed (.registerWrite .host 0x1002 0) = false ∧ wellFormed (.registerWrite .host 0x1004 0) = true ∧ wellFormed (.writeReg 0 1 0x1001 0) = false ∧
    wellFormed (.readReg 0 1 0x1003 1) = false ∧ wellFormed (.readReg 0 1 0x1000 0) = false ∧ wellFormed (.readReg 0 1 0x1000 65) = false ∧
    wellFormed (.readReg 0 1 0x1000 64) = true := by decide +kernel

theorem test_ill_formed_opcode : wellFormed (.undefinedOpcode 0 w0 0x0100000000000000) = false ∧ wellFormed (.undefinedOpcode 0 w0 0x0600000000000000) = true := by
  decide +kernel

theorem test_ill_formed_headers : wellFormed (.ingestRecord 0 (List.replicate 31 0) [] []) = false ∧ wellFormed (.restoreRecord 0 (List.replicate 33 0) []) = false ∧
    wellFormed (.ingestRecord 0 (List.replicate 32 0) [] []) = true := by decide +kernel

theorem test_ill_formed_token : wellFormed (.dbgToken (List.replicate 191 0) true) = false ∧ wellFormed (.stageData 0 1 0 (List.replicate 65537 0) true) = false := by
  refine ⟨by decide +kernel, ?_⟩
  show decide ((List.replicate 65537 (0 : BitVec 8)).length ≤ 65536) = false
  rw [List.length_replicate]; rfl

theorem test_ill_formed_flits :
    let f : Flit := ⟨0, List.replicate 32 0, List.replicate 8 0, 0⟩
    wellFormed (.d2dFlitReceive 0 f none) = true ∧ wellFormed (.d2dFlitReceive 0 { f with tag := [] } none) = false ∧
    wellFormed (.d2dFlitReceive 0 { f with payload := [] } none) = false ∧ wellFormed (.flitReceive 0 [[]]) = false ∧
    wellFormed (.flitReceive 0 [List.replicate 4 (List.replicate 543 0)]) = false ∧ wellFormed (.restoreRecord 0 (List.replicate 32 0) []) = true := by
  decide +kernel

theorem test_ill_formed_cells : wellFormed (.extest [] []) = false ∧ wellFormed (.extestPulse [] []) = false ∧ wellFormed (.extestTrain [] []) = false ∧
    wellFormed (.samplePreload [] []) = false := by decide +kernel

theorem test_ill_formed_link : wellFormed (.pcieLinkUp 0 16 true) = false ∧ wellFormed (.pcieLinkUp 6 2 true) = false ∧ wellFormed (.pcieLinkUp 6 16 true) = true := by decide +kernel

theorem test_ill_formed_payload : wellFormed (.putLines (lineIn 255)) = false ∧ wellFormed (.putBytes (lineIn 1)) = false ∧ wellFormed (.getData (lineIn 257)) = false ∧
    wellFormed (.redData (lineIn 64) 0) = false ∧ wellFormed (.putLines (lineIn 512)) = true ∧
    wellFormed (.putLines (clearf 1 0 (List.replicate 512 0))) = false ∧ wellFormed (.putLines (lineIn 4352)) = false := by decide +kernel

/-! Words written out from the layouts of R104, R116, R129, R137 and R142. -/

/-- ADD s1, s2, s3. -/
theorem test_word_add : decodeCoreWord 5 w0 .clear 0x0808860000000000 = .add 5 w0 (fc 1 2 3 0) ∧
    Opnd.crD (fc 1 2 3 0) = 1 ∧ Opnd.crA (fc 1 2 3 0) = 2 ∧ Opnd.crB (fc 1 2 3 0) = 3 := by decide +kernel

/-- ADDI s4, s5, −1. -/
theorem test_word_addi : decodeCoreWord 5 w0 .clear 0x11214000FFFFFFFF = .addi 5 w0 (fc 4 5 0 0xFFFFFFFF) := by decide +kernel

/-- TMMA on accumulator 3, operands td4 and td5, G = 8, START, ADVA, SPILL_EN, td6, epilogue 4, v7, td8, SR. -/
theorem test_word_tmma :
    let f : Opnd := 0x3215D321D10000
    decodeCoreWord 5 w0 .clear (0x40#8 ++ f) = .tmma 5 w0 f .clear ∧
    [f.tAcc, f.tTda, f.tTdb, f.tG, f.tTds, f.tEpi, f.tVe, f.tTdo] = [3, 4, 5, 1, 6, 4, 7, 8] ∧
    [f.tStart, f.tAdva, f.tAdvb, f.tSpill, f.tSr] = [true, true, false, true, true] := by
  decide +kernel

/-- VADD v1, v2, v3 under p5. -/
theorem test_word_vadd : decodeCoreWord 5 w0 .clear 0x8008860A00000000 = .vadd 5 w0 (fv 1 2 3 0 5) .clear ∧ Opnd.vPg (fv 1 2 3 0 5) = 5 := by decide +kernel

/-- PUT from a2 to a1, counter 3, length s4, relaxed. -/
theorem test_word_put :
    let f : Opnd := 0x12324000000000
    decodeCoreWord 5 w0 .clear (0xC1#8 ++ f) = .put 5 w0 f ∧ (f.mAf, f.mAl, f.mCc, f.mSl, f.mRelax, f.mDtype) = (1, 2, 3, 4, true, 0) := by decide +kernel

/-- FWAIT on slot 9 until its flag equals s7. -/
theorem test_word_fwait :
    let f : Opnd := 0x240E4000000000
    decodeCoreWord 5 w0 .clear (0xE5#8 ++ f) = .fwait 5 w0 f ∧ (f.ySlot, f.ySv, f.yCond) = (9, 7, 1) := by decide +kernel

/-- An opcode that no table defines. -/
theorem test_word_undefined : decodeCoreWord 5 w0 .clear 0x0600000000000000 = .undefinedOpcode 5 w0 0x0600000000000000 := by decide +kernel

/-! Single steps. -/

def oneStep (i : Instr) (s : State) : Option State :=
  match step { s with pending := [i] } with
  | .next t => some t
  | _ => none

/-- ADD wraps modulo 2⁶⁴ with its destination among its sources (R95). -/
theorem test_add_wraps :
    (oneStep (.add 0 w0 (fc 1 1 2 0)) (withCore { runCore with s := [(1, 0xFFFFFFFFFFFFFFFF), (2, 3)] })).map (fun t => ((t.core 0).getS 1, (t.core 0).ctl.pc, t.pending)) =
      some (2, 1, []) := by decide +kernel

/-- SRA keeps the sign and uses six bits of the count (R95, R105). -/
theorem test_sra :
    (oneStep (.sra 0 w0 (fc 3 1 2 0)) (withCore { runCore with s := [(1, 0x8000000000000000), (2, 0x44)] })).map (fun t => (t.core 0).getS 3) = some 0xF800000000000000 := by
  decide +kernel

/-- TRAP records 0x100D with its low 16 bits (R105). -/
theorem test_trap_code : (oneStep (.trapS 0 w0 (fc 0 0 0 0x1234)) sRun).map (fun t => (t.core 0).ctl.stopping) = some (some ⟨0x100D, 0x1234⟩) := by decide +kernel

/-- The host's write of a boot-locked register changes nothing (R14). -/
theorem test_boot_locked_write : (oneStep (.registerWrite .host 0x1040 5) State.reset).map (fun t => t.reg 0x1040) = some (State.reset.reg 0x1040) := by decide +kernel

/-! Worked examples of the specification, and vectors of the standards it names. -/

def nums (xs : List Nat) : List (BitVec 8) := xs.map (BitVec.ofNat 8)

/-- 04_number_formats: 0x3F8C_CCCD into BF16. -/
theorem test_example_bf16 : cvt32 bf16 .rne 0x3F8CCCCD = 0x3F8D ∧ cvt32 bf16 (.sr 13106) 0x3F8CCCCD = 0x3F8C ∧ cvt32 bf16 (.sr 13107) 0x3F8CCCCD = 0x3F8D := by decide +kernel

/-- 04_number_formats: a block of gradients into MXFP8 E4M3. -/
theorem test_example_mx :
    let row := ([0x3C400000, 0xB8D33333, 0x30800000] : List F32).map val32
    mxEncode e4m3 false [] row = (0x70, [0x7C, 0xC5, 0x00]) ∧ mxEncode e4m3 true [0, 52428, 64511] row = (0x70, [0x7C, 0xC5, 0x00]) ∧
    mxEncode e4m3 true [0, 52429, 64512] row = (0x70, [0x7C, 0xC6, 0x01]) := by decide +kernel

/-- 07_master_weights_and_update: one adaptive step. -/
theorem test_example_adaptive :
    let h := hypOf [0x38800000, 0x35800000, 0x3F600000, 0x3E000000, 0x3F700000, 0x3D800000, 0x2B800000, 0x41000000, 0x41800000, 0x3B000000]
    ∀ r ∈ [(52428, 0x3F8CCAC4), (52429, 0x3F8CCAC5)], let o := stepAdaptive bf16 h 0x3F8CCCCD (.fin false 0 0) (.fin false 0 0) (bf16.decode 0x3F00) (fun k => if k = 0 then r.1 else 0)
      o.w.toNat = r.2 ∧ o.m = 0x3900 ∧ o.v = 0x3380 := by decide +kernel

/-- 14_gradient_reduction: a bump mid-ring. -/
theorem test_example_bump :
    let xs := [FVal.ofInt false 164 (-13), FVal.ofInt false 3 (-13)]
    vwbEncode 120 xs [0, 32767] 4 0 = some ⟨[82, 1], 120, 1⟩ ∧ vwbEncode 120 xs [0, 32768] 4 0 = some ⟨[82, 2], 120, 1⟩ := by decide +kernel

/-- 02_tensor_core: row 5, column 30 of a BF16 tile. -/
theorem test_example_bank : 0x40800 + tileWord 1 5 30 = 0x40946 := by decide +kernel

/-- 08 and 10: the eleventh page of region 11, and the tweak of its line 6. -/
theorem test_example_tweak : Memory.tweak 0x16000A 6 ⟨0, 0x123, true, 3⟩ = nums [0x06, 0x0A, 0x00, 0x16, 0x23, 0x01, 0x00, 0x07, 0, 0, 0, 0, 0, 0, 0, 0] := by decide +kernel

/-- 12_esvor_links: an IV, whose first byte gives its low bits to the link and whose counter is little-endian (R483). -/
theorem test_frame_iv : frameIv (nums [0x9D, 0x41, 0x07, 0xE2]) 5 5000000000 = nums [0x85, 0x41, 0x07, 0xE2, 0x00, 0xF2, 0x05, 0x2A, 0x01, 0, 0, 0] := by decide +kernel

/-- FIPS 197, appendix C.3. -/
theorem test_aes256 : aes256 ((List.range 32).map (BitVec.ofNat 8)) ((List.range 16).map (fun i => BitVec.ofNat 8 (17 * i))) =
    nums [0x8E, 0xA2, 0xB7, 0xCA, 0x51, 0x67, 0x45, 0xBF, 0xEA, 0xFC, 0x49, 0x90, 0x4B, 0x49, 0x60, 0x89] := by decide +kernel

/-- AES-256-GCM of a zero block under a zero key and IV. -/
theorem test_gcm :
    let k := List.replicate 32 (0 : BitVec 8); let iv := List.replicate 12 (0 : BitVec 8); let ct := gcmText k iv (List.replicate 16 0)
    ct = nums [0xCE, 0xA7, 0x40, 0x3D, 0x4D, 0x60, 0x6B, 0x6E, 0x07, 0x4E, 0xC5, 0xD3, 0xBA, 0xF3, 0x9D, 0x18] ∧
    gcmTag k iv [] ct = nums [0xD0, 0xD1, 0xC8, 0xA7, 0x99, 0x99, 0x6B, 0xF0, 0x26, 0x5B, 0x98, 0xB5, 0xD4, 0x8A, 0xB9, 0x19] := by decide +kernel

/-- The check value of CRC-32. -/
theorem test_crc32 : crc32 (nums [0x31, 0x32, 0x33, 0x34, 0x35, 0x36, 0x37, 0x38, 0x39]) = 0xCBF43926 := by decide +kernel

/-- SHA-384 of "abc" (FIPS 180-4): its first eight bytes. -/
theorem test_sha384 : (sha384 (nums [0x61, 0x62, 0x63])).take 8 = nums [0xCB, 0x00, 0x75, 0x3F, 0x45, 0xA3, 0x5E, 0x8B] := by decide +kernel
end Sys2Proof.Tests
end

section
/-!
PROOFS. What the codes that a core raises leave unchanged, and what a core's own step can reach (R99, R407, R821, R822).
-/
namespace Sys2Proof.Machine
namespace State

/-- A code raised writes error registers, the fault log and boot's last code, and nothing else (R821, R822). -/
theorem raiseOne_eq (s : State) (r : Raise) : ∃ errs mgmt boot, s.raiseOne r = { s with errs := errs, mgmt := mgmt, boot := boot } := ⟨_, _, _, rfl⟩

theorem raise_eq (s : State) (block code a0 a1 a2 : Nat) :
    ∃ errs mgmt boot, s.raise block code a0 a1 a2 = { s with errs := errs, mgmt := mgmt, boot := boot } := s.raiseOne_eq _

theorem foldl_raiseOne_eq (rs : List Raise) : ∀ s : State, ∃ errs mgmt boot, rs.foldl raiseOne s = { s with errs := errs, mgmt := mgmt, boot := boot } := by
  induction rs with
  | nil => exact fun s => ⟨_, _, _, rfl⟩
  | cons r rs ih =>
    intro s
    obtain ⟨errs, mgmt, boot, first⟩ := s.raiseOne_eq r
    obtain ⟨errs', mgmt', boot', rest⟩ := ih (s.raiseOne r)
    exact ⟨errs', mgmt', boot', by rw [List.foldl_cons, rest, first]⟩

/-- A core's result is written to its core, and its codes are logged (R693, R822). -/
theorem putCore_eq (s : State) (n : Nat) (r : CoreRes) :
    ∃ errs mgmt boot, s.putCore n r = { s.setCore n r.core with errs := errs, mgmt := mgmt, boot := boot } := foldl_raiseOne_eq _ _

/-- The parts of the device that a step of core `n` cannot reach are the same in `t` as in `s`: all but this core, the count of late slots of its region, error registers, the
fault log, boot's last code and the messages on Brim. -/
structure OnlyCore (n : Nat) (s t : State) : Prop where
  core : ∀ m, m ≠ n → t.core m = s.core m
  mem : t.mem = s.mem
  region : ∀ r, (t.region r).ue = (s.region r).ue ∧ (t.region r).cuff = (s.region r).cuff ∧ (t.region r).tc = (s.region r).tc ∧ (t.region r).rb = (s.region r).rb
  keys : t.keys = s.keys
  keySlots : t.keySlots = s.keySlots
  d2d : t.d2d = s.d2d
  regs : t.regs = s.regs
  counts : t.counts = s.counts
  crown : t.crown = s.crown
  net : t.net = s.net
  host : t.host = s.host
  red : t.red = s.red
  ckpt : t.ckpt = s.ckpt
  pwr : t.pwr = s.pwr
  visor : t.visor = s.visor
  test : t.test = s.test
  clock : t.clock = s.clock
  halt : t.halt = s.halt
  quarMap : t.quarMap = s.quarMap
  pending : t.pending = s.pending

namespace OnlyCore

theorem refl (n : Nat) (s : State) : OnlyCore n s s where
  core _ _ := rfl
  mem := rfl
  region _ := ⟨rfl, rfl, rfl, rfl⟩
  keys := rfl
  keySlots := rfl
  d2d := rfl
  regs := rfl
  counts := rfl
  crown := rfl
  net := rfl
  host := rfl
  red := rfl
  ckpt := rfl
  pwr := rfl
  visor := rfl
  test := rfl
  clock := rfl
  halt := rfl
  quarMap := rfl
  pending := rfl

theorem trans {n : Nat} {s t u : State} (h : OnlyCore n s t) (k : OnlyCore n t u) : OnlyCore n s u where
  core m hm := (k.core m hm).trans (h.core m hm)
  mem := k.mem.trans h.mem
  region r := by
    obtain ⟨ue, cuff, tc, rb⟩ := h.region r
    obtain ⟨ue', cuff', tc', rb'⟩ := k.region r
    exact ⟨ue'.trans ue, cuff'.trans cuff, tc'.trans tc, rb'.trans rb⟩
  keys := k.keys.trans h.keys
  keySlots := k.keySlots.trans h.keySlots
  d2d := k.d2d.trans h.d2d
  regs := k.regs.trans h.regs
  counts := k.counts.trans h.counts
  crown := k.crown.trans h.crown
  net := k.net.trans h.net
  host := k.host.trans h.host
  red := k.red.trans h.red
  ckpt := k.ckpt.trans h.ckpt
  pwr := k.pwr.trans h.pwr
  visor := k.visor.trans h.visor
  test := k.test.trans h.test
  clock := k.clock.trans h.clock
  halt := k.halt.trans h.halt
  quarMap := k.quarMap.trans h.quarMap
  pending := k.pending.trans h.pending

theorem setCore (s : State) (n : Nat) (c : Core) : OnlyCore n s (s.setCore n c) :=
  { refl n s with core := fun m hm => by simp [hm] }

theorem mapCore (s : State) (n : Nat) (f : Core → Core) : OnlyCore n s (s.mapCore n f) := setCore s n _

theorem putCore (s : State) (n : Nat) (r : CoreRes) : OnlyCore n s (s.putCore n r) := by
  obtain ⟨errs, mgmt, boot, h⟩ := s.putCore_eq n r
  rw [h]
  exact { setCore s n r.core with }

theorem brimPut (s : State) (n : Nat) (m : BrimMsg) : OnlyCore n s (s.brimPut m) := { refl n s with }

/-- The weave records of a region are apart from its engines, Cuff and caches (R260). -/
theorem onRegion (s : State) (n r : Nat) (f : Region → Region)
    (h : ∀ g, (f g).ue = g.ue ∧ (f g).cuff = g.cuff ∧ (f g).tc = g.tc ∧ (f g).rb = g.rb) : OnlyCore n s (s.onRegion r f) :=
  { refl n s with
    region := fun q => by
      by_cases hq : q = r
      · subst hq; simpa using h _
      · simp [hq] }

theorem closeSlot (s : State) (n : Nat) : OnlyCore n s (s.closeSlot n) := by
  unfold State.closeSlot
  extract_lets c r wait thresh
  split
  · refine onRegion s n r _ (fun g => ?_)
    extract_lets g'
    split <;> exact ⟨rfl, rfl, rfl, rfl⟩
  · exact refl n s

end OnlyCore

/-- The forms that the step of a core's instruction takes (R99): a result of the core alone, or that with a message to Brim, or with the slot it leaves closed. -/
inductive InstrStep (s : State) (cr : BitVec 9) : State → Prop where
  | idle : InstrStep s cr s
  | own (word : BitVec 64) (g : Core → CoreRes) : InstrStep s cr (s.onInstr cr word g)
  | barrier (op : Nat) (w : Waits) (f : BitVec 56) (arrives : Bool) (eff : Core → Core) : InstrStep s cr (s.barrierOp op cr w f arrives eff)
  | flag (op : Nat) (w : Waits) (f : BitVec 56) (used : List (Nat × Nat)) (msg : Core → BrimKey → BrimMsg) : InstrStep s cr (s.flagOp op cr w f used msg)
  | slot (r : CoreRes) (f : Core → Core) (h : s.halt = none) : InstrStep s cr (((s.putCore cr.toNat r).closeSlot cr.toNat).mapCore cr.toNat f)
  | put (r : CoreRes) (h : s.halt = none) : InstrStep s cr (s.putCore cr.toNat r)

namespace InstrStep

theorem onlyCore {s t : State} {cr : BitVec 9} (h : InstrStep s cr t) : OnlyCore cr.toNat s t := by
  cases h with
  | idle => exact .refl _ s
  | own word g =>
    unfold onInstr onCore
    split
    · exact .refl _ s
    · exact .putCore s _ _
  | barrier op w f arrives eff =>
    unfold barrierOp
    split
    · exact .refl _ s
    · extract_lets n slot c gen key r s1
      have own : OnlyCore n s s1 := .putCore s n _
      split
      · exact own.trans (.brimPut s1 n _)
      · exact own
  | flag op w f used msg =>
    unfold flagOp
    split
    · exact .refl _ s
    · extract_lets n slot c key r s1
      have own : OnlyCore n s s1 := .putCore s n _
      split
      · exact own.trans (.brimPut s1 n _)
      · exact own
  | slot r f _ => exact ((OnlyCore.putCore s _ r).trans (.closeSlot _ _)).trans (.mapCore _ _ f)
  | put r _ => exact .putCore s _ r

/-- After a halt a core's instruction does nothing (R407). -/
theorem halted {s t : State} {cr : BitVec 9} (h : InstrStep s cr t) {k : Nat × Nat} (hk : s.halt = some k) : t = s := by
  cases h with
  | idle => rfl
  | own word g => exact onCore_halted s (by simp [hk]) cr _
  | barrier op w f arrives eff => simp [barrierOp, hk]
  | flag op w f used msg => simp [flagOp, hk]
  | slot r f running => simp [hk] at running
  | put r running => simp [hk] at running

end InstrStep
end State

theorem execWslot_step (cr : BitVec 9) (w : Waits) (f : BitVec 56) (s : State) : ∃ t, execWslot cr w f s = .next t ∧ s.InstrStep cr t := by
  unfold execWslot
  cases hh : s.halt with
  | some k => exact ⟨s, by simp [ok], .idle⟩
  | none =>
    simp only [Option.isSome_none, Bool.false_eq_true, if_false]
    split
    · exact ⟨_, rfl, .slot _ _ hh⟩
    · exact ⟨_, rfl, .put _ hh⟩

theorem execUndefinedOpcode_step (cr : BitVec 9) (w : Waits) (word : BitVec 64) (s : State) :
    ∃ t, execUndefinedOpcode cr w word s = .next t ∧ s.InstrStep cr t := by
  unfold execUndefinedOpcode
  split
  · exact ⟨s, rfl, .idle⟩
  · exact ⟨_, rfl, .own _ _⟩

/-- Every instruction of a core answers a next state, by one of the forms of `InstrStep`: tile, vector, control and move instructions by the core's own result. -/
theorem exec_instrStep {i : Instr} {cr : BitVec 9} (s : State) (h : issuingCore i = some cr) : ∃ t, exec i s = .next t ∧ s.InstrStep cr t := by
  cases i
  all_goals cases h
  case bar w f => exact ⟨_, rfl, .barrier _ _ _ _ _⟩
  case barv w f => exact ⟨_, rfl, .barrier _ _ _ _ _⟩
  case bwait w f => exact ⟨_, rfl, .barrier _ _ _ _ _⟩
  case fset w f => exact ⟨_, rfl, .flag _ _ _ _ _⟩
  case fadd w f => exact ⟨_, rfl, .flag _ _ _ _ _⟩
  case wslot w f => exact execWslot_step cr w f s
  case undefinedOpcode w word => exact execUndefinedOpcode_step cr w word s
  all_goals exact ⟨_, rfl, .own _ _⟩

/-- Settles O59: each form of an instruction's step changes its own core, Brim's messages, weave records and error records only, and nothing after a halt. -/
theorem coresReachOnlyThemselves : Obligations.CoresReachOnlyThemselves := by
  unfold Obligations.CoresReachOnlyThemselves
  intro i cr s issuing
  obtain ⟨t, next, step⟩ := exec_instrStep s issuing
  have o := step.onlyCore
  exact ⟨t, next, o.core, o.mem, o.region, o.keys, o.keySlots, o.d2d, o.regs, o.counts, o.crown, o.net, o.host, o.red, o.ckpt, o.pwr, o.visor, o.test, o.clock,
    o.halt, o.quarMap, o.pending, fun _ => step.halted⟩

end Sys2Proof.Machine
end

section
/-!
PROOFS. The special functions of R68 and R69 at the inputs that the manual fixes.
-/
namespace Sys2Proof.Machine

/-- The value of binary32 bits by their exponent and fraction fields (R159). -/
theorem val32_fields (x : F32) : val32 x =
    if x.toNat / 2 ^ 23 % 256 = 255 then (if x.toNat % 2 ^ 23 = 0 then .inf (x.toNat.testBit 31) else .nan)
    else if x.toNat / 2 ^ 23 % 256 = 0 then .fin (x.toNat.testBit 31) (x.toNat % 2 ^ 23) (-149)
    else .fin (x.toNat.testBit 31) (x.toNat % 2 ^ 23 + 2 ^ 23) ((x.toNat / 2 ^ 23 % 256 : Nat) - 150) := by
  have top : (-149 : Int) + (x.toNat / 2 ^ 23 % 256 : Nat) - 1 = (x.toNat / 2 ^ 23 % 256 : Nat) - 150 := by omega
  simp only [val32, Fmt.decode, fp32, Fmt.emaxField, Fmt.lmin, Nat.shiftRight_eq_div_pow, Bool.true_and, Bool.not_true, Bool.false_and,
    decide_eq_true_eq, Bool.false_eq_true, if_false]
  rw [← top]
  rfl

theorem testBit_sign (x : F32) : x.toNat.testBit 31 = decide (2 ^ 31 ≤ x.toNat) := by
  have lt := x.isLt
  rw [Nat.testBit_eq_decide_div_mod_eq, decide_eq_decide]
  omega

/-- A finite value other than a zero keeps its sign and has a significand (R159). -/
theorem val32_finite_negative {x : F32} (fin : (val32 x).isFinite = true) (neg : 0x80000000 < x.toNat) :
    ∃ m e, val32 x = .fin true m e ∧ m ≠ 0 := by
  have lt := x.isLt
  have sign : x.toNat.testBit 31 = true := by rw [testBit_sign]; simp only [decide_eq_true_eq]; omega
  rw [val32_fields, sign] at fin ⊢
  split at fin
  · split at fin <;> simp [FVal.isFinite] at fin
  · rename_i notTop
    rw [if_neg notTop]
    split
    · exact ⟨_, _, rfl, by omega⟩
    · exact ⟨_, _, rfl, by omega⟩

/-- The fields of a finite value whose magnitude is at least 2^7: the hidden bit is set, and the bits beside the sign count up from it. -/
theorem val32_finite_large {x : F32} (fin : (val32 x).isFinite = true) (large : 0x43000000 ≤ x.toNat % 2 ^ 31) :
    ∃ (m : Nat) (e : Int), val32 x = .fin (x.toNat.testBit 31) m e ∧ 2 ^ 23 ≤ m ∧ -16 ≤ e ∧
      ((x.toNat % 2 ^ 31 : Nat) : Int) = (e + 149) * 2 ^ 23 + m := by
  have lt := x.isLt
  rw [val32_fields] at fin ⊢
  split at fin
  · split at fin <;> simp [FVal.isFinite] at fin
  · rename_i notTop
    rw [if_neg notTop, if_neg (by omega)]
    exact ⟨_, _, rfl, by omega, by omega, by omega⟩

/-- An integer brought to the exponent that a comparison takes with a value of exponent at least -q. -/
theorem shift_to_min_le (a q : Nat) {e : Int} (he : -(q : Int) ≤ e) : a <<< (0 - min e 0).toNat ≤ a * 2 ^ q := by
  rw [Nat.shiftLeft_eq]
  exact Nat.mul_le_mul_left a (Nat.pow_le_pow_right (by decide) (by omega))

/-- A positive value of 2^7 or more is not below 128. -/
theorem not_lt_128 {m : Nat} {e : Int} (hm : 2 ^ 23 ≤ m) (he : -16 ≤ e) : (FVal.fin false m e).lt (.fin false 128 0) = false := by
  have bound := shift_to_min_le 128 16 he
  have own : m ≤ m <<< (e - min e 0).toNat := Nat.le_shiftLeft
  simp only [FVal.lt, FVal.atExp, decide_eq_false_iff_not, Bool.false_eq_true, if_false]
  omega

theorem negative_lt_128 (m : Nat) (e : Int) : (FVal.fin true m e).lt (.fin false 128 0) = true := by
  have pos : 0 < 128 <<< (0 - min e 0).toNat := Nat.lt_of_lt_of_le (by decide) Nat.le_shiftLeft
  simp only [FVal.lt, FVal.atExp, decide_eq_true_eq, Bool.false_eq_true, if_false, if_true]
  generalize 128 <<< (0 - min e 0).toNat = top at pos ⊢
  generalize m <<< (e - min e 0).toNat = own
  omega

/-- A magnitude of more than 149, in 24 bits from 2^7 on, is below -149 when negative. -/
theorem negative_lt_149 {m : Nat} {e : Int} (he : -16 ≤ e) (hm : 2 ^ 23 ≤ m) (least : e = -16 → 149 * 2 ^ 16 < m) :
    (FVal.fin true m e).lt (.fin true 149 0) = true := by
  have own : m ≤ m <<< (e - min e 0).toNat := Nat.le_shiftLeft
  have below : 149 <<< (0 - min e 0).toNat < m := by
    by_cases low : e = -16
    · exact Nat.lt_of_le_of_lt (shift_to_min_le 149 16 he) (least low)
    · exact Nat.lt_of_le_of_lt (shift_to_min_le 149 15 (by omega)) (by omega)
  simp only [FVal.lt, FVal.atExp, decide_eq_true_eq, if_true]
  omega

theorem fexp2_overflow {x : F32} (fin : (val32 x).isFinite = true) (pos : x.toNat < 2 ^ 31) (large : 0x43000000 ≤ x.toNat) :
    fexp2 x = 0x7F800000#32 := by
  obtain ⟨m, e, hx, hm, he, -⟩ := val32_finite_large fin (by omega)
  have sign : x.toNat.testBit 31 = false := by rw [testBit_sign]; simp only [decide_eq_false_iff_not]; omega
  rw [sign] at hx
  simp only [fexp2, hx, not_lt_128 hm he, Bool.not_false, if_true, if_neg (show m ≠ 0 by omega)]
  rfl

theorem fexp2_underflow {x : F32} (fin : (val32 x).isFinite = true) (large : 0xC3150000 < x.toNat) : fexp2 x = 0 := by
  have lt := x.isLt
  obtain ⟨m, e, hx, hm, he, bits⟩ := val32_finite_large fin (by omega)
  have sign : x.toNat.testBit 31 = true := by rw [testBit_sign]; simp only [decide_eq_true_eq]; omega
  rw [sign] at hx
  simp only [fexp2, hx, negative_lt_128, negative_lt_149 he hm (by omega), Bool.not_true, Bool.false_eq_true, if_false, if_true,
    if_neg (show m ≠ 0 by omega)]

theorem flog2_frsq_negative {x : F32} (fin : (val32 x).isFinite = true) (neg : 0x80000000 < x.toNat) : flog2 x = nan32 ∧ frsq x = nan32 := by
  obtain ⟨m, e, hx, hm⟩ := val32_finite_negative fin neg
  simp [flog2, frsq, hx, hm]

theorem special_nan {x : F32} (h : (val32 x).isNan = true) : fexp2 x = nan32 ∧ flog2 x = nan32 ∧ frcp x = nan32 ∧ frsq x = nan32 := by
  have hx : val32 x = .nan := by
    cases hv : val32 x with
    | nan => rfl
    | inf s => simp [hv, FVal.isNan] at h
    | fin s m e => simp [hv, FVal.isNan] at h
  simp only [fexp2, flog2, frcp, frsq, hx, and_self]

/-- The 254 powers of two that are normal numbers, one by one. -/
theorem fexp2_normal_power : ∀ k : Fin 254,
    fexp2 (rne32 (FVal.ofInt false ((k.val : Int) - 126) 0)) = BitVec.ofNat 32 ((k.val + 1) * 2 ^ 23) := by
  decide +kernel

theorem fexp2_integer {n : Int} (lo : -126 ≤ n) (hi : n ≤ 127) :
    fexp2 (rne32 (FVal.ofInt false n 0)) = BitVec.ofNat 32 ((n + 127).toNat * 2 ^ 23) := by
  have power := fexp2_normal_power ⟨(n + 126).toNat, by omega⟩
  have back : (((n + 126).toNat : Nat) : Int) - 126 = n := by omega
  have field : (n + 126).toNat + 1 = (n + 127).toNat := by omega
  simp only [back, field] at power
  exact power

/-- The inputs of R69 that are single values, with 1 for exp2 and both infinities. -/
theorem special_values :
    let pinf := 0x7F800000#32
    let ninf := 0xFF800000#32
    let one := 0x3F800000#32
    fexp2 0 = one ∧ fexp2 0x80000000#32 = one ∧ fexp2 one = 0x40000000#32 ∧ flog2 one = 0 ∧ frcp one = one ∧ frsq one = one ∧
    fexp2 pinf = pinf ∧ fexp2 ninf = 0 ∧ flog2 pinf = pinf ∧ flog2 0 = ninf ∧ flog2 0x80000000#32 = ninf ∧ flog2 ninf = nan32 ∧
    frcp pinf = 0 ∧ frcp ninf = 0x80000000#32 ∧ frcp 0 = pinf ∧ frcp 0x80000000#32 = ninf ∧
    frsq pinf = 0 ∧ frsq 0 = pinf ∧ frsq 0x80000000#32 = ninf ∧ frsq ninf = nan32 := by decide +kernel

/-- Settles O11: the single inputs of R69 by evaluation, the ranges beyond exp2's domain and below zero by the value that the bits spell. -/
theorem specialInputs : Obligations.SpecialInputs := by
  unfold Obligations.SpecialInputs
  have ranges := And.intro (@fexp2_overflow) (And.intro (@fexp2_underflow) (And.intro (@flog2_frsq_negative) (And.intro (@special_nan) (@fexp2_integer))))
  simpa only [and_assoc] using And.intro special_values ranges

end Sys2Proof.Machine
end

section
/-!
PROOFS. The writes of CORE_CTRL and CORE_IWIN (R92, R96, R741) and who may make them.
-/
namespace Sys2Proof
namespace Sparse

theorem get_lt_of_wfFrom {α : Type} [DecidableEq α] (d : α) {k : Nat} : ∀ {lo : Nat} {m : Sparse α}, wfFrom d lo m = true → k < lo → get d m k = d
  | _, [], _, _ => rfl
  | lo, (j, v) :: m, wf, hk => by
    simp only [wfFrom, Bool.and_eq_true, decide_eq_true_eq] at wf
    obtain ⟨⟨hj, -⟩, rest⟩ := wf
    rw [get, if_neg (by omega)]
    exact get_lt_of_wfFrom d rest (by omega)

/-- In the canonical form each index is listed once, so that a choice by value among the listed pairs is a choice by what a read gives. -/
theorem get_keepValues {α : Type} [DecidableEq α] (d : α) (q : α → Bool) (f : α → α) (hd : q d = false) (k : Nat) :
    ∀ {lo : Nat} {m : Sparse α}, wfFrom d lo m = true →
      get d ((m.filter (fun e => q e.2)).map (fun e => (e.1, f e.2))) k = if q (get d m k) then f (get d m k) else d
  | lo, [], _ => by simp [get, hd]
  | lo, (j, v) :: m, wf => by
    simp only [wfFrom, Bool.and_eq_true] at wf
    obtain ⟨-, rest⟩ := wf
    have ih := get_keepValues d q f hd k rest
    by_cases hk : k = j
    · subst hk
      have absent : get d m k = d := get_lt_of_wfFrom d rest (Nat.lt_succ_self k)
      rw [absent, hd] at ih
      cases hq : q v with
      | true => simp [get, hq]
      | false => simpa [get, hq] using ih
    · cases hq : q v with
      | true => simpa [get, hk, hq] using ih
      | false => simpa [get, hk, hq] using ih

end Sparse

namespace Machine
namespace State

/-! What the shared operations of these writes leave unchanged. -/

theorem foldl_emit_eq {β : Type} (f : State → β → Out) (xs : List β) : ∀ s : State, ∃ out, xs.foldl (fun s x => s.emit (f s x)) s = { s with out := out } := by
  induction xs with
  | nil => exact fun s => ⟨_, rfl⟩
  | cons x xs ih =>
    intro s
    obtain ⟨out, rest⟩ := ih (s.emit (f s x))
    exact ⟨out, rest⟩

/-- An event reaches management's connections and no other part of the device (R692). -/
theorem pushEvent_eq (s : State) (kind : Nat) (body : List Nat) : ∃ mgmt out, s.pushEvent kind body = { s with mgmt := mgmt, out := out } := by
  obtain ⟨out, sent⟩ := foldl_emit_eq (fun t (c : MgmtConn) => .event c.id s.mgmt.eventSeq t.clock.now kind body) s.mgmt.conns s
  exact ⟨{ s.mgmt with eventSeq := s.mgmt.eventSeq + 1 }, out, by simp only [pushEvent, sent]⟩

@[simp] theorem pushEvent_core (s : State) (kind : Nat) (body : List Nat) (m : Nat) : (s.pushEvent kind body).core m = s.core m := by
  obtain ⟨mgmt, out, h⟩ := s.pushEvent_eq kind body
  rw [h]; rfl

@[simp] theorem pushEvent_crown (s : State) (kind : Nat) (body : List Nat) : (s.pushEvent kind body).crown = s.crown := by
  obtain ⟨mgmt, out, h⟩ := s.pushEvent_eq kind body
  rw [h]

@[simp] theorem pushEvent_quarMap (s : State) (kind : Nat) (body : List Nat) : (s.pushEvent kind body).quarMap = s.quarMap := by
  obtain ⟨mgmt, out, h⟩ := s.pushEvent_eq kind body
  rw [h]

/-- A refused write of management records its code and reports it to the writer (R14, R15, R661). -/
theorem refuse_mgmt_eq (s : State) (conn id addr : Nat) : ∃ errs mgmt boot, s.refuse (.mgmt conn id) addr cCoreReg =
    { s with errs := errs, mgmt := mgmt, boot := boot, out := s.out ++ [.refused (.mgmt conn id) addr cCoreReg] } := ⟨_, _, _, rfl⟩

/-- The quota that the operations of a mover hold is a matter of the partitions alone. -/
theorem foldl_setPart_eq {β : Type} (skip : β → Prop) [DecidablePred skip] (p : β → Nat) (f : State → β → Partition) (xs : List β) :
    ∀ s : State, ∃ keys, xs.foldl (fun s x => if skip x then s else s.setPart (p x) (f s x)) s = { s with keys := keys } := by
  induction xs with
  | nil => exact fun s => ⟨_, rfl⟩
  | cons x xs ih =>
    intro s
    rw [List.foldl_cons]
    split
    · exact ih s
    · obtain ⟨keys, rest⟩ := ih (s.setPart (p x) (f s x))
      exact ⟨keys, rest⟩

/-- The fence of a core's mover takes its operations, the quota they held and the exports they made (R529). -/
theorem fenceMover_eq (s : State) (n : Nat) : ∃ keys host, s.fenceMover n = ({ s with keys := keys, host := host } : State).mapCore n (fun c => { c with mover := [] }) := by
  obtain ⟨keys, quota⟩ := foldl_setPart_eq (fun m : MoverOp => m.tokens = 0 ∨ m.part = 0) MoverOp.part
    (fun s m => { s.part m.part with inflight := (s.part m.part).inflight - 1 }) (s.core n).mover s
  exact ⟨keys, { s.host with exports := s.host.exports.filter (fun x => x.core ≠ n) }, by simp only [fenceMover, quota]⟩

@[simp] theorem fenceMover_core (s : State) (n m : Nat) : (s.fenceMover n).core m = if m = n then { s.core n with mover := [] } else s.core m := by
  obtain ⟨keys, host, h⟩ := s.fenceMover_eq n
  rw [h, core_mapCore]; rfl

@[simp] theorem fenceMover_crown (s : State) (n : Nat) : (s.fenceMover n).crown = s.crown := by
  obtain ⟨keys, host, h⟩ := s.fenceMover_eq n
  rw [h]; rfl

@[simp] theorem fenceMover_quarMap (s : State) (n : Nat) : (s.fenceMover n).quarMap = s.quarMap := by
  obtain ⟨keys, host, h⟩ := s.fenceMover_eq n
  rw [h]; rfl

end State

/-! The commands that write CORE_CTRL and CORE_IWIN, as writes of a core's register. -/

theorem exec_coreEnable (s : State) (cr : BitVec 9) (who : Writer) :
    exec (.coreEnable cr who) s = live s (fun s => s.coreWrite cr who 0 (fun s => s.mapCore cr.toNat Core.enable)) := rfl

theorem exec_coreStop (s : State) (cr : BitVec 9) (who : Writer) :
    exec (.coreStop cr who) s = live s (fun s => s.coreWrite cr who 0 (fun s => s.mapCore cr.toNat Core.stopIssue)) := rfl

theorem exec_coreDrain (s : State) (cr : BitVec 9) (who : Writer) :
    exec (.coreDrain cr who) s = live s (fun s => s.coreWrite cr who 0 (fun s => s.mapCore cr.toNat Core.drain)) := rfl

theorem exec_coreDrained (s : State) (cr : BitVec 9) : exec (.coreDrained cr) s = live s (fun s => s.mapCore cr.toNat Core.settle) := rfl

theorem exec_coreQuar (s : State) (cr : BitVec 9) (who : Writer) :
    exec (.coreQuar cr who true) s = live s (fun s => s.coreWrite cr who 0 (fun s => s.setQuar cr.toNat)) := rfl

theorem exec_coreIwinWrite (s : State) (cr : BitVec 9) (who : Writer) (v : BitVec 32) :
    exec (.coreIwinWrite cr who v) s = live s (fun s => s.coreWrite cr who 8 (fun s => s.writeIwin cr who v)) := rfl

/-- Crown's write takes effect. -/
theorem live_coreWrite_crown (s : State) (cr : BitVec 9) (off : Nat) (f : State → State) (h : s.halt = none) :
    live s (fun s => s.coreWrite cr .crown off f) = .next (f s) := live_running s h _

theorem Core.note_coreReg (c : Core) : c.note cCoreReg = { c with ctl := { c.ctl with lastCode := 0x1006 } } := by
  simp [Core.note, Core.withCtl, cCoreReg]

/-- What a write that is not the writer's to make leaves (R92): 0x1006 in LAST_CODE of the core and in the report to the writer, and no other core changed. -/
def State.CoreDenied (s t : State) (n : Nat) (who : Writer) : Prop :=
  t.core n = { s.core n with ctl := { (s.core n).ctl with lastCode := 0x1006 } } ∧
  (∀ k, k ≠ n → t.core k = s.core k) ∧ t.quarMap = s.quarMap ∧ t.mem = s.mem ∧ ∃ a, t.out = s.out ++ [.refused who a 0x1006]

theorem live_coreWrite_mgmt (s : State) (cr : BitVec 9) (conn id off : Nat) (f : State → State) (h : s.halt = none) :
    ∃ t, live s (fun s => s.coreWrite cr (.mgmt conn id) off f) = .next t ∧ s.CoreDenied t cr.toNat (.mgmt conn id) := by
  obtain ⟨errs, mgmt, boot, refused⟩ := s.refuse_mgmt_eq conn id (coreAddr cr.toNat off)
  have written : s.coreWrite cr (.mgmt conn id) off f = (s.refuse (.mgmt conn id) (coreAddr cr.toNat off) cCoreReg).mapCore cr.toNat (fun c => c.note cCoreReg) := rfl
  refine ⟨_, live_running s h _, ?_⟩
  rw [written, refused]
  refine ⟨?_, fun k hk => ?_, rfl, rfl, _, rfl⟩
  · rw [State.core_mapCore, if_pos rfl, Core.note_coreReg]
    rfl
  · rw [State.core_mapCore, if_neg hk]
    rfl

namespace Core

/-! What each write makes of its core. -/

theorem enable_of_stopped {c : Core} (quar : c.ctl.quar = false) (off : c.ctl.enable = false) : c.enable = { c with
    ctl := { c.ctl with enable := true, draining := false, ending := false, stopping := none, waiting := false,
                        run := if c.ctl.run = .asleep then .asleep else .running },
    spec := { c.spec with cycle := 0, retired := 0 } } := by simp [enable, quar, off]

theorem enable_of_quar {c : Core} (quar : c.ctl.quar = true) : c.enable = c := by simp [enable, quar]

theorem stopIssue_of_running {c : Core} (on : c.ctl.enable = true) (run : c.ctl.run = .running) : c.stopIssue = { c with
    ctl := { c.ctl with enable := false, waiting := false, ending := false, run := if c.drained then .idle else .draining } } := by
  simp [stopIssue, on, run, withCtl]

theorem drain_of_running {c : Core} (run : c.ctl.run = .running) : c.drain = { c with ctl := { c.ctl with draining := true, run := .draining } } := by
  simp [drain, run, withCtl]

theorem settle_of_drained {c : Core} (run : c.ctl.run = .draining) (drained : c.drained = true) (mover : c.mover = []) :
    c.settle = { c with ctl := { c.ctl with run := .idle, draining := false, enable := false } } := by
  simp [settle, run, drained, mover, withCtl]

end Core

namespace State

/-- The device once a core has been quarantined: its map is marked, and management is told (R741, R692). -/
def quarantined (s : State) (n : Nat) : State :=
  (({ s with quarMap := s.quarMap ||| 1#512 <<< n } : State).mapCore n Core.quarantine).pushEvent 8 [n / 32, n % 32]

theorem quarantined_core (s : State) (n m : Nat) : (s.quarantined n).core m = if m = n then (s.core n).quarantine else s.core m := by
  rw [quarantined, pushEvent_core, core_mapCore]; rfl

/-- Quarantine of a core with no stream (R741). -/
theorem setQuar_unplaced {s : State} {n : Nat} (quar : (s.core n).ctl.quar = false) (unplaced : s.placedOn n = false) : s.setQuar n = s.quarantined n := by
  simp [setQuar, quar, unplaced, quarantined]

/-- Quarantine of a core with a stream placed: its mover is fenced and Crown is told, as of a persistent error (R360, R740). -/
theorem setQuar_placed {s : State} {n : Nat} (quar : (s.core n).ctl.quar = false) (placed : s.placedOn n = true) :
    s.setQuar n = ((s.quarantined n).fenceMover n).onCrown (fun c => { c with escalations := c.escalations ++ [(n, 0x1013, true)] }) := by
  simp only [setQuar, quar, placed, Bool.not_false, Bool.and_self, if_true, Bool.false_eq_true, if_false]
  rfl

/-- The device after such a quarantine, part by part. -/
theorem setQuar_placed_frame {s : State} {n : Nat} (quar : (s.core n).ctl.quar = false) (placed : s.placedOn n = true) :
    (s.setQuar n).core n = { (s.core n).quarantine with mover := [] } ∧ (∀ k, k ≠ n → (s.setQuar n).core k = s.core k) ∧
    (s.setQuar n).quarMap = s.quarMap ||| 1#512 <<< n ∧
    (s.setQuar n).crown = { s.crown with escalations := s.crown.escalations ++ [(n, 0x1013, true)] } := by
  rw [setQuar_placed quar placed]
  refine ⟨?_, fun k hk => ?_, ?_, ?_⟩
  · exact (fenceMover_core _ n n).trans (by rw [if_pos rfl, quarantined_core, if_pos rfl])
  · exact (fenceMover_core _ n k).trans (by rw [if_neg hk, quarantined_core, if_neg hk])
  · simp [quarantined]
  · simp [onCrown, quarantined]

/-- An accepted write of CORE_IWIN with nothing unretired (R92, R96): no contents are lost. -/
theorem writeIwin_of_empty {s : State} {cr : BitVec 9} {v : BitVec 32} (who : Writer) (good : (s.core cr.toNat).iwinBad v = false)
    (unret : (s.core cr.toNat).unret = []) : s.writeIwin cr who v = s.mapCore cr.toNat (fun c => c.setWindow v) := by
  simp [writeIwin, good, Core.lostLines, Core.lostTiles, unret, freeLines, freeTiles]

end State

namespace Core

theorem iwinBad_of_inside {c : Core} {v : BitVec 32} (off : c.ctl.enable = false) (mover : c.mover = []) (bits : v.toNat < 2 ^ 28)
    (inside : (v.extractLsb' 0 14).toNat + (v.extractLsb' 14 14).toNat ≤ 16383) : c.iwinBad v = false := by
  have fields : bitsNat v.toNat 13 0 + bitsNat v.toNat 27 14 ≤ 16383 := by
    simpa [bitsNat, BitVec.extractLsb'_toNat] using inside
  simp [iwinBad, off, mover]
  omega

/-- A register that an accepted write of CORE_IWIN clears reads zero (R96). -/
theorem lane_setWindow (c : Core) (v : BitVec 32) (i : Nat) {l : Nat} (hl : l < 256) : (c.setWindow v).lane i l = 0 := by
  unfold lane getV
  rw [Sparse.getD_getRun 0 _ _ _ _ hl]
  rfl

theorem getP_setWindow (c : Core) (v : BitVec 32) {i : Nat} (hi : 0 < i) : (c.setWindow v).getP i = 0 := by
  rw [getP, if_neg (by omega)]
  rfl

/-- Poison outlives the chains (R86). -/
theorem poisoned_setWindow {c : Core} (v : BitVec 32) (wf : Sparse.wf Chain.none c.chains = true) (k : Nat) : (c.setWindow v).poisoned k = c.poisoned k := by
  have kept := Sparse.get_keepValues Chain.none Chain.poison (fun _ => { Chain.none with poison := true }) rfl k wf
  have same : (c.setWindow v).chain k = if (c.chain k).poison then { Chain.none with poison := true } else Chain.none := kept
  unfold poisoned
  rw [same]
  cases (c.chain k).poison <;> rfl

end Core

/-- Settles O20: each write of Crown by what it makes of the core, a write of management by the refusal that every register of a core shares. -/
theorem coreControl : Obligations.CoreControl := by
  unfold Obligations.CoreControl
  refine ⟨fun s cr running => ?_, fun s cr conn id v running => ?_, fun s cr v running => ?_⟩
  · extract_lets c
    have crown := fun off f => live_coreWrite_crown s cr off f running
    refine ⟨fun quar off => ?_, fun quar => ?_, fun on run drained => ?_, fun on run busy => ?_, fun run => ?_, fun run drained mover => ?_,
      fun quar unplaced => ?_, fun quar placed => ?_⟩
    · rw [exec_coreEnable, crown, State.mapCore, Core.enable_of_stopped quar off]
    · rw [exec_coreEnable, crown, State.mapCore, Core.enable_of_quar quar]
    · rw [exec_coreStop, crown, State.mapCore, Core.stopIssue_of_running on run, if_pos drained]
    · rw [exec_coreStop, crown, State.mapCore, Core.stopIssue_of_running on run, if_neg (by simp [c, busy])]
    · rw [exec_coreDrain, crown, State.mapCore, Core.drain_of_running run]
    · rw [exec_coreDrained, live_running s running, State.mapCore, Core.settle_of_drained run drained mover]
    · rw [exec_coreQuar, crown, State.setQuar_unplaced quar unplaced]
      rfl
    · obtain ⟨own, others, map, told⟩ := State.setQuar_placed_frame quar placed
      exact ⟨_, by rw [exec_coreQuar, crown], by rw [own]; rfl, by rw [own], map, told, others⟩
  · intro who denied
    have mgmt := fun off f => live_coreWrite_mgmt s cr conn id off f running
    exact ⟨mgmt _ _, mgmt _ _, mgmt _ _, mgmt _ _, mgmt _ _⟩
  · intro c off mover unret bits inside
    have good := Core.iwinBad_of_inside off mover bits inside
    refine ⟨c.setWindow v, ?_, rfl, rfl, rfl, rfl, fun i => ⟨rfl, rfl, rfl⟩, fun i _ l hl => c.lane_setWindow v i hl, fun i hi => c.getP_setWindow v hi, rfl,
      rfl, rfl, rfl, rfl, rfl, rfl, rfl, Core.poisoned_setWindow v⟩
    rw [exec_coreIwinWrite, live_coreWrite_crown s cr 8 _ running, State.writeIwin_of_empty .crown good unret]
    rfl

end Machine
end Sys2Proof
end

section
/-!
PROOFS. How instructions retire, how an error stops a core, and how a re-fill of a square-buffer slot ends (R74, R84, R85, R151).
-/
namespace Sys2Proof

/-- A key whose pairs have been taken out has no value. -/
theorem assocGet_filter_ne {κ α : Type} [DecidableEq κ] (m : List (κ × α)) (k : κ) : assocGet (m.filter (fun e => e.1 ≠ k)) k = none := by
  simp [assocGet, List.find?_eq_none]

namespace Machine
namespace Core

theorem retire_of_due {c : Core} {u : Unretired} (only : c.unret = [u]) (held : u.held = false) (redo : u.redo = none) :
    c.retire u.isTile u.id = { c with unret := [], spec := { c.spec with retired := c.spec.retired + 1 } } := by
  simp [retire, only, held, redo]

theorem retire_of_held {c : Core} {u : Unretired} (only : c.unret = [u]) (held : u.held = true) (isTile : Bool) (id : Nat) : c.retire isTile id = c := by
  simp [retire, only, held]

theorem stopOnError_of_drained {c : Core} {k : StopCause} (stop : c.ctl.stopping = some k) (on : c.ctl.enable = true) (drained : c.drained = true) :
    c.stopOnError = (c.note k.code).withCtl (fun x => { x with run := .stopped, enable := false, draining := false }) := by
  simp [stopOnError, stop, on, drained]

/-- With nothing unretired no work has been held back for a re-fill (R85). -/
theorem redoAll_of_empty {c : Core} (unret : c.unret = []) (k : Nat) (seed : Bytes) : c.redoAll k seed = c.quiet := by
  simp [redoAll, unret]

theorem holdAll_of_empty {c : Core} (unret : c.unret = []) (k : Nat) : c.holdAll k = c := by
  simp [holdAll, unret]

theorem refillClear_of_empty {c : Core} (unret : c.unret = []) (k : Nat) : c.refillClear k = true := by
  simp [refillClear, unret]

/-- The core that a lost re-fill leaves where it was the only one (R85): the slot counts as produced, and issue stops for 0x1004. -/
theorem refillLost_of_only {c : Core} {k : Nat} (only : c.refills = [k]) (unret : c.unret = []) (stop : c.ctl.stopping = none) :
    (c.refillLost k).core.refills = [] ∧ (c.refillLost k).core.clean = c.clean.filter (fun e => e.1 ≠ k) ∧
    (c.refillLost k).core.ctl.stopping = some ⟨0x1004, if c.ctl.errLine / 32 = k then c.ctl.errLine else 32 * k⟩ ∧ (c.refillLost k).core.sqb = c.sqb := by
  simp [refillLost, holdAll_of_empty unret, only, parityLost, stopBack, stopWith, note, withCtl, stop]

end Core

namespace State

theorem putCore_core (s : State) (n : Nat) (r : CoreRes) (m : Nat) : (s.putCore n r).core m = if m = n then r.core else s.core m := by
  obtain ⟨errs, mgmt, boot, h⟩ := s.putCore_eq n r
  rw [h]
  exact core_setCore s n m r.core

@[simp] theorem putCore_mem (s : State) (n : Nat) (r : CoreRes) : (s.putCore n r).mem = s.mem := (OnlyCore.putCore s n r).mem

section RefillFromAfar
variable {s : State} {n k : Nat} {src : BitVec 64} (only : (s.core n).refills = [k]) (clean : assocGet (s.core n).clean k = some src)
  (unret : (s.core n).unret = []) (clear : s.firstCheck (s.core n).spec.part.toNat (MoverOp.plain 0xC0 src 2048) = none) (chip : bitsNat src.toNat 62 50 ≠ s.chip)
include only clean unret clear chip

/-- A re-fill whose bytes have come is written to its slot, which stays clean, and 0x1003 is recorded. -/
theorem refillLanded_got {data : Bytes} (size : data.length = 2048) : ∃ log, s.refillLanded n (some data) =
    s.putCore n ⟨({ s.core n with sqb := Sparse.setRun 0 (s.core n).sqb (2048 * k) data, refills := [] } : Core).note 0x1003, log⟩ := by
  have away : (MoverOp.plain 0xC0 src 2048).chip ≠ s.chip := chip
  have bytes : s.refillBytes n src (some data) = .got s data := by
    simp only [refillBytes, clear, away, ne_eq, not_false_eq_true, true_or, if_true]
    rw [← size, List.take_left]
  refine ⟨[(0x1003, (s.core n).consumer k, (s.core n).ctl.errLine)], ?_⟩
  simp only [refillLanded, only, List.head?_cons, clean, Core.refillClear_of_empty unret, Bool.not_true, Bool.false_eq_true, if_false, bytes,
    List.erase_cons_head]
  rw [Core.redoAll_of_empty]
  · rfl
  · exact unret

/-- One that fails is lost. -/
theorem refillLanded_failed : s.refillLanded n none = s.putCore n ((s.core n).refillLost k) := by
  have away : (MoverOp.plain 0xC0 src 2048).chip ≠ s.chip := chip
  have bytes : s.refillBytes n src none = .failed s := by
    simp only [refillBytes, clear, away, ne_eq, not_false_eq_true, true_or, if_true]
  simp only [refillLanded, only, List.head?_cons, clean, Core.refillClear_of_empty unret, Bool.not_true, Bool.false_eq_true, if_false, bytes]

end RefillFromAfar
end State

/-! The commands as the functions of one core that they apply. -/

theorem exec_tileRetire (s : State) (cr : BitVec 9) (id : Nat) (h : s.halt = none) :
    exec (.tileRetire cr id) s = .next (s.setCore cr.toNat ((s.core cr.toNat).retire true id)) := live_running s h (fun s => s.mapCore cr.toNat (fun c => c.retire true id))

theorem exec_vectorRetire (s : State) (cr : BitVec 9) (id : Nat) (h : s.halt = none) :
    exec (.vectorRetire cr id) s = .next (s.setCore cr.toNat ((s.core cr.toNat).retire false id)) := live_running s h (fun s => s.mapCore cr.toNat (fun c => c.retire false id))

theorem exec_coreStopOnError (s : State) (cr : BitVec 9) (h : s.halt = none) :
    exec (.coreStopOnError cr) s = .next (s.setCore cr.toNat (s.core cr.toNat).stopOnError) := live_running s h (fun s => s.mapCore cr.toNat Core.stopOnError)

theorem exec_moverBoost (s : State) (cr : BitVec 9) (slot : BitVec 6) (h : s.halt = none) (taken : (s.core cr.toNat).mover.any (fun m => m.slot = slot.toNat) = true) :
    exec (.moverBoost cr slot) s = .next (s.setCore cr.toNat ((s.core cr.toNat).withCtl (fun k => { k with boosted := some slot.toNat }))) := by
  show execMoverBoost cr slot s = _
  simp only [execMoverBoost, live_running s h, State.mapCore, taken, if_true]

theorem exec_sqbRefillLanded (s : State) (cr : BitVec 9) (far : Option Bytes) (h : s.halt = none) :
    exec (.sqbRefillLanded cr far) s = .next (s.refillLanded cr.toNat far).drainEngine := liveEng_running s h (fun s => s.refillLanded cr.toNat far)

/-- Settles O21: retirement and stops by what they make of the core, a re-fill by whether its source has answered. -/
theorem retirementAndStops : Obligations.RetirementAndStops := by
  unfold Obligations.RetirementAndStops
  refine ⟨fun s cr u running => ?_, fun s cr k src data calm => ?_⟩
  · intro c
    refine ⟨fun only held redo isTile => ?_, fun only held redo isTile => ?_, fun only held => ⟨?_, ?_⟩, fun slot taken => exec_moverBoost s cr slot running taken,
      fun k stop on drained => ?_⟩
    · rw [exec_tileRetire s cr u.id running, ← isTile, Core.retire_of_due only held redo]
    · rw [exec_vectorRetire s cr u.id running, ← isTile, Core.retire_of_due only held redo]
    · rw [exec_tileRetire s cr u.id running, Core.retire_of_held only held]
    · rw [exec_vectorRetire s cr u.id running, Core.retire_of_held only held]
    · exact ⟨_, exec_coreStopOnError s cr running, by rw [Core.stopOnError_of_drained stop on drained]; exact ⟨rfl, rfl, rfl, rfl⟩⟩
  · intro c chip only clean unret stop away size clear
    obtain ⟨running, engine⟩ := calm
    constructor
    · obtain ⟨log, landed⟩ := State.refillLanded_got only clean unret clear away size
      refine ⟨_, exec_sqbRefillLanded s cr _ running, ?_⟩
      rw [landed, State.drainEngine_nil _ (by rw [State.putCore_mem, engine]), State.putCore_core, if_pos rfl]
      refine ⟨?_, rfl, clean, rfl, State.putCore_mem s _ _⟩
      have back := Sparse.getRun_setRun_same 0 c.sqb (2048 * k) data
      rwa [size] at back
    · obtain ⟨refills, slots, stopped, sqb⟩ := Core.refillLost_of_only only unret stop
      refine ⟨_, exec_sqbRefillLanded s cr _ running, ?_⟩
      rw [State.refillLanded_failed only clean unret clear away, State.drainEngine_nil _ (by rw [State.putCore_mem, engine]), State.putCore_core, if_pos rfl]
      exact ⟨refills, by rw [slots, assocGet_filter_ne], stopped, sqb, State.putCore_mem s _ _⟩

end Machine
end Sys2Proof
end

section
/-!
PROOFS. Move instructions at issue, and the stages of a mover operation (R138 to R140, R507, R510, R512 to R516, R522, R524).
-/
namespace Sys2Proof
namespace Sparse
variable {α : Type}

theorem erase_insert (k : Nat) (v : α) : ∀ m : Sparse α, erase (insert m k v) k = erase m k
  | [] => by simp [insert, erase]
  | (j, w) :: m => by
    have ih := erase_insert k v m
    simp only [erase] at ih
    rw [insert]
    split
    · simp [erase]
    · split
      · next hk => simp [erase, hk]
      · simp only [erase, List.filter_cons, ih]

theorem erase_erase (m : Sparse α) (k : Nat) : erase (erase m k) k = erase m k := by simp [erase]

/-- The later of two writes at one index stands alone. -/
theorem set_set [DecidableEq α] (d : α) (m : Sparse α) (k : Nat) (v w : α) : set d (set d m k v) k w = set d m k w := by
  have gone : erase (set d m k v) k = erase m k := by
    unfold set
    split
    · exact erase_erase m k
    · rw [erase_insert, erase_erase]
  rw [set, gone, set]

end Sparse

namespace Machine
namespace State

theorem setCore_setCore (s : State) (n : Nat) (c d : Core) : (s.setCore n c).setCore n d = s.setCore n d := by
  simp only [setCore, Sparse.set_set]

/-- An instruction that a core may try, and that then waits for nothing, leaves its result (R72). -/
theorem onInstr_issued {s : State} {cr : BitVec 9} {w : Waits} {op : Nat} {f : BitVec 56} (h : s.issues cr w op f) {g : Core → CoreRes} {c : Core}
    (issued : g (s.core cr.toNat) = c.quiet) (goesOn : c.ctl.waiting = false) : s.onInstr cr (opWord op f) g = s.setCore cr.toNat c := by
  obtain ⟨running, -, -, -, -, turn⟩ := h
  rw [onInstr_running s running, Core.holding_issued _ _ _ turn (.inl (by rw [issued]; exact goesOn)), issued, putCore_quiet]

end State

namespace Core

theorem freeSlot_of_least {c : Core} {i : Nat} (hi : i < 64) (taken : ∀ k, k < i → c.mover.any (fun m => m.slot = k) = true)
    (free : c.mover.any (fun m => m.slot = i) = false) : c.freeSlot = some i := by
  unfold freeSlot
  rw [List.find?_range_eq_some]
  refine ⟨by rw [free]; rfl, List.mem_range.mpr hi, fun k hk => by rw [taken k hk]; rfl⟩

/-- The core once a move instruction has taken slot `i` (R140). -/
def takeSlot (c : Core) (op : Nat) (f : Opnd) (w : Waits) (i : Nat) : Core :=
  { c.advance w true with
    nextOrder := c.nextOrder + 1
    mover := c.mover ++ [
      { slot := i, order := c.nextOrder, op := op, af := c.getA f.mAf, al := c.getA f.mAl, as_ := c.getA f.mAs, cc := f.mCc, len := c.moveLen op f,
        relax := f.mRelax, dtype := f.mDtype, sv := c.getS f.mSv, sw := c.getS f.mSw, job := f.mJob, index := c.ctl.pc, slotno := c.spec.slotno,
        stage := .waiting, status := 0, code := 0, failAt := 0, owed := 0, signalOwed := decide (op = 0xC2), tokens := 0, floored := false,
        progress := 0, reqs := [] }] }

end Core

/-- A move instruction with good operands takes the free slot (R78, R140). -/
theorem State.onInstr_issueMove {s : State} {cr : BitVec 9} {w : Waits} {op : Nat} {f : BitVec 56} {i : Nat} (h : s.issues cr w op f)
    (free : (s.core cr.toNat).freeSlot = some i) (good : lowestCode ((s.core cr.toNat).moveBreaches op f) = none) :
    s.onInstr cr (opWord op f) (Core.issueMove op f w) = s.setCore cr.toNat ((s.core cr.toNat).takeSlot op f w i) := by
  refine onInstr_issued h ?_ rfl
  obtain ⟨-, may, inside, parity, whole, -⟩ := h
  have later : ((s.core cr.toNat).advance w true).freeSlot = some i := free
  rw [Core.issueMove, Core.issue_ready _ w true _ _ _ may inside parity good whole (by rw [free]; rfl)]
  simp only [later]
  rfl

namespace State

/-! Reads after an operation of the mover has changed. -/

theorem onOp_of_only {s : State} {n slot : Nat} {m : MoverOp} (only : (s.core n).mover = [m]) (here : m.slot = slot) (f : MoverOp → MoverOp) :
    s.onOp n slot f = s.setCore n { s.core n with mover := [f m] } := by
  simp [onOp, mapCore, only, here]

theorem moverOp_of_only {s : State} {n slot : Nat} {m : MoverOp} (only : (s.core n).mover = [m]) (here : m.slot = slot) : s.moverOp n slot = some m := by
  simp [moverOp, only, here]

@[simp] theorem onOp_mover (s : State) (n slot : Nat) (f : MoverOp → MoverOp) :
    ((s.onOp n slot f).core n).mover = (s.core n).mover.map (fun m => if m.slot = slot then f m else m) := by simp [onOp]

@[simp] theorem onOp_mem (s : State) (n slot : Nat) (f : MoverOp → MoverOp) : (s.onOp n slot f).mem = s.mem := rfl
@[simp] theorem onOp_net (s : State) (n slot : Nat) (f : MoverOp → MoverOp) : (s.onOp n slot f).net = s.net := rfl
@[simp] theorem onOp_link (s : State) (n slot : Nat) (f : MoverOp → MoverOp) (j : Nat) : (s.onOp n slot f).link j = s.link j := rfl

@[simp] theorem queueOn_core (s : State) (j type part cls dst : Nat) (opw : BitVec 64) (payload : Bytes) (n : Nat) :
    (s.queueOn j type part cls dst opw payload).core n = s.core n := rfl
@[simp] theorem queueOn_mem (s : State) (j type part cls dst : Nat) (opw : BitVec 64) (payload : Bytes) :
    (s.queueOn j type part cls dst opw payload).mem = s.mem := rfl

theorem queueOn_length (s : State) (j type part cls dst : Nat) (opw : BitVec 64) (payload : Bytes) :
    ((s.queueOn j type part cls dst opw payload).link j).queue.length = (s.link j).queue.length + 1 := by simp [queueOn]

/-- A code that an operation raises leaves the parts that it does not write to (R822). -/
theorem raiseOp_eq (s : State) (n : Nat) (m : MoverOp) (code : Nat) :
    ∃ errs mgmt boot, s.raiseOp n m code = { s with errs := errs, mgmt := mgmt, boot := boot } := by
  unfold raiseOp
  extract_lets part
  split
  · exact s.raise_eq ..
  · exact s.raise_eq ..
  · exact s.raise_eq ..
  · exact s.raise_eq ..
  · exact ⟨_, _, _, rfl⟩

@[simp] theorem raiseOp_core (s : State) (n : Nat) (m : MoverOp) (code k : Nat) : (s.raiseOp n m code).core k = s.core k := by
  obtain ⟨errs, mgmt, boot, h⟩ := s.raiseOp_eq n m code
  rw [h]; rfl

@[simp] theorem raiseOp_mem (s : State) (n : Nat) (m : MoverOp) (code : Nat) : (s.raiseOp n m code).mem = s.mem := by
  obtain ⟨errs, mgmt, boot, h⟩ := s.raiseOp_eq n m code
  rw [h]

@[simp] theorem raiseOp_net (s : State) (n : Nat) (m : MoverOp) (code : Nat) : (s.raiseOp n m code).net = s.net := by
  obtain ⟨errs, mgmt, boot, h⟩ := s.raiseOp_eq n m code
  rw [h]

theorem withdrawOp_eq (s : State) (n : Nat) (m : MoverOp) : ∃ net, s.withdrawOp n m = { s with net := net } := by
  unfold withdrawOp
  refine List.foldlRecOn _ _ (motive := fun t : State => ∃ net, t = { s with net := net }) ⟨_, rfl⟩ ?_
  rintro _ ⟨net, rfl⟩ j -
  exact ⟨_, rfl⟩

@[simp] theorem withdrawOp_core (s : State) (n : Nat) (m : MoverOp) (k : Nat) : (s.withdrawOp n m).core k = s.core k := by
  obtain ⟨net, h⟩ := s.withdrawOp_eq n m
  rw [h]; rfl

@[simp] theorem withdrawOp_mem (s : State) (n : Nat) (m : MoverOp) : (s.withdrawOp n m).mem = s.mem := by
  obtain ⟨net, h⟩ := s.withdrawOp_eq n m
  rw [h]

/-- An operation refused before anything has left, with a status that is no loss on the way, is done with that status (R507). -/
theorem refuseOp_frame {s : State} {n : Nat} {m : MoverOp} (only : (s.core n).mover = [m]) {status : Nat} (kept : status ≠ 5) (code : Nat) :
    ((s.refuseOp n m status code).core n).mover = [m.refuse status code] ∧ (s.refuseOp n m status code).net = s.net ∧
    (s.refuseOp n m status code).mem = s.mem := by
  simp [refuseOp, kept, only]

/-! An operation leaves its slot. -/

section Start
variable {s : State} {n slot : Nat} {ev : List MemEvent} {m : MoverOp} (only : (s.core n).mover = [m]) (here : m.slot = slot) (waiting : m.stage = .waiting)
  (refills : (s.core n).refills = []) (unret : (s.core n).unret = []) (sound : (s.core n).sendLost m = false) (atRest : s.ckpt.atRest = 0)
include only here waiting refills unret sound atRest

/-- A FENCE with nothing of its scope before it is done, or goes on to the quota stage (R510, R522). -/
theorem moverStart_fence (fence : m.op = 0xC6) :
    s.moverStart n slot ev = s.onOp n slot (fun x => { x with stage := if m.dtype = 0 ∧ m.chip ≠ s.chip then .quota else .done }) := by
  have clear : moverClear (s.core n) m = true := by simp [moverClear, unret]
  have first : moverHeld (s.core n) s.chip m = false := by simp [moverHeld, only]
  have opens : fenceOpen (s.core n) m = true := by simp [fenceOpen, only]
  simp [moverStart, moverOp_of_only only here, waiting, refills, clear, first, opens, sound, atRest, MoverOp.isFence, fence]

/-- An operation toward another chip whose first checks pass goes on to the quota stage (R507, R522). -/
theorem moverStart_away (progress : m.progress = 0) (owed : m.owed = 0) (notFence : m.op ≠ 0xC6) (source : Core.sendFault m ev = none)
    (checks : s.firstCheck (s.core n).spec.part.toNat m = none) (away : m.chip ≠ s.chip) :
    s.moverStart n slot ev = s.onOp n slot (fun m => { m with stage := .quota }) := by
  have clear : moverClear (s.core n) m = true := by simp [moverClear, unret]
  have first : moverHeld (s.core n) s.chip m = false := by simp [moverHeld, only]
  simp [moverStart, moverOp_of_only only here, waiting, refills, clear, first, sound, atRest, MoverOp.isFence, notFence, progress, owed, source, checks, away]

end Start

/-! The quota stage and the end of an operation. -/

/-- An operation that ends with status OK writes no record (R516). -/
theorem recordBlocked_of_ok (c : Core) {m : MoverOp} (status : m.status = 0) : recordBlocked c m = false := by
  unfold recordBlocked
  split
  · rfl
  · simp [status]

section Stages
variable {s : State} {n slot : Nat} {m : MoverOp} (only : (s.core n).mover = [m]) (here : m.slot = slot)
include only here

/-- An atomic of partition 0 passes the quota stage onto its channel's link (R522, R525). -/
theorem quotaPass_atomic {ns j : Nat} (quota : m.stage = .quota) (part : m.part = 0) (host : m.inHost = false) (op : m.op = 0xC4)
    (link : s.chooseLink m.chip (channelHash n m.part) = some j) (decl : s.partDecl 0 = none) :
    s.quotaPass n slot ns = (s.onOp n slot (fun x => { x with tokens := max (quotaTokens x) 1 })).sendOp n m j := by
  have behind : quotaBehind (s.core n) m = false := by simp [quotaBehind, only]
  have still : s.addTokens 0 ns = s := by simp [addTokens, decl]
  rw [part] at link
  have again : (s.onOp n slot (fun x => { x with tokens := max (quotaTokens x) 1 })).chooseLink m.chip (channelHash n 0) = some j := link
  simp [quotaPass, moverOp_of_only only here, part, still, quota, behind, quotaOpen, MoverOp.isFence, op, host, again]

omit only here in
/-- An atomic's one frame and the request that its reply closes (R525). -/
theorem sendOp_atomic_frame {x : MoverOp} {j : Nat} (only : (s.core n).mover = [x]) (here : x.slot = m.slot) (op : m.op = 0xC4) (signal : m.signalOwed = false) :
    ((s.sendOp n m j).core n).mover = [{ x with reqs := x.reqs ++ [⟨m.chip, 0, x.len⟩], progress := x.len, stage := .passed }] ∧
    ((s.sendOp n m j).link j).queue.length = (s.link j).queue.length + 1 ∧ (s.sendOp n m j).mem = s.mem := by
  simp [sendOp, MoverOp.isAtomic, op, signal, sendAtomic, queueOn_length, only, here]

/-- An operation that is done with nothing wrong and on time completes (R512, R514, R516). -/
theorem complete_ok {us : Nat} (done : m.stage = .done) (status : m.status = 0) (floored : m.floored = false) (part : m.part = 0)
    (onTime : us ≤ s.regField (ctl 0x000E 0x100) 23 12) (room : (s.core n).getCc m.cc ≠ BitVec.allOnes 32) :
    s.complete n slot us = s.setCore n { s.core n with mover := [], cc := Sparse.set 0 (s.core n).cc m.cc ((s.core n).getCc m.cc + 1) } := by
  have first : completionHeld (s.core n) m = false := by simp [completionHeld, only]
  have onTime' : ¬ s.regField (ctl 0x000E 0x100) 23 12 < us := Nat.not_lt.mpr onTime
  have room' : ¬ (s.core n).getCc m.cc = 4294967295#32 := room
  subst here
  simp [complete, moverOp_of_only only rfl, done, status, floored, part, first, recordBlocked_of_ok, onTime', mapCore, only, room', Core.setCc, setCore_setCore]

theorem hostTransfer_of_done {blocks : List HostBlock} (done : m.stage = .done) : s.hostTransfer n slot blocks = s := by
  simp [hostTransfer, moverOp_of_only only here, done]

end Stages
end State

/-! The commands of the mover. -/

/-- With no operation boosted the start of one takes no boost away (R60). -/
theorem exec_moverOpStart (s : State) (cr : BitVec 9) (slot : BitVec 6) (ev : List MemEvent) (running : s.halt = none) (unboosted : (s.core cr.toNat).ctl.boosted = none) :
    exec (.moverOpStart cr slot ev) s = .next ((s.setCore cr.toNat (s.core cr.toNat)).moverStart cr.toNat slot.toNat ev).drainEngine := by
  have same : (s.core cr.toNat).withCtl (fun k => { k with boosted := if k.boosted = some slot.toNat then none else k.boosted }) = s.core cr.toNat := by
    have kept : (if (s.core cr.toNat).ctl.boosted = some slot.toNat then none else (s.core cr.toNat).ctl.boosted) = (s.core cr.toNat).ctl.boosted := by simp [unboosted]
    simp only [Core.withCtl, kept]
  show execMoverOpStart cr slot ev s = _
  simp only [execMoverOpStart, liveEng_running s running, State.mapCore, same]

theorem exec_quotaStagePass (s : State) (cr : BitVec 9) (slot : BitVec 6) (ns : Nat) (running : s.halt = none) :
    exec (.quotaStagePass cr slot ns) s = .next (s.quotaPass cr.toNat slot.toNat ns).drainEngine := liveEng_running s running (fun s => s.quotaPass cr.toNat slot.toNat ns)

theorem exec_rmoQuota {s : State} {cr : BitVec 9} {slot : BitVec 6} {m : MoverOp} (running : s.halt = none) (only : (s.core cr.toNat).mover = [m]) (here : m.slot = slot.toNat)
    (quota : m.stage = .quota) (part : m.part ≠ 0) : exec (.rmoQuota cr slot) s = .next (s.refuseOp cr.toNat m 2 0x3101).drainEngine := by
  show execRmoQuota cr slot s = _
  simp [execRmoQuota, liveEng_running s running, State.moverOp_of_only only here, quota, part]

theorem exec_rmoLifetime {s : State} {cr : BitVec 9} {slot : BitVec 6} {m : MoverOp} (running : s.halt = none) (only : (s.core cr.toNat).mover = [m]) (here : m.slot = slot.toNat)
    (stays : m.stage = .waiting ∨ m.stage = .quota ∨ m.stage = .passed) (notFence : m.op ≠ 0xC6) (host : m.inHost = false) (away : m.chip ≠ s.chip)
    (unsent : m.reqs.length ≤ s.unsent cr.toNat m) :
    exec (.rmoLifetime cr slot) s = .next ((s.withdrawOp cr.toNat m).refuseOp cr.toNat m 3 0x3106).drainEngine := by
  show execRmoLifetime cr slot s = _
  simp [execRmoLifetime, liveEng_running s running, State.moverOp_of_only only here, MoverOp.isFence, notFence, host, away, stays, Nat.not_lt.mpr unsent]

theorem exec_moverOpComplete (s : State) (cr : BitVec 9) (slot : BitVec 6) (us : Nat) (blocks : List HostBlock) (running : s.halt = none) :
    exec (.moverOpComplete cr slot us blocks) s = .next ((s.hostTransfer cr.toNat slot.toNat blocks).complete cr.toNat slot.toNat us).drainEngine :=
  liveEng_running s running (fun s => (s.hostTransfer cr.toNat slot.toNat blocks).complete cr.toNat slot.toNat us)

/-- Settles O16: issue by the slot taken, and each later stage by what it makes of the one operation. -/
theorem moverOperations : Obligations.MoverOperations := by
  unfold Obligations.MoverOperations
  refine ⟨fun s cr w f i => ?_, fun s cr slot ev m running => ?_, fun s cr slot m calm => ?_, fun s cr slot us blocks m running => ?_⟩
  · intro c hi taken free withOp len
    have least := Core.freeSlot_of_least hi taken free
    have issue (op : Nat) (h : s.issues cr w op f) (good : lowestCode (c.moveBreaches op f) = none) := State.onInstr_issueMove h least good
    exact ⟨fun h good => congrArg _ (issue _ h good), fun h good => congrArg _ (issue _ h good), fun h good => congrArg _ (issue _ h good),
      fun h good => congrArg _ (issue _ h good), fun h good => congrArg _ (issue _ h good), fun h good => congrArg _ (issue _ h good),
      fun h good => congrArg _ (issue _ h good)⟩
  · intro c only here waiting unboosted refills unret progress owed sound atRest
    have core : (s.setCore cr.toNat c).core cr.toNat = c := by simp
    have only' : ((s.setCore cr.toNat c).core cr.toNat).mover = [m] := by rw [core, only]
    rw [← core] at refills unret sound
    refine ⟨fun fence => ?_, fun notFence source checks away => ?_⟩
    · rw [exec_moverOpStart s cr slot ev running unboosted, State.moverStart_fence only' here waiting refills unret sound atRest fence,
        State.onOp_of_only only' here, core, State.setCore_setCore]
      rfl
    · rw [exec_moverOpStart s cr slot ev running unboosted, State.moverStart_away only' here waiting refills unret sound atRest progress owed notFence source
        (by rw [core]; exact checks) away, State.onOp_of_only only' here, core, State.setCore_setCore]
  · intro c only here
    obtain ⟨running, engine⟩ := calm
    refine ⟨fun ns j quota part host op signal link decl => ?_, fun quota part => ?_, fun stays notFence host away unsent => ?_⟩
    · have taken : ((s.onOp cr.toNat slot.toNat (fun x => { x with tokens := max (State.quotaTokens x) 1 })).core cr.toNat).mover =
          [{ m with tokens := max (State.quotaTokens m) 1 }] := by simp [c, only, here]
      obtain ⟨mover, queue, mem⟩ := State.sendOp_atomic_frame (m := m) (j := j) taken rfl op signal
      refine ⟨_, exec_quotaStagePass s cr slot ns running, ?_⟩
      rw [State.quotaPass_atomic only here quota part host op link decl, State.drainEngine_nil _ (by rw [mem]; exact engine), mover]
      exact ⟨rfl, queue, mem⟩
    · obtain ⟨mover, net, mem⟩ := State.refuseOp_frame only (status := 2) (by decide) 0x3101
      refine ⟨_, exec_rmoQuota running only here quota part, ?_⟩
      rw [State.drainEngine_nil _ (by rw [mem, engine])]
      exact ⟨mover, net, mem⟩
    · have kept : ((s.withdrawOp cr.toNat m).core cr.toNat).mover = [m] := by rw [State.withdrawOp_core, only]
      obtain ⟨mover, -, mem⟩ := State.refuseOp_frame kept (status := 3) (by decide) 0x3106
      rw [State.withdrawOp_mem] at mem
      refine ⟨_, exec_rmoLifetime running only here stays notFence host away unsent, ?_⟩
      rw [State.drainEngine_nil _ (by rw [mem, engine])]
      exact ⟨mover, mem⟩
  · intro c only here done status floored part onTime room
    rw [exec_moverOpComplete s cr slot us blocks running, State.hostTransfer_of_done only here done, State.complete_ok only here done status floored part onTime room]

end Machine
end Sys2Proof
end

section
/-!
LocalGetBringsMemory fails. Its hypotheses check the page by two keys: the access takes the key slot of the operation's own partition (R377), the fate of
each line asks for no slot, while the read itself takes the slot of the partition that the page's record names (R374). They differ where a translation-cache
entry outlives the record that it was filled from, which no hypothesis shuts out; a parity fault of the latter slot (R751) then stops the read.
-/
namespace Sys2Proof
namespace Machine
namespace StaleTranslation

/-- A GET of the 64 bytes at window offset 0 of partition 0 into square-buffer address 0, waiting in mover slot 0. -/
def get : MoverOp :=
  { slot := 0, order := 0, op := 0xC0, af := 0, al := 0, as_ := 0, cc := 0, len := 64, relax := false, dtype := 0, sv := 0, sw := 0, job := 0,
    index := 0, slotno := 0, stage := .waiting, status := 0, code := 0, failAt := 0, owed := 0, signalOwed := false, tokens := 0, floored := false,
    progress := 0, reqs := [] }

/-- Core 0 holds the GET. Region 0's translation cache names page 0 for partition 0, the PRT gives it to partition 1; of the page's Cuff slot 0 is loaded and
slot 2, that of partition 1, has a parity fault. -/
def state : State :=
  { State.reset with
    cores := [(0, { Core.reset with mover := [get] })]
    regions := [(0, { Region.reset with tc := [⟨0, 0, 0, 0, false⟩] })]
    mem := { Memory.reset with prt := [(0, { PrtRec.free with valid := true, part := 1 })] }
    keySlots := [(0, 1)]
    keys := { Keys.reset with flipped := [2] } }

theorem get_waiting : (state.core 0).mover = [get] ∧ (state.core 0).refills = [] ∧ (state.core 0).unret = [] := by decide +kernel

theorem get_here : get.chip = state.chip := by decide +kernel

theorem get_passes_firstCheck : state.firstCheck (state.core 0).spec.part.toNat get = none := by decide +kernel

theorem page_served : (state.access (.region 0) get.part get.vpage false).2 = .served 0 := by decide +kernel

theorem line_sound : state.lineFate 0 0 = .sound false := by decide +kernel

theorem get_one_line : (get.off % pageSize + get.len - 1) / 64 = 0 := by decide

/-- What the start makes of the one operation: it waits on, for the device has halted with 0x210C in the Cuff of region 0. -/
theorem get_stalls : let t := ((state.setCore 0 (state.core 0)).moverStart 0 0 []).drainEngine
    (t.core 0).mover.map (fun x => (x.slot, x.stage, x.status)) = [(0, .waiting, 0)] ∧ t.halt.map Prod.fst = some 0x210C := by decide +kernel

end StaleTranslation

open StaleTranslation in
/-- Refutes O17: a stale translation leads the GET to a page of another partition, whose key slot has a parity fault, and the operation waits on. -/
theorem not_localGetBringsMemory : ¬ Obligations.LocalGetBringsMemory := by
  unfold Obligations.LocalGetBringsMemory
  intro holds
  obtain ⟨mover, refills, unret⟩ := get_waiting
  have lines : ∀ i, get.off % pageSize / 64 ≤ i → i ≤ (get.off % pageSize + get.len - 1) / 64 → state.lineFate 0 i = .sound false := by
    intro i _ upTo
    rw [get_one_line] at upTo
    obtain rfl : i = 0 := Nat.le_zero.mp upTo
    exact line_sound
  obtain ⟨t, run, -, -, done, -⟩ := holds state 0 0 get 0 ⟨rfl, rfl⟩ mover rfl rfl refills unret rfl rfl rfl rfl rfl rfl get_here get_passes_firstCheck
    (by decide) (by decide) (by decide) (by decide) (by decide) (by decide) page_served lines
  have start := exec_moverOpStart state 0 0 [] rfl (by decide +kernel)
  rw [start] at run
  obtain rfl := Host.Outcome.next.inj run
  have waits := get_stalls.1.symm.trans done
  exact absurd waits (by decide)

end Machine
end Sys2Proof
end

section
/-!
PROOFS. Tile instructions at issue, the layout of a tile in the square buffer, the rounded codes of a store (R53, R73, R126, R154, R182).
-/
namespace Sys2Proof

@[simp] theorem length_leBytes (n : Nat) : ∀ w : Nat, (leBytes n w).length = n := by
  induction n with
  | zero => exact fun _ => rfl
  | succ n ih => intro w; rw [leBytes, List.length_cons, ih]

theorem getElem?_leBytes {n j : Nat} (hj : j < n) (w : Nat) : (leBytes n w)[j]? = some (BitVec.ofNat 8 (w / 256 ^ j)) := by
  induction n generalizing j w with
  | zero => omega
  | succ n ih =>
    cases j with
    | zero => simp [leBytes]
    | succ j => rw [leBytes, List.getElem?_cons_succ, ih (by omega), Nat.div_div_eq_div_mul, Nat.pow_succ']

/-- Pieces of one length, laid end to end. -/
theorem getElem?_flatMap_of_length {α β : Type} {f : α → List β} {k : Nat} (size : ∀ x, (f x).length = k) {j : Nat} (hj : j < k) (xs : List α) (i : Nat) :
    (xs.flatMap f)[k * i + j]? = xs[i]?.bind (fun x => (f x)[j]?) := by
  induction xs generalizing i with
  | nil => simp
  | cons x xs ih =>
    rw [List.flatMap_cons]
    cases i with
    | zero => rw [Nat.mul_zero, Nat.zero_add, List.getElem?_append_left (by rw [size]; exact hj)]; rfl
    | succ i =>
      rw [List.getElem?_append_right (by rw [size, Nat.mul_succ]; omega), size, List.getElem?_cons_succ, ← ih]
      congr 1
      rw [Nat.mul_succ]
      omega

theorem length_flatMap_of_length {α β : Type} {f : α → List β} {k : Nat} (size : ∀ x, (f x).length = k) (xs : List α) :
    (xs.flatMap f).length = k * xs.length := by
  induction xs with
  | nil => rfl
  | cons x xs ih => rw [List.flatMap_cons, List.length_append, size, ih, List.length_cons, Nat.mul_succ, Nat.add_comm]

theorem getElem?_flatMap_leBytes {n k i j : Nat} (hi : i < n) (hj : j < k) (g : Nat → Nat) :
    ((List.range n).flatMap (fun i => leBytes k (g i)))[k * i + j]? = some (BitVec.ofNat 8 (g i / 256 ^ j)) := by
  rw [getElem?_flatMap_of_length (fun _ => length_leBytes k _) hj, List.getElem?_range hi, Option.bind_some, getElem?_leBytes hj]

/-- A part of a run is a run. -/
theorem Sparse.take_drop_getRun {α : Type} (d : α) (m : Sparse α) (a n : Nat) {i k : Nat} (h : i + k ≤ n) :
    ((getRun d m a n).drop i).take k = getRun d m (a + i) k := by
  simp only [getRun_eq]
  apply List.ext_getElem
  · simp; omega
  · intro l _ _
    simp [Nat.add_assoc]

namespace Machine

theorem lowestCode_eq_none {bs : List (Bool × Nat)} (h : lowestCode bs = none) : ∀ b ∈ bs, b.1 = false := by
  have general : ∀ (bs : List (Bool × Nat)) (acc : Option Nat),
      bs.foldl (fun acc b => if b.1 then some (match acc with | none => b.2 | some c => min c b.2) else acc) acc = none →
      acc = none ∧ ∀ b ∈ bs, b.1 = false := by
    intro bs
    induction bs with
    | nil => exact fun acc h => ⟨h, by simp⟩
    | cons b bs ih =>
      intro acc h
      obtain ⟨first, rest⟩ := ih _ h
      cases hb : b.1 with
      | true => simp [hb] at first
      | false => exact ⟨by simpa [hb] using first, by simpa [hb] using rest⟩
  exact (general bs none h).2

/-! Issue. -/

/-- The core as the work of a tile instruction finds it: the pc moved on, the descriptors and ELEM_BASE advanced, a product's cycles counted (R98, R149). -/
def Core.tileBegun (c : Core) (w : Waits) (op : Nat) (f : Opnd) : Core :=
  countBusy (afterIssue (c.advance w false) f (captureTile c op f)) (captureTile c op f)

/-- What comes before the work changes descriptors, special registers and control, and ends the wait. -/
theorem Core.tileBegun_eq (c : Core) (w : Waits) (op : Nat) (f : Opnd) :
    ∃ td ctl spec, c.tileBegun w op f = { c with td := td, ctl := ctl, spec := spec } ∧ ctl.waiting = false := by
  unfold tileBegun countBusy afterIssue
  generalize captureTile c op f = j
  cases j.op == 0x40 && f.tAdva <;> cases j.op == 0x40 && f.tAdvb <;> split <;> exact ⟨_, _, _, rfl, rfl⟩

/-- No earlier product of the chain that a ready product continues awaits a re-fill (R85). -/
theorem Core.tileReady.none_deferred {c : Core} {op : Nat} {f : Opnd} (ready : c.tileReady op f) :
    let j := captureTile c op f
    let chained := if op = 0x40 && !j.start then some j.acc else none
    c.unret.any (fun u => u.redo.isSome && u.product == chained && chained.isSome) = false := by
  intro j chained
  obtain ⟨-, -, -, -, settled⟩ := ready
  rw [List.any_eq_false]
  intro u hu
  by_cases continues : op = 0x40 ∧ j.start = false
  · have own : (u.redo.isNone || u.product != some j.acc) = true := List.all_eq_true.mp (settled continues.1 continues.2) u hu
    have chainedTo : chained = some j.acc := by simp [chained, continues]
    rw [chainedTo]
    cases redo : u.redo with
    | none => simp
    | some _ => simpa [redo] using own
  · have noChain : chained = none := by simpa [chained] using continues
    simp [noChain]

section Issue
variable {s : State} {cr : BitVec 9} {w : Waits} {op : Nat} {f : BitVec 56} {c d : Core} (own : s.core cr.toNat = c) (issues : s.issues cr w op f)
  (ready : c.tileReady op f)
include own issues ready

/-- A tile instruction that meets its conditions does its work at issue (R73, R81). -/
theorem issueTile_ready {seed : Bytes} (work : runTile (c.tileBegun w op f) (captureTile c op f) seed none = (d, .done [])) :
    issueTile op f w seed .clear c = (c.tileIssued d op f).quiet := by
  subst own
  obtain ⟨-, may, inside, parity, whole, -⟩ := issues
  have settled := ready.none_deferred
  obtain ⟨good, hazard, room, sound, -⟩ := ready
  generalize s.core cr.toNat = c at *
  obtain ⟨td, ctl, spec, begun, -⟩ := c.tileBegun_eq w op f
  have notPoisoned : (readsAcc (captureTile c op f) && (c.tileBegun w op f).poisoned (captureTile c op f).acc) = false := by
    rw [begun, Bool.and_eq_false_imp]
    exact sound
  have sameUnret : (c.tileBegun w op f).unret = c.unret := by rw [begun]
  have begins := fun eff => Core.issue_ready c w false _ _ eff may inside parity good whole (Bool.and_eq_true_iff.mpr ⟨hazard, decide_eq_true room⟩)
  unfold Core.tileBegun at notPoisoned sameUnret work
  unfold issueTile
  simp only [begins, notPoisoned, sameUnret, settled, work, Bool.false_eq_true, if_false]
  rfl

theorem State.tileOn_ready (work : runTile (c.tileBegun w op f) (captureTile c op f) (s.seedOf c.spec.part.toNat) none = (d, .done []))
    (goesOn : d.ctl.waiting = false) : tileOn op cr w f .clear s = s.setCore cr.toNat (c.tileIssued d op f) := by
  subst own
  exact onInstr_issued issues (issueTile_ready rfl issues ready work) goesOn

end Issue

/-! The layout of a tile (R53). -/

/-- Bits of one stored element (R53, R112). -/
def codeBits (fmt : Nat) : Nat := if fmt = 9 ∨ fmt = 10 then 32 else 16 / fmtQ fmt

theorem fmtQ_cases (fmt : Nat) : fmtQ fmt = 1 ∨ fmtQ fmt = 2 ∨ fmtQ fmt = 4 := by
  unfold fmtQ
  split
  · exact .inl rfl
  · split
    · exact .inr (.inr rfl)
    · exact .inr (.inl rfl)

theorem length_tileImage {fmt : Nat} (known : fmt ≤ 10) (f : Nat → Nat → Nat) : (tileImage fmt f).length = tileBytes fmt := by
  unfold tileImage
  split
  · next wide =>
    rw [length_flatMap_of_length (fun _ => length_leBytes 4 _), List.length_range]
    rcases wide with rfl | rfl <;> rfl
  · next narrow =>
    rw [length_flatMap_of_length (fun _ => length_leBytes 2 _), List.length_range]
    have codes : fmt ≤ 8 := by omega
    unfold fmtQ tileBytes
    by_cases half : fmt ≤ 1
    · rw [if_pos half, if_pos half]
    · rw [if_neg half, if_neg half]
      by_cases nibble : fmt = 6
      · rw [if_pos nibble, if_pos nibble]
      · rw [if_neg nibble, if_neg nibble, if_pos codes]

/-- Codes of `16 / q` bits each, packed into a word of 16 bits: the word and each code back (R53). -/
theorem packed_word {q : Nat} (hq : q = 1 ∨ q = 2 ∨ q = 4) {g : Nat → Nat} (fits : ∀ s, g s < 2 ^ (16 / q)) {s : Nat} (hs : s < q) :
    let word := ((List.range q).map (fun s => g s <<< (16 / q * s))).foldl (· + ·) 0
    word < 65536 ∧ (word >>> (16 / q * s)) % 2 ^ (16 / q) = g s := by
  rcases hq with rfl | rfl | rfl
  · have f0 : g 0 < 65536 := fits 0
    obtain rfl : s = 0 := by omega
    simp only [List.range_succ, List.range_zero, List.nil_append, List.map_cons, List.map_nil, List.foldl_cons, List.foldl_nil, Nat.shiftRight_eq_div_pow,
      Nat.shiftLeft_eq]
    omega
  · have f0 : g 0 < 256 := fits 0
    have f1 : g 1 < 256 := fits 1
    have places : s = 0 ∨ s = 1 := by omega
    simp only [List.range_succ, List.range_zero, List.nil_append, List.cons_append, List.map_cons, List.map_nil, List.foldl_cons, List.foldl_nil,
      Nat.shiftRight_eq_div_pow, Nat.shiftLeft_eq]
    rcases places with rfl | rfl <;> omega
  · have f0 : g 0 < 16 := fits 0
    have f1 : g 1 < 16 := fits 1
    have f2 : g 2 < 16 := fits 2
    have f3 : g 3 < 16 := fits 3
    have places : s = 0 ∨ s = 1 ∨ s = 2 ∨ s = 3 := by omega
    simp only [List.range_succ, List.range_zero, List.nil_append, List.cons_append, List.map_cons, List.map_nil, List.foldl_cons, List.foldl_nil,
      Nat.shiftRight_eq_div_pow, Nat.shiftLeft_eq]
    rcases places with rfl | rfl | rfl | rfl <;> omega

/-- The word of row `l` and bank `b` of a tile of narrow elements, whose element (r, k) has code `f r k` (R53). -/
def tileWordOf (q : Nat) (f : Nat → Nat → Nat) (l b : Nat) : Nat :=
  ((List.range q).map (fun s => f (l + s * (32 / q)) ((b + 32 - (l + s * (32 / q)) % 32) % 32) <<< (16 / q * s))).foldl (· + ·) 0

theorem tileImage_narrow {fmt : Nat} (narrow : fmt ≤ 8) (f : Nat → Nat → Nat) :
    tileImage fmt f = (List.range (32 / fmtQ fmt * 32)).flatMap (fun i => leBytes 2 (tileWordOf (fmtQ fmt) f (i / 32) (i % 32))) := by
  rw [tileImage, if_neg (by omega)]
  rfl

theorem tileImage_wide {fmt : Nat} (wide : fmt = 9 ∨ fmt = 10) (f : Nat → Nat → Nat) :
    tileImage fmt f = (List.range 1024).flatMap (fun i => leBytes 4 (f (i / 32) (i % 32))) := by
  rw [tileImage, if_pos wide]

/-- The word that the layout gives an element holds its code in the element's slot. -/
theorem tileWordOf_slot {q : Nat} (hq : q = 1 ∨ q = 2 ∨ q = 4) {f : Nat → Nat → Nat} (fits : ∀ r k, f r k < 2 ^ (16 / q)) {r c : Nat} (hr : r < 32)
    (hc : c < 32) :
    let word := tileWordOf q f (r % (32 / q)) ((r + c) % 32)
    word < 65536 ∧ (word >>> (16 / q * (r / (32 / q)))) % 2 ^ (16 / q) = f r c := by
  have place : r / (32 / q) < q ∧ r % (32 / q) + r / (32 / q) * (32 / q) = r := by
    rcases hq with h | h | h <;> rw [h] <;> omega
  obtain ⟨slot, row⟩ := place
  have col : ((r + c) % 32 + 32 - r % 32) % 32 = c := by omega
  have packed := packed_word hq
    (fun s => fits (r % (32 / q) + s * (32 / q)) (((r + c) % 32 + 32 - (r % (32 / q) + s * (32 / q)) % 32) % 32)) slot
  simp only [row, col] at packed
  exact packed

/-- A tile reads back the codes that its image was made of (R53, R112). -/
theorem tileCode_tileImage {fmt : Nat} (known : fmt ≤ 10) {f : Nat → Nat → Nat} (fits : ∀ r k, f r k < 2 ^ codeBits fmt) {r c : Nat} (hr : r < 32) (hc : c < 32) :
    tileCode fmt (tileImage fmt f).toArray r c = f r c := by
  unfold tileCode
  split
  · next wide =>
    have fit : f r c < 2 ^ 32 := by simpa [codeBits, wide] using fits r c
    have byte : ∀ j, j < 4 → (tileImage fmt f)[128 * r + 4 * c + j]? = some (BitVec.ofNat 8 (f r c / 256 ^ j)) := by
      intro j hj
      have place : 128 * r + 4 * c + j = 4 * (32 * r + c) + j := by omega
      have row : (32 * r + c) / 32 = r := by omega
      have col : (32 * r + c) % 32 = c := by omega
      rw [tileImage_wide wide, place, getElem?_flatMap_leBytes (by omega) hj, row, col]
    have b0 := byte 0 (by decide)
    rw [Nat.add_zero] at b0
    simp only [Array.getD_eq_getD_getElem?, List.getElem?_toArray, b0, byte 1 (by decide), byte 2 (by decide), byte 3 (by decide), Option.getD_some,
      BitVec.toNat_ofNat]
    omega
  · next notWide =>
    have narrow : fmt ≤ 8 := by omega
    have hq := fmtQ_cases fmt
    have bits : codeBits fmt = 16 / fmtQ fmt := by rw [codeBits, if_neg notWide]
    rw [bits] at fits
    obtain ⟨small, slot⟩ := tileWordOf_slot hq fits hr hc
    have low : r % (32 / fmtQ fmt) < 32 / fmtQ fmt := Nat.mod_lt _ (by rcases hq with h | h | h <;> rw [h] <;> decide)
    have byte : ∀ j, j < 2 → (tileImage fmt f)[tileWord (fmtQ fmt) r c + j]? =
        some (BitVec.ofNat 8 (tileWordOf (fmtQ fmt) f (r % (32 / fmtQ fmt)) ((r + c) % 32) / 256 ^ j)) := by
      intro j hj
      have place : tileWord (fmtQ fmt) r c + j = 2 * (32 * (r % (32 / fmtQ fmt)) + (r + c) % 32) + j := by unfold tileWord; omega
      have row : (32 * (r % (32 / fmtQ fmt)) + (r + c) % 32) / 32 = r % (32 / fmtQ fmt) := by omega
      have col : (32 * (r % (32 / fmtQ fmt)) + (r + c) % 32) % 32 = (r + c) % 32 := by omega
      rw [tileImage_narrow narrow, place, getElem?_flatMap_leBytes (by omega) hj, row, col]
    have b0 := byte 0 (by decide)
    rw [Nat.add_zero] at b0
    have word : ∀ n, n < 65536 → n / 256 ^ 0 % 2 ^ 8 + 256 * (n / 256 ^ 1 % 2 ^ 8) = n := by omega
    simp only [Array.getD_eq_getD_getElem?, List.getElem?_toArray, b0, byte 1 (by decide), Option.getD_some, BitVec.toNat_ofNat, word _ small]
    exact slot

/-! Codes of a rounded value fit the format (R159, R181). -/

theorem Fmt.infCode_lt (F : Fmt) : F.emaxField * 2 ^ F.manBits < F.signBit := by
  have top : F.emaxField < 2 ^ F.expBits := Nat.sub_lt (Nat.two_pow_pos _) Nat.one_pos
  rw [signBit, Nat.pow_add]
  exact Nat.mul_lt_mul_of_pos_right top (Nat.two_pow_pos _)

theorem Fmt.maxCode_lt (F : Fmt) : F.maxCode < F.signBit := by
  have inf := F.infCode_lt
  have pos : 0 < 2 ^ (F.expBits + F.manBits) := Nat.two_pow_pos _
  unfold maxCode signBit at *
  split
  · omega
  · split
    · omega
    · omega

theorem overCode_lt (F : Fmt) (saturate : Bool) : overCode F saturate < F.signBit := by
  unfold overCode
  split
  · exact F.maxCode_lt
  · exact F.infCode_lt

theorem roundMag_lt (F : Fmt) (r : Round) (m : Nat) (e : Int) : roundMag F r m e < F.signBit := by
  have beyond := overCode_lt F (saturates F)
  have max := F.maxCode_lt
  unfold roundMag
  extract_lets top l q overflow field code
  split
  · exact beyond
  · split
    · exact beyond
    · omega

theorem encode_lt {F : Fmt} (nan : F.nanCode < F.signBit) (r : Round) (v : FVal) : encode F r v < 2 * F.signBit := by
  have inf := F.infCode_lt
  cases v with
  | nan => simp only [encode]; omega
  | inf neg =>
    have sign : (if neg then F.signBit else 0) ≤ F.signBit := by split <;> omega
    simp only [encode]
    split
    · omega
    · omega
  | fin neg m e =>
    have round := roundMag_lt F r m e
    have sign : (if neg then F.signBit else 0) ≤ F.signBit := by split <;> omega
    have magnitude : (if m = 0 then 0 else roundMag F r m e) < F.signBit := by split <;> omega
    simp only [encode]
    omega

theorem encode_fmtFloat_lt {fmt : Nat} (plain : fmt ≤ 3 ∨ fmt = 9) (r : Round) (v : FVal) : encode (fmtFloat fmt) r v < 2 ^ codeBits fmt := by
  have formats : ∀ k, k < 10 → k ≤ 3 ∨ k = 9 → (fmtFloat k).nanCode < (fmtFloat k).signBit ∧ 2 * (fmtFloat k).signBit = 2 ^ codeBits k := by decide
  have format := formats fmt (by omega) plain
  rw [← format.2]
  exact encode_lt format.1 r v

/-! Stores. -/

/-- A store to nearest of 1 024 float values into a tile that is not MX. -/
theorem storeValues_rne {c : Core} {j : TileJob} {rnd : Nat → Nat} {vals : List FVal} (plain : isMx j.tdo.format = false) (nearest : j.sr = false)
    (size : vals.length = 1024) : storeValues c j rnd false vals =
      c.writeSqb j.tdo.base (tileImage j.tdo.format (fun r k => (vals.map (encode (fmtFloat j.tdo.format) .rne)).getD (32 * r + k) 0)) := by
  have values : ((List.range 1024).zip vals).map Prod.snd = vals := List.map_snd_zip (by simp [size])
  have codes : ((List.range 1024).zip vals).map (fun p => intZero (fmtFloat j.tdo.format) false (encode (fmtFloat j.tdo.format) .rne p.2)) =
      vals.map (encode (fmtFloat j.tdo.format) .rne) := by
    have both := congrArg (List.map (encode (fmtFloat j.tdo.format) .rne)) values
    rw [List.map_map] at both
    exact both
  simp only [storeValues, plain, nearest, Bool.false_eq_true, if_false, codes, Array.getD_eq_getD_getElem?, List.getElem?_toArray, List.getD_eq_getElem?_getD]

/-- What a store of the values `x` at BASE `base` in FORMAT `fmt` leaves in `t` of the core `c` (R53, R126, R182). -/
def StoredTile (c t : Core) (fmt base : Nat) (x : Nat → FVal) : Prop :=
  (∀ i, i < 1024 → tileCode fmt (t.readSqb base (tileBytes fmt)).toArray (i / 32) (i % 32) = encode (fmtFloat fmt) .rne (x i)) ∧
  (∀ a, a < base ∨ base + tileBytes fmt ≤ a → t.readSqb a 1 = c.readSqb a 1) ∧ t.acc = c.acc ∧ t.chains = c.chains ∧ t.v = c.v ∧ t.s = c.s

theorem writeSqb_stored (c : Core) {fmt : Nat} (base : Nat) (plain : fmt ≤ 3 ∨ fmt = 9) {vals : List FVal} {x : Nat → FVal}
    (values : ∀ i, i < 1024 → vals[i]? = some (x i)) :
    StoredTile c (c.writeSqb base (tileImage fmt (fun r k => (vals.map (encode (fmtFloat fmt) .rne)).getD (32 * r + k) 0))) fmt base x := by
  have known : fmt ≤ 10 := by omega
  have length := length_tileImage known (fun r k => (vals.map (encode (fmtFloat fmt) .rne)).getD (32 * r + k) 0)
  have fits : ∀ r k, (vals.map (encode (fmtFloat fmt) .rne)).getD (32 * r + k) 0 < 2 ^ codeBits fmt := by
    intro r k
    rw [List.getD_eq_getElem?_getD, List.getElem?_map]
    cases vals[32 * r + k]? with
    | none => exact Nat.two_pow_pos _
    | some v => exact encode_fmtFloat_lt plain .rne v
  refine ⟨fun i hi => ?_, fun a outside => ?_, rfl, rfl, rfl, rfl⟩
  · have back := c.readSqb_writeSqb_same base (tileImage fmt (fun r k => (vals.map (encode (fmtFloat fmt) .rne)).getD (32 * r + k) 0))
    rw [length] at back
    rw [back, tileCode_tileImage known fits (by omega) (by omega), Nat.div_add_mod, List.getD_eq_getElem?_getD, List.getElem?_map, values i hi]
    rfl
  · exact c.readSqb_writeSqb_other _ _ _ _ (by rw [length]; omega)

end Machine
end Sys2Proof
end

section
/-!
PROOFS. TPRE, TFIN, TACST and TCVT (R120, R126, R219, R236).
-/
namespace Sys2Proof
namespace Machine

/-! The values that the work of these instructions takes, one by one. -/

theorem getElem?_getAcc (c : Core) (t : Nat) {i : Nat} (hi : i < 1024) : (c.getAcc t)[i]? = some (c.elem t i) := by
  have inside : i < (c.getAcc t).length := by simpa [Core.getAcc] using hi
  rw [Core.elem, List.getD_eq_getElem?_getD, List.getElem?_eq_getElem inside]
  rfl

theorem getElem?_tileValues (c : Core) (d : Td) {i : Nat} (hi : i < 1024) : (tileValues c d)[i]? =
    some ((fmtFloat d.format).decode (tileCode d.format (c.readSqb d.base (tileBytes d.format)).toArray (i / 32) (i % 32))) := by
  rw [tileValues, List.getElem?_map, List.getElem?_range hi]
  rfl

theorem getElem?_tileRaw (c : Core) (d : Td) {i : Nat} (hi : i < 1024) :
    (tileRaw c d)[i]? = some (BitVec.ofNat 32 (tileCode d.format (c.readSqb d.base 4096).toArray (i / 32) (i % 32))) := by
  rw [tileRaw, List.getElem?_map, List.getElem?_range hi]
  rfl

theorem getElem?_spillWords (sqb : Sparse Byte) (base : Nat) {i : Nat} (hi : i < 1024) :
    (spillWords sqb base)[i]? = some (leNat (Sparse.getRun 0 sqb (base + 8 * i) 8)) := by
  rw [spillWords, List.getElem?_map, List.getElem?_range hi, Option.map_some, Sparse.take_drop_getRun 0 sqb base 8192 (by omega)]

/-! TPRE and TFIN. -/

/-- The values that a TPRE of descriptor `d` takes (R219). -/
def preValues (c : Core) (d : Td) : List F32 := if d.format = 10 then tileRaw c d else (tileValues c d).map rne32

theorem getD_preValues (c : Core) (d : Td) {i : Nat} (hi : i < 1024) :
    let img := (c.readSqb d.base (tileBytes d.format)).toArray
    (preValues c d).getD i 0 = if d.format = 10 then BitVec.ofNat 32 (tileCode 10 img (i / 32) (i % 32))
      else rne32 ((fmtFloat d.format).decode (tileCode d.format img (i / 32) (i % 32))) := by
  intro img
  rw [preValues, List.getD_eq_getElem?_getD]
  split
  · next int =>
    have size : tileBytes d.format = 4096 := by rw [int]; rfl
    rw [getElem?_tileRaw c d hi, Option.getD_some, int]
    simp only [img, size]
  · rw [List.getElem?_map, getElem?_tileValues c d hi]
    rfl

theorem length_preValues (c : Core) (d : Td) : (preValues c d).length = 1024 := by
  unfold preValues
  split <;> simp [tileRaw, tileValues]

/-- The elements of an FP32 chain with the spill tile at `base` added (R236). -/
def finValues (c : Core) (base t : Nat) : List F32 := List.zipWith tfinFloat (spillWords c.sqb base) (c.getAcc t)

theorem length_finValues (c : Core) (base t : Nat) : (finValues c base t).length = 1024 := by
  simp [finValues, spillWords, Core.getAcc]

theorem getD_finValues (c : Core) (base t : Nat) {i : Nat} (hi : i < 1024) :
    (finValues c base t).getD i 0 = rne32 ((fp64.decode (leNat (c.readSqb (base + 8 * i) 8))).add (val32 (c.elem t i))) := by
  rw [finValues, List.getD_eq_getElem?_getD, List.getElem?_zipWith, getElem?_spillWords c.sqb base hi, getElem?_getAcc c t hi]
  rfl

theorem runTfin_of_unspilled {c : Core} {j : TileJob} (spilled : (c.chain j.acc).spilled = false) :
    runTfin c j = c.setChain j.acc { c.chain j.acc with kcount := 0 } := by
  simp [runTfin, spilled]

theorem runTfin_of_spilled {c : Core} {j : TileJob} (spilled : (c.chain j.acc).spilled = true) (float : (c.chain j.acc).int32 = false) :
    runTfin c j = (c.setAcc j.acc (finValues c j.tds.base j.acc)).setChain j.acc { c.chain j.acc with spilled := false, kcount := 0 } := by
  simp [runTfin, spilled, float, finValues]

/-! TACST and TCVT. -/

theorem storeAcc_of_float {c : Core} {j : TileJob} (float : (c.chain j.acc).int32 = false) (rnd : Nat → Nat) (acc : List F32) :
    storeAcc c j rnd acc = storeValues c j rnd false (acc.map val32) := by
  simp [storeAcc, float]

/-- Of the formats that a store may take, those that are neither MX nor INT32 (R126). -/
theorem plain_of_legalOut {src fmt : Nat} (legal : legalOut src fmt = true) (mx : isMx fmt = false) (notInt : fmt ≠ 10) : fmt ≤ 3 ∨ fmt = 9 := by
  simp only [isMx, decide_eq_false_iff_not] at mx
  unfold legalOut at legal
  split at legal <;> simp only [decide_eq_true_eq] at legal <;> omega

theorem legalOut_of_outBreaches {bs : List (Bool × Nat)} (good : lowestCode bs = none) {d : Td} {src : Nat} {sr : Bool}
    (breaches : ∀ b ∈ outBreaches d src sr, b ∈ bs) : legalOut src d.format = true := by
  have legal := lowestCode_eq_none good _ (breaches (!legalOut src d.format, cFormat) (by simp [outBreaches]))
  simpa using legal

theorem Core.tileReady.legalOut_tacst {c : Core} {f : Opnd} (ready : c.tileReady 0x43 f) (float : (c.chain f.tAcc).int32 = false) :
    legalOut 0 (c.getTd f.tTdo).format = true := by
  refine legalOut_of_outBreaches (sr := f.tSr) ready.1 (fun b hb => List.mem_cons_of_mem _ ?_)
  show b ∈ outBreaches (c.getTd f.tTdo) (srcKind (c.chain f.tAcc).int32) f.tSr ++ _
  rw [float]
  exact List.mem_append_left _ hb

theorem Core.tileReady.legalOut_tcvt {c : Core} {f : Opnd} (ready : c.tileReady 0x44 f) : ∃ src, legalOut src (c.getTd f.tTdo).format = true := by
  have source : (c.getTd f.tTda).format = 9 ∨ (c.getTd f.tTda).format ≤ 1 := by
    refine Decidable.byContradiction fun other => ?_
    rw [not_or] at other
    have breach := lowestCode_eq_none ready.1 (true, cFormat) (by simp [tileBreaches, captureTile, other])
    exact absurd breach (by decide)
  have breaches : ∃ src, ∀ b ∈ outBreaches (c.getTd f.tTdo) src f.tSr, b ∈ tileBreaches c (captureTile c 0x44 f) := by
    rcases source with fp32 | half
    · exact ⟨2, fun b hb => by simp [tileBreaches, captureTile, fp32, hb]⟩
    · exact ⟨3, fun b hb => by simp [tileBreaches, captureTile, half, hb, show (c.getTd f.tTda).format ≠ 9 by omega]⟩
  obtain ⟨src, all⟩ := breaches
  exact ⟨src, legalOut_of_outBreaches ready.1 (fun b hb => List.mem_cons_of_mem _ (all b hb))⟩

/-- A ready instruction whose work is a store of float values to nearest leaves their tile. -/
theorem State.tileOn_store {s : State} {cr : BitVec 9} {w : Waits} {op : Nat} {f : BitVec 56} {c : Core} (own : s.core cr.toNat = c)
    (issues : s.issues cr w op f) (ready : c.tileReady op f) {rnd : Nat → Nat} {vals : List FVal} {x : Nat → FVal} (size : vals.length = 1024)
    (values : ∀ i, i < 1024 → vals[i]? = some (x i))
    (work : runTile (c.tileBegun w op f) (captureTile c op f) (s.seedOf c.spec.part.toNat) none =
      (storeValues (c.tileBegun w op f) (captureTile c op f) rnd false vals, .done []))
    (nearest : Opnd.tSr f = false) {d : Td} (output : c.getTd (Opnd.tTdo f) = d) (mx : isMx d.format = false) (plain : d.format ≤ 3 ∨ d.format = 9) :
    ∃ t, tileOn op cr w f .clear s = s.setCore cr.toNat t ∧ StoredTile c t d.format d.base x := by
  subst output
  obtain ⟨td, ctl, spec, begun, goesOn⟩ := c.tileBegun_eq w op f
  rw [storeValues_rne (j := captureTile c op f) mx nearest size] at work
  refine ⟨_, tileOn_ready own issues ready work (by rw [Core.writeSqb_ctl, begun]; exact goesOn), ?_⟩
  rw [begun]
  exact writeSqb_stored { c with td := td, ctl := ctl, spec := spec } _ plain values

/-- Settles O14: each instruction by the work that it does at issue, the stores by the codes that their tile reads back. -/
theorem tileLoadsAndStores : Obligations.TileLoadsAndStores := by
  unfold Obligations.TileLoadsAndStores
  refine ⟨fun s cr w f => ?_, fun s cr w f nearest => ?_⟩
  · intro c
    refine ⟨fun issues ready => ?_, fun issues ready => ?_⟩
    · intro j img
      exact ⟨preValues c j.tda, length_preValues c j.tda, fun i hi => getD_preValues c j.tda hi,
        congrArg Host.Outcome.next (State.tileOn_ready rfl issues ready rfl rfl)⟩
    · intro j ch c'
      refine ⟨fun unspilled => ?_, fun spilled float => ?_⟩
      · have work : runTfin c' j = c'.setChain j.acc { ch with kcount := 0 } := runTfin_of_unspilled unspilled
        exact congrArg Host.Outcome.next (State.tileOn_ready rfl issues ready (congrArg (·, TileEnd.done []) work) rfl)
      · have work : runTfin c' j = (c'.setAcc j.acc (finValues c j.tds.base j.acc)).setChain j.acc { ch with spilled := false, kcount := 0 } :=
          runTfin_of_spilled spilled float
        exact ⟨finValues c j.tds.base j.acc, length_finValues c _ _, fun i hi => getD_finValues c _ _ hi,
          congrArg Host.Outcome.next (State.tileOn_ready rfl issues ready (congrArg (·, TileEnd.done []) work) rfl)⟩
  · intro c base fmt stored mx notInt
    refine ⟨fun issues ready float => ?_, fun issues ready => ?_⟩
    · obtain ⟨td, ctl, spec, begun, -⟩ := c.tileBegun_eq w 0x43 f
      have plain := plain_of_legalOut (ready.legalOut_tacst float) mx notInt
      have floatBegun : ((c.tileBegun w 0x43 f).chain (Opnd.tAcc f)).int32 = false := by rw [begun]; exact float
      have values : ∀ i, i < 1024 → (((c.tileBegun w 0x43 f).getAcc (Opnd.tAcc f)).map val32)[i]? = some (val32 (c.elem (Opnd.tAcc f) i)) := by
        intro i hi
        rw [begun, List.getElem?_map]
        exact congrArg (Option.map val32) (getElem?_getAcc c _ hi)
      obtain ⟨t, done, tile⟩ := State.tileOn_store rfl issues ready (by simp [Core.getAcc]) values
        (congrArg (·, TileEnd.done []) (storeAcc_of_float (j := captureTile c 0x43 f) floatBegun _ _)) nearest rfl mx plain
      exact ⟨t, congrArg Host.Outcome.next done, tile⟩
    · obtain ⟨td, ctl, spec, begun, -⟩ := c.tileBegun_eq w 0x44 f
      obtain ⟨src, legal⟩ := ready.legalOut_tcvt
      have plain := plain_of_legalOut legal mx notInt
      intro d img
      obtain ⟨t, done, tile⟩ := State.tileOn_store rfl issues ready (vals := tileValues (c.tileBegun w 0x44 f) d) (by simp [tileValues])
        (fun i hi => by rw [begun]; exact getElem?_tileValues c d hi) rfl nearest rfl mx plain
      exact ⟨t, congrArg Host.Outcome.next done, tile⟩

end Machine
end Sys2Proof
end

section
/-!
PROOFS. An integer tile product that begins a chain and stays in range (R213, R222 to R224).
-/
namespace Sys2Proof
namespace Machine

/-- Attempts made one after another succeed together where each one does. -/
theorem foldr_bind_some {α β γ : Type} {f : α → Option β} {g : α → β} (wrap : β → γ) : ∀ {xs : List α}, (∀ x ∈ xs, f x = some (g x)) →
    xs.foldr (fun x rest => rest.bind (fun ys => (f x).map (fun v => wrap v :: ys))) (some []) = some (xs.map (fun x => wrap (g x)))
  | [], _ => rfl
  | x :: xs, all => by
    have rest := foldr_bind_some (f := f) (g := g) wrap (fun y hy => all y (List.mem_cons_of_mem x hy))
    rw [List.foldr_cons, rest, Option.bind_some, all x List.mem_cons_self, Option.map_some, List.map_cons]

/-- A tile of 1 024 zeros. -/
def zeroTile : List F32 := List.replicate 1024 0

theorem intAttempt_zeroTile {oa ob : Operand} {g kEnd : Nat} {e : Int} {sums : Nat → Int}
    (inRange : ∀ i, i < 1024 → intElement oa ob g kEnd (i / 32) (i % 32) e 0 = some (sums i)) :
    intAttempt oa ob g kEnd e zeroTile = some ((List.range 1024).map (fun i => BitVec.ofInt 32 (sums i))) := by
  have places : ((List.range 1024).zip zeroTile).map Prod.fst = List.range 1024 :=
    List.map_fst_zip (Nat.le_of_eq (by rw [zeroTile, List.length_range, List.length_replicate]))
  have elements : ∀ p ∈ (List.range 1024).zip zeroTile, intElement oa ob g kEnd (p.1 / 32) (p.1 % 32) e p.2.toInt = some (sums p.1) := by
    rintro ⟨i, z⟩ hp
    obtain ⟨place, zero⟩ := List.of_mem_zip hp
    obtain rfl := List.eq_of_mem_replicate zero
    exact inRange i (List.mem_range.mp place)
  unfold intAttempt
  have sums := congrArg (List.map (fun i => BitVec.ofInt 32 (sums i))) places
  rw [List.map_map] at sums
  rw [foldr_bind_some (BitVec.ofInt 32) elements, ← sums]
  rfl

/-- The chain that an integer product with START 1 and SPILL 0 begins (R62, R205). -/
def intChain (iv : Nat) : Chain := { Chain.none with int32 := true, iv := iv, spen := some false, started := true }

/-- That chain once its exponent is fixed and `k` K-elements have entered (R222, R229). -/
def intChainAt (iv : Nat) (zc : Int) (k : Nat) : Chain := { intChain iv with zcFixed := true, zc := zc, kcount := k }

/-- The first product of an integer chain fixes the exponent, and needs no retry where its adds stay in range (R222 to R224). -/
theorem runProduct_intChain {oa ob : Operand} {g : Nat} {sums : Nat → Int} (int : isIntMode (laneMode oa.td.format) = true) (iv : Nat)
    (inRange : ∀ i, i < 1024 → intElement oa ob g (productK oa.td.format) (i / 32) (i % 32) (intZc oa ob) 0 = some (sums i)) :
    runProduct oa ob g none zeroTile (intChain iv) = ⟨(List.range 1024).map (fun i => BitVec.ofInt 32 (sums i)), intChainAt iv (intZc oa ob) 0, 0, false⟩ := by
  have attempt := intAttempt_zeroTile inRange
  rw [← Int.add_zero (intZc oa ob)] at attempt
  have fresh : (intChain iv).zcFixed = false := rfl
  have unshifted : (((intChain iv).b : Nat) : Int) = 0 := rfl
  unfold runProduct
  rw [if_pos int, fresh, if_neg Bool.false_ne_true]
  unfold intProduct
  simp only [unshifted, attempt]
  rfl

theorem startChain_int {c : Core} {j : TileJob} (start : j.start = true) (noSpill : j.spillEn = false) :
    startChain c j true = (c.setAcc j.acc zeroTile).setChain j.acc (intChain j.iv) := by
  rw [startChain, if_pos start, noSpill]
  rfl

@[simp] theorem Core.setChain_setChain (c : Core) (t : Nat) (x y : Chain) : (c.setChain t x).setChain t y = c.setChain t y := by
  simp only [setChain, Sparse.set_set]

/-- A tile and a chain are written apart. -/
theorem Core.setAcc_setChain (c : Core) (t u : Nat) (x : Chain) (vs : List F32) : (c.setChain t x).setAcc u vs = (c.setAcc u vs).setChain t x := rfl

theorem runEpi_none (c : Core) {j : TileJob} (noEpi : j.epi = 0) (rnd : Nat → Nat) : runEpi c j rnd = c := by
  simp [runEpi, noEpi]

/-- With SPILL 0 a product only counts its K-elements (R229). -/
theorem spillAfter_intChainAt (c : Core) (j : TileJob) (iv : Nat) (zc : Int) (k : Nat) :
    spillAfter (c.setChain j.acc (intChainAt iv zc k)) j = (c.setChain j.acc (intChainAt iv zc (k + productK j.tda.format)), none) := by
  have notDue : spillDue (intChainAt iv zc k) j.tda.format = false := rfl
  simp only [spillAfter, Core.chain_setChain, if_true, notDue, Bool.not_false, Core.setChain_setChain]
  rfl

/-- The work of an integer product that begins a chain and stays in range. -/
theorem runTmma_int_start {c : Core} {j : TileJob} {sums : Nat → Int} (rnd : Nat → Nat) (start : j.start = true) (noEpi : j.epi = 0)
    (noSpill : j.spillEn = false) (int : isIntMode (laneMode j.tda.format) = true) :
    let oa := readOperand c.sqb j.tda .product
    let ob := readOperand c.sqb j.tdb .product
    nanScale oa ob = false →
    (∀ i, i < 1024 → intElement oa ob (groupSize j.g) (productK j.tda.format) (i / 32) (i % 32) (intZc oa ob) 0 = some (sums i)) →
    runTmma c j rnd none none =
      (((c.setAcc j.acc zeroTile).setAcc j.acc ((List.range 1024).map (fun i => BitVec.ofInt 32 (sums i)))).setChain j.acc
        (intChainAt j.iv (intZc oa ob) (productK j.tda.format)), .done []) := by
  intro oa ob scales inRange
  have zeros : ((c.setAcc j.acc zeroTile).setChain j.acc (intChain j.iv)).getAcc j.acc = zeroTile :=
    c.getAcc_setAcc_same j.acc zeroTile (by rw [zeroTile, List.length_replicate])
  have product := runProduct_intChain (oa := oa) (ob := ob) int j.iv inRange
  unfold runTmma
  simp only [int, startChain_int start noSpill, Core.chain_setChain, if_true, zeros, scales, oa, ob, product, runEpi_none _ noEpi, Core.setAcc_setChain,
    Core.setChain_setChain, spillAfter_intChainAt, Nat.zero_add, Bool.false_eq_true, if_false, Option.isSome_none]
  rfl

/-- What a tile and its chain, written over a cleared tile, leave to read: themselves there, the core's own elsewhere. -/
theorem Core.reads_of_restarted (c : Core) (a : Nat) {vs : List F32} (size : vs.length = 1024) (x : Chain) :
    let d := ((c.setAcc a zeroTile).setAcc a vs).setChain a x
    d.getAcc a = vs ∧ d.chain a = x ∧ ∀ k, k ≠ a → d.getAcc k = c.getAcc k ∧ d.chain k = c.chain k := by
  have zeroSize : zeroTile.length = 1024 := List.length_replicate
  refine ⟨getAcc_setAcc_same _ a vs size, by rw [chain_setChain, if_pos rfl], fun k hk => ⟨?_, by rw [chain_setChain, if_neg hk]; rfl⟩⟩
  exact (getAcc_setAcc_other _ vs size hk).trans (getAcc_setAcc_other c zeroTile zeroSize hk)

/-- Settles O13: the attempt at the whole tile succeeds, and with SPILL 0 and EPI 0 the product leaves its sums and its chain. -/
theorem integerProductAccumulates : Obligations.IntegerProductAccumulates := by
  unfold Obligations.IntegerProductAccumulates
  intro s cr w f issues ready noEpi noSpill start c j oa ob int scales sums inRange
  obtain ⟨td, ctl, spec, begun, goesOn⟩ := c.tileBegun_eq w 0x40 f
  have work := runTmma_int_start (c := c.tileBegun w 0x40 f) (j := j) (sums := sums)
    (Core.rndOf (s.seedOf c.spec.part.toNat) j.stream j.step j.elem) start noEpi noSpill int
  rw [begun] at work
  have done := State.tileOn_ready rfl issues ready (by rw [begun]; exact work scales inRange) goesOn
  have size : ((List.range 1024).map (fun i => BitVec.ofInt 32 (sums i))).length = 1024 := by rw [List.length_map, List.length_range]
  obtain ⟨own, chain, others⟩ := Core.reads_of_restarted { c with td := td, ctl := ctl, spec := spec } j.acc size
    (intChainAt j.iv (intZc oa ob) (productK j.tda.format))
  refine ⟨_, congrArg Host.Outcome.next done, fun i hi => ?_, chain, fun k _ hk => others k hk, rfl, rfl, rfl⟩
  refine (congrArg (·.getD i 0) own).trans ?_
  rw [List.getD_eq_getElem?_getD, List.getElem?_map, List.getElem?_range hi]
  rfl

end Machine
end Sys2Proof
end

section
/-!
PROOFS. Sync instructions: what a try leaves when it goes on, waits or traps, and the forms of BAR, FSET, FWAIT and WSLOT (R142 to R146, R257, R580 to R586).
-/
namespace Sys2Proof
namespace Machine

/-- The low word of a sync instruction (R142). -/
theorem Opnd.imm32_eq (f : Opnd) : f.imm32 = (f.extractLsb' 0 32).toNat := by
  simp [imm32, field, bitsNat, BitVec.extractLsb'_toNat]

theorem Opnd.ofNat_imm32 (f : Opnd) : BitVec.ofNat 32 f.imm32 = f.extractLsb' 0 32 := by
  rw [imm32_eq, BitVec.ofNat_toNat, BitVec.setWidth_eq]

/-- A core that may issue waits on no slot, ends no stream and stops for nothing (R92, R109, R151). -/
theorem Core.clear_of_mayIssue {c : Core} (may : c.mayIssue = true) : c.ctl.ending = false ∧ c.ctl.brimWait = none ∧ c.ctl.stopping = none := by
  simp only [mayIssue, Bool.and_eq_true, Bool.not_eq_true', Option.isNone_iff_eq_none] at may
  obtain ⟨⟨⟨-, ending⟩, brimWait⟩, stopping⟩ := may
  exact ⟨ending, brimWait, stopping⟩

/-! A try of an instruction that the core may try. -/

section Try
variable {s : State} {cr : BitVec 9} {w : Waits} {op : Nat} {f : BitVec 56} (issues : s.issues cr w op f)
  {retires ready : Bool} {bs : List (Bool × Nat)} {eff : Core → CoreRes} {g : Core → CoreRes}
include issues

theorem issue_goesOn (good : lowestCode bs = none) (now : ready = true) :
    (s.core cr.toNat).issue w retires bs ready eff = eff ((s.core cr.toNat).advance w retires) := by
  obtain ⟨-, may, inside, parity, whole, -⟩ := issues
  exact Core.issue_ready _ w retires bs ready eff may inside parity good whole now

theorem issue_waits (good : lowestCode bs = none) (later : ready = false) :
    (s.core cr.toNat).issue w retires bs ready eff = ((s.core cr.toNat).withCtl (fun k => { k with waiting := true })).quiet := by
  obtain ⟨-, may, inside, parity, whole, -⟩ := issues
  rw [Core.issue, parity, good, whole]
  simp [may, Nat.not_le.mpr inside, later]

theorem issue_traps {code : Nat} (breach : lowestCode bs = some code) :
    (s.core cr.toNat).issue w retires bs ready eff = (s.core cr.toNat).trap code 0 := by
  obtain ⟨-, may, inside, parity, -, -⟩ := issues
  rw [Core.issue, parity, breach]
  simp [may, Nat.not_le.mpr inside]

/-- A try that leaves its core waiting for no later word is the core's step (R72). -/
theorem holding_goesOn {r : CoreRes} (tried : g (s.core cr.toNat) = r) (goesOn : r.core.ctl.waiting = false ∨ r.core.ctl.brimWait ≠ none) :
    (s.core cr.toNat).holding (State.opWord op f) g = r := by
  obtain ⟨-, -, -, -, -, turn⟩ := issues
  subst tried
  exact Core.holding_issued _ _ _ turn goesOn

/-- A try that must wait keeps the core but for its word, which holds every other (R72). -/
theorem holding_waits (tried : g (s.core cr.toNat) = ((s.core cr.toNat).withCtl (fun k => { k with waiting := true })).quiet) :
    (s.core cr.toNat).holding (State.opWord op f) g = ((s.core cr.toNat).waitsFor op f).quiet := by
  obtain ⟨-, may, -, -, -, turn⟩ := issues
  obtain ⟨-, noWait, -⟩ := Core.clear_of_mayIssue may
  have mine : ((s.core cr.toNat).ctl.waiting && (s.core cr.toNat).ctl.waitWord != State.opWord op f) = false := by
    rcases turn with h | h <;> simp [h]
  rw [Core.holding, mine, tried]
  simp [Core.quiet, Core.withCtl, Core.waitsFor, noWait]

theorem onInstr_waits (tried : g (s.core cr.toNat) = ((s.core cr.toNat).withCtl (fun k => { k with waiting := true })).quiet) :
    s.onInstr cr (State.opWord op f) g = s.setCore cr.toNat ((s.core cr.toNat).waitsFor op f) := by
  have waits := holding_waits issues tried
  obtain ⟨running, -⟩ := issues
  rw [State.onInstr_running s running, waits, State.putCore_quiet]

/-- A trap of an instruction under way leaves the device as every trap does (R151 to R153). -/
theorem putCore_trap (code info : Nat) : s.putCore cr.toNat ((s.core cr.toNat).trap code info) = s.trapped cr code info := by
  obtain ⟨-, may, -⟩ := issues
  obtain ⟨ending, -, stopping⟩ := Core.clear_of_mayIssue may
  have stop : (s.core cr.toNat).stopWith code info = { s.core cr.toNat with ctl := { (s.core cr.toNat).ctl with
      stopping := some ⟨code, info⟩, waiting := false, brimWait := none, escalated := (s.core cr.toNat).ctl.escalated ++ [code] } } := by
    simp only [Core.stopWith, Core.withCtl, stopping, Option.getD_none, ← ending]
  rw [Core.trap, stop]
  rfl

end Try

/-! Instructions on a barrier slot. -/

namespace Core

theorem slotBad_eq {f : Opnd} (inside : f.ySlot < 48) : slotBad f = (false, cIllegalField) := by simp [slotBad, inside]

theorem kindBad_eq {c : Core} {f : Opnd} {kind : Nat} (same : c.slotKind f.ySlot = kind) : c.kindBad f kind = (false, cSlotKind) := by simp [kindBad, same]

theorem slotArrived_lt (c : Core) (k : Nat) : c.slotArrived k < 65536 := by
  have lt := (c.brimSlot k).lo.isLt
  simp only [slotArrived, bitsNat]
  omega

/-- A slot that has taken an arrival (R580). -/
theorem arrive_eq (c : Core) (k : Nat) : c.arrive k = c.setBrimSlot k
    { lo := BitVec.ofNat 32 ((c.brimSlot k).lo.toNat % 65536 + (c.slotArrived k + 1) % 65536 * 65536), hi := (c.brimSlot k).hi } := by
  simp [arrive, bitsNat]

theorem slotArrived_arrive (c : Core) (k : Nat) : (c.arrive k).slotArrived k = (c.slotArrived k + 1) % 65536 := by
  rw [arrive_eq]
  generalize c.slotArrived k = a
  simp [slotArrived, bitsNat]
  omega

theorem slotSeen_arrive (c : Core) (k : Nat) : (c.arrive k).slotSeen k = c.slotSeen k := by
  simp [arrive_eq, slotSeen]

/-- A core whose wait on slot `k` has begun and goes on, the pc on the waiting instruction (R145, R583). -/
def brimWaits (x c : Core) (k : Nat) : Core :=
  { x with ctl := { x.ctl with brimWait := some k, waiting := true, pc := c.ctl.pc }, spec := { x.spec with retired := c.spec.retired } }

/-- The wait of an instruction that has issued begins, its slot not yet caught up (R583). -/
theorem beginBrimWait_of_behind {c x : Core} {k : Nat} (pc : x.ctl.pc = c.ctl.pc + 1) (retired : x.spec.retired = c.spec.retired + 1)
    (behind : x.slotArrived k ≠ x.slotSeen k) : x.beginBrimWait k = x.brimWaits c k := by
  have behind' : (x.brimWaits c k).slotArrived k ≠ (x.brimWaits c k).slotSeen k := behind
  unfold beginBrimWait
  rw [pc, retired, Nat.add_sub_cancel, BitVec.add_sub_cancel]
  unfold endBrimWait
  exact if_neg behind'

/-- A wait whose slot has caught up ends as it begins (R583). -/
theorem beginBrimWait_of_caught {c x : Core} {k : Nat} (pc : x.ctl.pc = c.ctl.pc + 1) (retired : x.spec.retired = c.spec.retired + 1)
    (caught : x.slotArrived k = x.slotSeen k) : x.beginBrimWait k =
      { x with ctl := { x.ctl with brimWait := none, waiting := false, pc := c.ctl.pc + 1 }, spec := { x.spec with retired := c.spec.retired + 1 } } := by
  have caught' : (x.brimWaits c k).slotArrived k = (x.brimWaits c k).slotSeen k := caught
  unfold beginBrimWait
  rw [pc, retired, Nat.add_sub_cancel, BitVec.add_sub_cancel]
  unfold endBrimWait
  exact if_pos caught'

end Core

section Slot
variable {s : State} {cr : BitVec 9} {w : Waits} {op : Nat} {f : BitVec 56} (issues : s.issues cr w op f) (inside : Opnd.ySlot f < 48)
include issues inside

/-- An instruction on a barrier slot that is neither broken nor overrun takes effect, and an arrival of it enters the network (R144, R580, R582). -/
theorem State.barrierOp_goesOn {arrives : Bool} {eff : Core → Core} {d : Core} (unused : Opnd.unusedSet f [(55, 50)] = false)
    (kind : (s.core cr.toNat).slotKind (Opnd.ySlot f) = 2) (whole : s.slotBroken cr.toNat (Opnd.ySlot f) = false)
    (room : arrives = true → (s.core cr.toNat).overrun (Opnd.ySlot f) = false ∧ s.ckpt.atRest.toNat.testBit (s.core cr.toNat).spec.part.toNat = false)
    (effect : eff ((s.core cr.toNat).advance w true) = d) (goesOn : d.ctl.waiting = false ∨ d.ctl.brimWait ≠ none) :
    s.barrierOp op cr w f arrives eff = if d.slotArrived (Opnd.ySlot f) ≠ (s.core cr.toNat).slotArrived (Opnd.ySlot f)
      then (s.setCore cr.toNat d).brimPut (.arrive (s.brimKey cr.toNat (Opnd.ySlot f)) ((s.core cr.toNat).slotArrived (Opnd.ySlot f)))
      else s.setCore cr.toNat d := by
  have accepted : (arrives && (s.core cr.toNat).overrun (Opnd.ySlot f)) = false ∧
      (!(arrives && s.ckpt.atRest.toNat.testBit (s.core cr.toNat).spec.part.toNat)) = true := by
    cases arrives with
    | false => simp
    | true => simp [room rfl]
  have tried := issue_goesOn issues (retires := true) (eff := fun c => (eff c).quiet)
    (bs := [(Opnd.unusedSet f [(55, 50)], cIllegalField), Core.slotBad f, (s.core cr.toNat).kindBad f 2,
      (arrives && decide (Opnd.ySlot f < 48) && (s.core cr.toNat).overrun (Opnd.ySlot f), 0x4003), (s.slotBroken cr.toNat (Opnd.ySlot f), 0x4005)])
    (by simp [lowestCode, unused, Core.slotBad_eq inside, Core.kindBad_eq kind, whole, inside, accepted.1]) accepted.2
  rw [effect] at tried
  have result := holding_goesOn issues (g := fun c => c.issue w true [(Opnd.unusedSet f [(55, 50)], cIllegalField), Core.slotBad f, c.kindBad f 2,
      (arrives && decide (Opnd.ySlot f < 48) && c.overrun (Opnd.ySlot f), 0x4003), (s.slotBroken cr.toNat (Opnd.ySlot f), 0x4005)]
      (!(arrives && s.ckpt.atRest.toNat.testBit c.spec.part.toNat)) (fun c => (eff c).quiet)) tried goesOn
  obtain ⟨running, -⟩ := issues
  simp only [barrierOp, running, Option.isSome_none, Bool.false_eq_true, if_false, result]
  rfl

/-- FSET and FADD issue, and their message enters the network (R144, R585). -/
theorem State.flagOp_goesOn {used : List (Nat × Nat)} (msg : Core → BrimKey → BrimMsg) (unused : Opnd.unusedSet f used = false)
    (kind : (s.core cr.toNat).slotKind (Opnd.ySlot f) = 1) :
    s.flagOp op cr w f used msg = (s.setCore cr.toNat ((s.core cr.toNat).advance w true)).brimPut (msg (s.core cr.toNat) (s.brimKey cr.toNat (Opnd.ySlot f))) := by
  have tried := issue_goesOn issues (retires := true) (eff := Core.quiet)
    (bs := [(Opnd.unusedSet f used, cIllegalField), Core.slotBad f, (s.core cr.toNat).kindBad f 1])
    (by simp [lowestCode, unused, Core.slotBad_eq inside, Core.kindBad_eq kind]) rfl
  have result := holding_goesOn issues
    (g := fun c => c.issue w true [(Opnd.unusedSet f used, cIllegalField), Core.slotBad f, c.kindBad f 1] true Core.quiet) tried (.inl rfl)
  have moved : ((s.core cr.toNat).advance w true).ctl.pc ≠ (s.core cr.toNat).ctl.pc := Nat.succ_ne_self _
  obtain ⟨running, -⟩ := issues
  simp only [flagOp, running, Option.isSome_none, Bool.false_eq_true, if_false, result, Core.quiet, if_pos moved]
  rfl

end Slot

/-- FWAIT's comparison by its three codes (R143, R586). -/
theorem Core.flagHolds_iff (c : Core) {f : Opnd} (known : f.yCond ≤ 2) :
    let v := (c.brimSlot f.ySlot).hi.toNat
    let x := ((c.getS f.ySv).setWidth 32).toNat
    c.flagHolds f = true ↔ (f.yCond = 0 ∧ x ≤ v) ∨ (f.yCond = 1 ∧ v = x) ∨ (f.yCond = 2 ∧ v ≠ x) := by
  intro v x
  have cases : f.yCond = 0 ∨ f.yCond = 1 ∨ f.yCond = 2 := by omega
  rcases cases with h | h | h <;> simp [flagHolds, h, v, x, ← BitVec.toNat_inj]

/-- CWAIT with its count written as the bits of its word (R143). -/
theorem exec_cwait (s : State) (cr : BitVec 9) (w : Waits) (f : BitVec 56) :
    exec (.cwait cr w f) s = .next (s.onInstr cr (State.opWord 0xE6 f) (fun c => c.issue w true
      [(Opnd.unusedSet f [(49, 46), (31, 0)], cIllegalField), (decide (Opnd.imm32 f = 0), cIllegalField)]
      (!(c.getCc (Opnd.yCc f)).ult (f.extractLsb' 0 32)) (fun c => (c.setCc (Opnd.yCc f) (c.getCc (Opnd.yCc f) - f.extractLsb' 0 32)).quiet))) := by
  rw [← Opnd.ofNat_imm32]
  rfl

/-! WSLOT. -/

/-- A WSLOT is out of order where one has gone before and its number is not the next (R257). -/
theorem Core.wslotBad_eq (c : Core) (f : Opnd) : c.wslotBad f = (c.seenWslot && decide (f.extractLsb' 0 32 ≠ c.spec.slotno + 1)) := by
  have next : (c.spec.slotno.toNat + 1) % 2 ^ 32 = (c.spec.slotno + 1).toNat := by simp [BitVec.toNat_add]
  simp only [wslotBad, Opnd.imm32_eq, next, ne_eq, BitVec.toNat_inj]

section Wslot
variable {s : State} {cr : BitVec 9} {w : Waits} {f : BitVec 56} (issues : s.issues cr w 0xEA f) (unused : Opnd.unusedSet f [(31, 0)] = false)
include issues unused

theorem exec_wslot_next (inOrder : (s.core cr.toNat).wslotBad f = false) : exec (.wslot cr w f) s =
    .next (((s.setCore cr.toNat ((s.core cr.toNat).advance w true)).closeSlot cr.toNat).mapCore cr.toNat
      (fun c => { c with seenWslot := true, slotOpen := true, spec := { c.spec with slotno := f.extractLsb' 0 32, slotWait := 0 } })) := by
  have tried := issue_goesOn issues (retires := true) (eff := Core.quiet)
    (bs := [(Opnd.unusedSet f [(31, 0)], cIllegalField), ((s.core cr.toNat).wslotBad f, cWslotSeq)]) (by simp [lowestCode, unused, inOrder]) rfl
  have result := holding_goesOn issues (g := fun c =>
    c.issue w true [(Opnd.unusedSet f [(31, 0)], cIllegalField), (c.wslotBad f, cWslotSeq)] true Core.quiet) tried (.inl rfl)
  have moved : ((s.core cr.toNat).advance w true).ctl.pc ≠ (s.core cr.toNat).ctl.pc := Nat.succ_ne_self _
  obtain ⟨running, -⟩ := issues
  show execWslot cr w f s = _
  simp only [execWslot, running, Option.isSome_none, Bool.false_eq_true, if_false, result, Core.quiet, if_pos moved, Opnd.ofNat_imm32]
  rfl

theorem exec_wslot_trap (outOfOrder : (s.core cr.toNat).wslotBad f = true) : exec (.wslot cr w f) s = .next (s.trapped cr 0x1012 0) := by
  have tried := issue_traps issues (retires := true) (ready := true) (eff := Core.quiet)
    (bs := [(Opnd.unusedSet f [(31, 0)], cIllegalField), ((s.core cr.toNat).wslotBad f, cWslotSeq)]) (code := 0x1012)
    (by simp [lowestCode, unused, outOfOrder, cWslotSeq])
  have result := holding_goesOn issues (g := fun c =>
    c.issue w true [(Opnd.unusedSet f [(31, 0)], cIllegalField), (c.wslotBad f, cWslotSeq)] true Core.quiet) tried (.inl rfl)
  have still : ¬ ((s.core cr.toNat).trap 0x1012 0).core.ctl.pc ≠ (s.core cr.toNat).ctl.pc := fun h => h rfl
  have trap := putCore_trap issues 0x1012 0
  obtain ⟨running, -⟩ := issues
  show execWslot cr w f s = _
  simp only [execWslot, running, Option.isSome_none, Bool.false_eq_true, if_false, result, if_neg still, trap]
  rfl

end Wslot

/-- The close of a slot is written to the lateness records of the core's region alone (R259, R260). -/
theorem State.closeSlot_eq (s : State) (n : Nat) : ∃ regions, s.closeSlot n = { s with regions := regions } := by
  unfold State.closeSlot
  extract_lets c r wait thresh
  split
  · exact ⟨_, rfl⟩
  · exact ⟨_, rfl⟩

@[simp] theorem State.closeSlot_core (s : State) (n k : Nat) : (s.closeSlot n).core k = s.core k := by
  obtain ⟨regions, h⟩ := s.closeSlot_eq n
  rw [h]; rfl

@[simp] theorem State.closeSlot_mem (s : State) (n : Nat) : (s.closeSlot n).mem = s.mem := by
  obtain ⟨regions, h⟩ := s.closeSlot_eq n
  rw [h]

@[simp] theorem State.closeSlot_brim (s : State) (n : Nat) : (s.closeSlot n).brim = s.brim := by
  obtain ⟨regions, h⟩ := s.closeSlot_eq n
  rw [h]

/-! The watchdog. -/

theorem exec_waitTimeout (s : State) (cr : BitVec 9) (running : s.halt = none) :
    exec (.waitTimeout cr) s = .next (s.putCore cr.toNat (s.core cr.toNat).timeout) := congrArg Host.Outcome.next (State.onCore_running s running cr _)

theorem Core.timeout_of_waiting {c : Core} (enable : c.ctl.enable = true) (run : c.ctl.run = .running) (stopping : c.ctl.stopping = none)
    (waits : c.ctl.waiting = true ∨ c.ctl.ending = true) (wdog : c.spec.wdog ≠ 0) : c.timeout = c.trap 0x100C 0 := by
  have waits' : (c.ctl.waiting || c.ctl.ending) = true := by simpa using waits
  have due : ¬ c.spec.wdog = 0#64 := wdog
  simp [timeout, enable, run, stopping, waits', due, cWaitTimeout]

theorem Core.timeout_of_off {c : Core} (wdog : c.spec.wdog = 0) : c.timeout = c.quiet := by simp [timeout, wdog]

/-- Settles O18: each instruction by what its try leaves, the watchdog by the trap that it takes. -/
theorem syncInstructions : Obligations.SyncInstructions := by
  unfold Obligations.SyncInstructions
  refine ⟨fun s cr w f unused inside => ?_, fun s cr w f inside => ?_, fun s cr w f => ?_, fun s cr w f issues unused => ?_, fun s cr running => ?_⟩
  · intro c k kind whole arrived d sends waits
    have taken : (c.advance w true).arrive k = d := Core.arrive_eq _ k
    have counted : d.slotArrived k = arrived := by rw [← taken, Core.slotArrived_arrive]; rfl
    have seen : d.slotSeen k = c.slotSeen k := by rw [← taken, Core.slotSeen_arrive]; rfl
    have rises : arrived ≠ c.slotArrived k := by
      have lt := c.slotArrived_lt k
      simp only [arrived]
      omega
    refine ⟨fun room accepting => ⟨fun issues => ?_, fun issues behind => ?_⟩, fun issues behind => ?_, fun issues caught => ?_⟩
    · refine congrArg Host.Outcome.next ((State.barrierOp_goesOn issues inside unused kind whole (fun _ => ⟨room, accepting⟩) taken (.inl ?_)).trans (if_pos ?_))
      · rw [← taken]; rfl
      · rw [counted]; exact rises
    · have effect : ((c.advance w true).arrive k).beginBrimWait k = waits d := by
        rw [taken]
        exact Core.beginBrimWait_of_behind rfl rfl (by rw [counted, seen]; exact behind)
      exact congrArg Host.Outcome.next ((State.barrierOp_goesOn issues inside unused kind whole (fun _ => ⟨room, accepting⟩)
        (eff := fun c => (c.arrive k).beginBrimWait k) effect (.inr (Option.some_ne_none k))).trans (if_pos (counted ▸ rises)))
    · have effect : (c.advance w true).beginBrimWait k = waits (c.advance w true) := Core.beginBrimWait_of_behind rfl rfl behind
      exact congrArg Host.Outcome.next ((State.barrierOp_goesOn issues inside unused kind whole (fun h => absurd h Bool.false_ne_true)
        (eff := fun c => c.beginBrimWait k) effect (.inr (Option.some_ne_none k))).trans (if_neg fun h => h rfl))
    · have effect := Core.beginBrimWait_of_caught (x := c.advance w true) (c := c) rfl rfl caught
      exact ⟨_, congrArg Host.Outcome.next ((State.barrierOp_goesOn issues inside unused kind whole (fun h => absurd h Bool.false_ne_true)
        (eff := fun c => c.beginBrimWait k) effect (.inl rfl)).trans (if_neg fun h => h rfl)), rfl, rfl, rfl, rfl⟩
  · intro c k kind on key
    refine ⟨fun issues unused => ?_, fun issues unused => ?_, fun issues unused => ?_⟩
    · exact congrArg Host.Outcome.next (State.flagOp_goesOn issues inside _ unused kind)
    · rw [← Opnd.ofNat_imm32]
      exact congrArg Host.Outcome.next (State.flagOp_goesOn issues inside (fun _ k => .add k (BitVec.ofNat 32 (Opnd.imm32 f))) unused kind)
    · intro v x holds
      have good (known : Opnd.yCond f ≤ 2) : lowestCode [(Opnd.unusedSet f [(55, 50), (45, 38)], cIllegalField), Core.slotBad f,
          (decide (3 ≤ Opnd.yCond f), cIllegalField), c.kindBad f 1] = none := by
        have known' : ¬ 3 ≤ Opnd.yCond f := by omega
        simp [lowestCode, unused, Core.slotBad_eq inside, Core.kindBad_eq kind, known']
      refine ⟨fun yes => ?_, fun no known => ?_⟩
      · have known : Opnd.yCond f ≤ 2 := by omega
        exact congrArg Host.Outcome.next (State.onInstr_issued issues (issue_goesOn issues (good known) ((c.flagHolds_iff known).mpr yes)) rfl)
      · have fails : c.flagHolds f = false := Bool.eq_false_iff.mpr (fun h => no ((c.flagHolds_iff known).mp h))
        exact congrArg Host.Outcome.next (onInstr_waits issues (issue_waits issues (good known) fails))
  · intro c on
    refine ⟨fun issues unused positive => ?_, fun issues unused => ?_, fun issues done => ?_, fun issues busy => ?_, fun issues done => ?_, fun issues busy => ?_⟩
    · intro v n
      have nonzero : Opnd.imm32 f ≠ 0 := fun zero => positive (by rw [← Opnd.ofNat_imm32, zero]; rfl)
      have good : lowestCode [(Opnd.unusedSet f [(49, 46), (31, 0)], cIllegalField), (decide (Opnd.imm32 f = 0), cIllegalField)] = none := by
        simp [lowestCode, unused, nonzero]
      rw [exec_cwait]
      refine ⟨fun reached => congrArg _ (State.onInstr_issued issues (issue_goesOn issues good ?_) rfl), fun below => congrArg _ (onInstr_waits issues (issue_waits issues good ?_))⟩
      · have reached' : v.ult n = false := decide_eq_false (Nat.not_lt.mpr reached)
        rw [reached', Bool.not_false]
      · have below' : v.ult n = true := decide_eq_true below
        rw [below', Bool.not_true]
    · exact congrArg Host.Outcome.next (State.onInstr_issued issues (issue_goesOn issues (by simp [lowestCode, unused]) rfl) rfl)
    · exact congrArg Host.Outcome.next (State.onInstr_issued issues (issue_goesOn issues (by decide) done) rfl)
    · exact congrArg Host.Outcome.next (onInstr_waits issues (issue_waits issues (by decide) busy))
    · exact congrArg Host.Outcome.next (State.onInstr_issued issues (issue_goesOn issues (by decide) (List.isEmpty_iff.mpr done)) rfl)
    · exact congrArg Host.Outcome.next (onInstr_waits issues (issue_waits issues (by decide) (List.isEmpty_eq_false_iff.mpr busy)))
  · intro c
    refine ⟨fun inOrder => ?_, fun seen skips => exec_wslot_trap issues unused (by rw [Core.wslotBad_eq, seen, decide_eq_true skips]; rfl)⟩
    have good : c.wslotBad f = false := by
      rw [Core.wslotBad_eq]
      rcases inOrder with h | h <;> simp [h]
    refine ⟨_, exec_wslot_next issues unused good, ?_, fun n other => ?_, by simp, by simp⟩
    · simp [c]
    · simp [other]
  · intro c enable run stopping
    refine ⟨fun waits wdog => ?_, fun wdog => ⟨s.setCore cr.toNat c, ?_, fun n => ?_, rfl⟩⟩
    · rw [exec_waitTimeout s cr running, Core.timeout_of_waiting enable run stopping waits wdog, Core.trap]
      simp only [Core.stopWith, Core.withCtl, stopping]
      rfl
    · rw [exec_waitTimeout s cr running, Core.timeout_of_off wdog, State.putCore_quiet]
    · rw [State.core_setCore]
      split
      · next own => rw [own]
      · rfl

end Machine
end Sys2Proof
end
section
/-!
PROOFS. Upkeep of bonded memory: registers that Crown and firmware clear, the patrol, heat decay, the repair of records, fills of a region buffer
(R260, R309, R310, R316, R331, R336 to R338).
-/
namespace Sys2Proof
namespace Sparse
variable {α : Type} [DecidableEq α]

/-- In the canonical form a pair is listed where a read at its index gives its value, and that is no default. -/
theorem mem_iff_get (d : α) (k : Nat) (v : α) : ∀ {lo : Nat} {m : Sparse α}, wfFrom d lo m = true → ((k, v) ∈ m ↔ v ≠ d ∧ get d m k = v)
  | _, [], _ => by simp [get, eq_comm]
  | lo, (j, w) :: m, wf => by
    simp only [wfFrom, Bool.and_eq_true, decide_eq_true_eq] at wf
    obtain ⟨⟨-, listed⟩, rest⟩ := wf
    have ih := mem_iff_get d k v rest
    by_cases own : k = j
    · subst own
      have once : get d m k = d := get_lt_of_wfFrom d rest (Nat.lt_succ_self k)
      rw [once] at ih
      have absent : (k, v) ∉ m := fun h => (ih.mp h).1 (ih.mp h).2.symm
      simp only [List.mem_cons, absent, or_false, Prod.mk.injEq, true_and, get, if_true]
      exact ⟨fun h => ⟨h ▸ listed, h.symm⟩, fun h => h.2.symm⟩
    · simp [get, own, ih]

/-- In the canonical form the indices rise strictly. -/
theorem keys_rising (d : α) : ∀ {lo : Nat} {m : Sparse α}, wfFrom d lo m = true → (m.map Prod.fst).Pairwise (· < ·) ∧ ∀ k ∈ m.map Prod.fst, lo ≤ k
  | _, [], _ => by simp
  | lo, (j, w) :: m, wf => by
    simp only [wfFrom, Bool.and_eq_true, decide_eq_true_eq] at wf
    obtain ⟨⟨above, -⟩, rest⟩ := wf
    obtain ⟨rising, least⟩ := keys_rising d rest
    refine ⟨List.pairwise_cons.mpr ⟨fun k hk => least k hk, rising⟩, fun k hk => ?_⟩
    rcases List.mem_cons.mp hk with own | later
    · exact own ▸ above
    · exact Nat.le_trans above (Nat.le_of_succ_le (least k later))

/-- The indices chosen by what stands at them, in rising order, are a matter of what reads give. -/
theorem filter_keys_congr {d : α} {m n : Sparse α} (wfm : wf d m = true) (wfn : wf d n = true) (q : Nat × α → Bool) (unlisted : ∀ k, q (k, d) = false)
    (same : ∀ k, q (k, get d m k) = q (k, get d n k)) : (m.filter q).map Prod.fst = (n.filter q).map Prod.fst := by
  have chosen (x : Sparse α) (wfx : wf d x = true) (k : Nat) : k ∈ (x.filter q).map Prod.fst ↔ q (k, get d x k) = true := by
    simp only [List.mem_map, List.mem_filter, Prod.exists, exists_and_right, exists_eq_right]
    constructor
    · rintro ⟨v, listed, yes⟩
      rw [((mem_iff_get d k v wfx).mp listed).2]
      exact yes
    · intro yes
      have notDefault : get d x k ≠ d := fun h => by rw [h, unlisted] at yes; exact Bool.false_ne_true yes
      exact ⟨_, (mem_iff_get d k _ wfx).mpr ⟨notDefault, rfl⟩, yes⟩
  have rising (x : Sparse α) (wfx : wf d x = true) : ((x.filter q).map Prod.fst).Pairwise (· < ·) :=
    (keys_rising d wfx).1.sublist (List.filter_sublist.map _)
  have once (x : Sparse α) (wfx : wf d x = true) : ((x.filter q).map Prod.fst).Nodup := (rising x wfx).imp Nat.ne_of_lt
  have agree : ((m.filter q).map Prod.fst).Perm ((n.filter q).map Prod.fst) :=
    (List.perm_ext_iff_of_nodup (once m wfm) (once n wfn)).mpr (fun k => by rw [chosen m wfm, chosen n wfn, same])
  exact agree.eq_of_pairwise (fun _ _ _ _ below above => absurd above (Nat.lt_asymm below)) (rising m wfm) (rising n wfn)

/-- A change of every listed value, values that become the default left out. -/
theorem get_mapValues (d : α) (f : α → α) (unlisted : f d = d) (k : Nat) {m : Sparse α} (wfm : wf d m = true) :
    get d ((m.map (fun e => (e.1, f e.2))).filter (fun e => e.2 ≠ d)) k = f (get d m k) := by
  have kept := get_keepValues d (fun v => decide (f v ≠ d)) f (by simp [unlisted]) k wfm
  rw [List.filter_map]
  refine kept.trans ?_
  by_cases h : f (get d m k) = d <;> simp [h]

end Sparse

namespace Machine
namespace Memory

/-! Records of a bucket (R318, R319, R336). -/

/-- The pages in use of a bucket in a half, in rising order: what its chain is built again from. -/
def bucketPages (m : Memory) (d h : Nat) : List Nat :=
  (m.prt.filter (fun e => e.2.valid && decide (pageHalf e.1 = d ∧ bucket e.2.part.toNat e.2.vpage.toNat m.salt = h))).map Prod.fst

/-- A bucket's chain built again in memory. -/
def rebuilt (m : Memory) (d h : Nat) : Memory :=
  (List.zip (m.bucketPages d h) ((m.bucketPages d h).drop 1 |>.map some |>.append [none])).foldl
    (fun m x => m.onRecord x.1 (fun r => { r with chain := x.2 })) (m.onRecord (anchor d h) (fun x => { x with head := (m.bucketPages d h).head? }))

/-- `n` is `m` but for the pointers of its records. -/
structure Relinked (m n : Memory) : Prop where
  wf : m.wf = true → n.wf = true
  dram : n.dram = m.dram
  salt : n.salt = m.salt
  repairs : n.repairs = m.repairs
  engine : n.engine = m.engine
  record : ∀ p, n.record p = { m.record p with chain := (n.record p).chain, head := (n.record p).head }

namespace Relinked

theorem refl (m : Memory) : Relinked m m := ⟨id, rfl, rfl, rfl, rfl, fun _ => rfl⟩

theorem trans {m n k : Memory} (a : Relinked m n) (b : Relinked n k) : Relinked m k where
  wf h := b.wf (a.wf h)
  dram := b.dram.trans a.dram
  salt := b.salt.trans a.salt
  repairs := b.repairs.trans a.repairs
  engine := b.engine.trans a.engine
  record p := by rw [b.record p, a.record p]

theorem onRecord (m : Memory) (p : Nat) {f : PrtRec → PrtRec} (links : ∀ r, f r = { r with chain := (f r).chain, head := (f r).head }) :
    Relinked m (m.onRecord p f) where
  wf h := wf_onRecord h p f
  dram := rfl
  salt := rfl
  repairs := rfl
  engine := rfl
  record q := by
    rw [record_onRecord]
    split
    · next own => rw [own, ← links]
    · rfl

end Relinked

/-- The links of a chain are written into its records' chain fields alone. -/
theorem foldl_chain_relinked (xs : List (Nat × Option Nat)) : ∀ m : Memory,
    Relinked m (xs.foldl (fun m x => m.onRecord x.1 (fun r => { r with chain := x.2 })) m) ∧
    ∀ p, ((xs.foldl (fun m x => m.onRecord x.1 (fun r => { r with chain := x.2 })) m).record p).head = (m.record p).head := by
  induction xs with
  | nil => exact fun m => ⟨.refl m, fun _ => rfl⟩
  | cons x xs ih =>
    intro m
    obtain ⟨rest, heads⟩ := ih (m.onRecord x.1 (fun r => { r with chain := x.2 }))
    refine ⟨(Relinked.onRecord m x.1 (fun _ => rfl)).trans rest, fun p => (heads p).trans ?_⟩
    rw [record_onRecord]
    split
    · next own => rw [own]
    · rfl

theorem rebuilt_relinked (m : Memory) (d h : Nat) : Relinked m (m.rebuilt d h) :=
  (Relinked.onRecord m (anchor d h) (fun _ => rfl)).trans (foldl_chain_relinked _ _).1

/-- The anchor of a bucket that has been built again names the bucket's first page (R319, R336). -/
theorem rebuilt_head (m : Memory) (d h : Nat) : ((m.rebuilt d h).record (anchor d h)).head = (m.bucketPages d h).head? := by
  refine ((foldl_chain_relinked _ _).2 _).trans ?_
  rw [record_onRecord, if_pos rfl]

/-- Which pages a bucket holds is a matter of what the records say of their pages. -/
theorem bucketPages_congr {m n : Memory} (wfm : m.wf = true) (wfn : n.wf = true) (salt : n.salt = m.salt)
    (pages : ∀ p, (n.record p).valid = (m.record p).valid ∧ (n.record p).part = (m.record p).part ∧ (n.record p).vpage = (m.record p).vpage) (d h : Nat) :
    n.bucketPages d h = m.bucketPages d h := by
  obtain ⟨-, -, -, prtm⟩ := (wf_iff m).mp wfm
  obtain ⟨-, -, -, prtn⟩ := (wf_iff n).mp wfn
  unfold bucketPages
  rw [salt]
  refine Sparse.filter_keys_congr prtn prtm _ (fun _ => rfl) (fun p => ?_)
  obtain ⟨valid, part, vpage⟩ := pages p
  show ((n.record p).valid && _) = ((m.record p).valid && _)
  simp only [record] at valid part vpage ⊢
  rw [valid, part, vpage]

/-- The record of a repair of chain fields as its AFFINITY is set, the repair itself over (R336). -/
def affinitySet (m : Memory) (i : Nat) : Memory :=
  { m with repairs := [] }.onRecord i (fun x => { x with affinity := BitVec.ofNat 4 (pageRegion i) })

theorem anchor_self (i : Nat) : anchor (pageHalf i) (i % 2 ^ 20) = i := Nat.div_add_mod' i (2 ^ 20)

end Memory

namespace State

/-! The patrol (R309, R310, R411). -/

/-- A corrected symbol is counted and logged, and can mark its page as retired (R309, R749); no halt begins and no byte, record or error of memory changes. -/
theorem corrected_frame (s : State) (p line : Nat) : (s.corrected p line).halt = s.halt ∧
    ∃ retired retireQ, (s.corrected p line).mem = { s.mem with retired := retired, retireQ := retireQ } := by
  unfold corrected
  extract_lets r blk t g n table u v
  have halt : u.halt = s.halt := by simp [u, t]
  have mem : u.mem = s.mem := by simp [u, t]
  have halt' : v.halt = s.halt := by simp [v, halt]
  have mem' : v.mem = s.mem := by simp [v, mem]
  split
  · split
    · exact ⟨halt', _, s.mem.retireQ, by rw [mem_onMem, mem']⟩
    · exact ⟨halt', s.mem.retired, _, by rw [mem_onMem, mem']⟩
  · exact ⟨halt, s.mem.retired, s.mem.retireQ, mem⟩

/-- The patrol of a region with no line in error changes nothing. -/
theorem patrol_of_clean {s : State} {r : Nat} (clean : ∀ e ∈ s.mem.flips, pageRegion (e.1 / 256) ≠ r) : s.patrol r = s := by
  have untouched : s.mem.flips.filter (fun e => decide (pageRegion (e.1 / 256) = r)) = [] :=
    List.filter_eq_nil_iff.mpr (fun e he => by simpa using clean e he)
  rw [patrol, untouched]
  rfl

/-- The patrol of a region with one line in error treats that line. -/
theorem patrol_of_only {s : State} {r page line : Nat} {e : Sparse Byte} (running : s.halt = none) (region : pageRegion page = r) (inside : line < 256)
    (only : s.mem.flips = [(Memory.lineAddr page line, e)]) : s.patrol r = s.patrolLine r page line := by
  have ofPage : Memory.lineAddr page line / 256 = page := by unfold Memory.lineAddr; omega
  have ofLine : Memory.lineAddr page line % 256 = line := by unfold Memory.lineAddr; omega
  simp [patrol, only, ofPage, ofLine, region, running]

theorem flipsOf_of_only {m : Memory} {page line : Nat} {e : Sparse Byte} (only : m.flips = [(Memory.lineAddr page line, e)]) : m.flipsOf page line = e := by
  simp [Memory.flipsOf, only, Sparse.get]

/-- A line of a page in use that the code cannot correct begins the halt (R308, R411). -/
theorem patrolLine_lost {s : State} {r page line : Nat} (lost : rsCorrect (s.mem.flipsOf page line) = none)
    (used : (s.mem.record page).valid = true) : s.patrolLine r page line = s.beginHalt (mcuffBlock r) 0x2102 page line 0 := by
  simp [patrolLine, lost, used]

/-- A line that it corrects keeps the errors that are left (R309, R310). -/
theorem patrolLine_mended {s : State} {r page line : Nat} {left : Sparse Byte} (mended : rsCorrect (s.mem.flipsOf page line) = some left) :
    s.patrolLine r page line = (s.corrected page line).onMem (fun m => { m with flips := Sparse.set [] m.flips (Memory.lineAddr page line) left }) := by
  simp [patrolLine, mended]

/-- A halt that begins is the first one's code and block (R407). -/
theorem beginHalt_halt {s : State} (running : s.halt = none) (block code a0 a1 a2 : Nat) : (s.beginHalt block code a0 a1 a2).halt = some (code, block) := by
  simp [beginHalt, running]

/-! The repair of a record (R336). -/

theorem rebuildBucket_mem (s : State) (d h : Nat) : (s.rebuildBucket d h).mem = s.mem.rebuilt d h := by
  unfold rebuildBucket Memory.rebuilt
  exact (List.foldl_hom State.mem (fun _ _ => rfl)).symm

theorem repairs_ended {s : State} {i groups : Nat} (only : s.mem.repairs = [(i, groups)]) :
    s.onMem (fun m => { m with repairs := m.repairs.filter (fun x => x ≠ (i, groups)) }) = s.onMem (fun m => { m with repairs := [] }) := by
  have ended : s.mem.repairs.filter (fun x => x ≠ (i, groups)) = [] := by simp [only]
  exact congrArg (fun rest => { s with mem := { s.mem with repairs := rest } }) ended

/-- A repair of chain fields ends with the bucket that the record anchors built again; what comes before, its own page's bucket among it, changes pointers
alone. -/
theorem repairDone_links {s : State} {i groups : Nat} (only : s.mem.repairs = [(i, groups)]) (links : groups % 32 = 0) :
    ∃ m, Memory.Relinked (s.mem.affinitySet i) m ∧ (s.repairDone i groups).mem = m.rebuilt (pageHalf i) (i % 2 ^ 20) := by
  unfold repairDone
  rw [repairs_ended only]
  extract_lets t r u v
  rw [if_neg (not_not_intro links)]
  refine ⟨v.mem, ?_, rebuildBucket_mem v _ _⟩
  show Memory.Relinked u.mem v.mem
  simp only [v]
  split
  · rw [rebuildBucket_mem]
    exact Memory.rebuilt_relinked _ _ _
  · exact .refl _

/-- A repair of page fields ends with the page out of use and its erase queued (R327, R336, R392). -/
theorem repairDone_page {s : State} {i groups : Nat} (only : s.mem.repairs = [(i, groups)]) (page : groups % 32 ≠ 0) (unused : (s.mem.record i).valid = false) :
    s.repairDone i groups = (s.onMem (fun m => { m with repairs := [] })).eraseFree i := by
  unfold repairDone
  rw [repairs_ended only]
  extract_lets t r
  have unused' : ¬ r.valid = true := by rw [Bool.not_eq_true]; exact unused
  rw [if_pos page, if_neg unused']

@[simp] theorem region_onMem (s : State) (f : Memory → Memory) (r : Nat) : (s.onMem f).region r = s.region r := rfl

theorem eraseFree_mem (s : State) (p : Nat) : (s.eraseFree p).mem =
    s.mem.onRecord p (fun x => { x with valid := false, state := BitVec.ofNat 3 prtScrubbing, becomes := 0 }) := rfl

/-- An erase waits in its region's scrubber queue where that is empty (R392). -/
theorem eraseFree_scrubQ {s : State} {p : Nat} (empty : (s.region (pageRegion p)).cuff.scrubQ = []) :
    ((s.eraseFree p).region (pageRegion p)).cuff.scrubQ = [⟨.erase, p⟩] := by
  have room : scrubRoom (s.region (pageRegion p)).cuff = true := by simp [scrubRoom, empty]
  simp [eraseFree, scrub, onCuff, room, empty]

/-! A fill of a region buffer (R331). -/

@[simp] theorem region_count64 (s : State) (addr n r : Nat) : (s.count64 addr n).region r = s.region r := rfl

/-- A line that a fill brings to an empty region buffer stands in the first way of its set. -/
theorem rbFill_first {s : State} {r p l : Nat} (asked : (p, l) ∈ (s.region r).fills) (rb : (s.region r).rb = []) (ways : (s.region r).rbOff = []) :
    s.rbFill r p l = (s.setRegion r { s.region r with
      fills := (s.region r).fills.filter (fun x => x ≠ (p, l)),
      rb := [⟨p % 64, 0, p, (s.mem.record p).part.toNat, 1#256 <<< l⟩] }).count64 (ctl (regionBlock r) 0x810) 1 := by
  have way : (List.range 16).find? (fun w => !(s.region r).rbOff.contains (16 * (p % 64) + w) && !(s.region r).rb.any (fun f => f.set = p % 64 && f.way = w)) = some 0 := by
    simp [rb, ways]
  have asked' : (s.region r).fills.contains (p, l) = true := by simpa using asked
  have absent : (s.region r).rb.find? (fun f => f.page = p) = none := by simp [rb]
  unfold rbFill
  simp only [asked', if_true, absent, way]
  simp [rb]

end State

namespace Memory

/-- The record of a repair of chain fields once its bucket has been built again (R336): AFFINITY its own region, HEAD the first page of the bucket that it
anchors, and every other record as it was but for its pointers. -/
theorem rebuilt_affinitySet {m n : Memory} {i : Nat} (wf : m.wf = true) (inside : i < 2 ^ 21) (links : Relinked (m.affinitySet i) n) :
    let t := n.rebuilt (pageHalf i) (i % 2 ^ 20)
    t.repairs = [] ∧ t.dram = m.dram ∧ t.engine = m.engine ∧ (t.record i).affinity.toNat = pageRegion i ∧
    (t.record i).head = (m.bucketPages (pageHalf i) (i % 2 ^ 20)).head? ∧
    ∀ p, p ≠ i → t.record p = { m.record p with chain := (t.record p).chain, head := (t.record p).head } := by
  intro t
  have all : Relinked (m.affinitySet i) t := links.trans (n.rebuilt_relinked _ _)
  have wfSet : (m.affinitySet i).wf = true := wf_onRecord (m := { m with repairs := [] }) wf i _
  have set (p : Nat) : (m.affinitySet i).record p = if p = i then { m.record i with affinity := BitVec.ofNat 4 (pageRegion i) } else m.record p :=
    record_onRecord _ _ _ _
  have pages (p : Nat) : (n.record p).valid = (m.record p).valid ∧ (n.record p).part = (m.record p).part ∧ (n.record p).vpage = (m.record p).vpage := by
    rw [links.record p, set p]
    split
    · next own => exact own ▸ ⟨rfl, rfl, rfl⟩
    · exact ⟨rfl, rfl, rfl⟩
  have head := n.rebuilt_head (pageHalf i) (i % 2 ^ 20)
  rw [anchor_self, bucketPages_congr wf (links.wf wfSet) links.salt pages] at head
  refine ⟨all.repairs, all.dram, all.engine, ?_, head, fun p other => ?_⟩
  · rw [all.record i, set i, if_pos rfl]
    have region : pageRegion i < 16 := by unfold pageRegion; omega
    simp [Nat.mod_eq_of_lt region]
  · have kept := all.record p
    rwa [set p, if_neg other] at kept

end Memory

/-! The commands. -/

theorem exec_chainMaxClear (s : State) (running : s.halt = none) :
    exec (.chainMaxClear .crown) s = .next (s.onMem (fun m => { m with chainMax0 := 0, chainMax1 := 0 })) :=
  live_running s running (fun s => s.onMem (fun m => { m with chainMax0 := 0, chainMax1 := 0 }))

theorem exec_patrolRun (s : State) (rg : BitVec 4) (running : s.halt = none) :
    exec (.patrolRun rg .firmware) s = .next (s.onRegion rg.toNat (fun g => { g with patrol := true })) :=
  live_running s running (fun s => s.onRegion rg.toNat (fun g => { g with patrol := true }))

/-- A region as a pass of the patrol begins: the order and the table of corrected symbols are cleared (R309, R310). -/
def State.patrolBegun (s : State) (r : Nat) : State := s.onRegion r (fun g => { g with corr := [], patrol := false })

theorem exec_patrolPass (s : State) (rg : BitVec 4) (running : s.halt = none) (ordered : (s.region rg.toNat).patrol = true) :
    exec (.patrolPass rg []) s = .next ((s.patrolBegun rg.toNat).patrol rg.toNat).drainEngine := by
  show execPatrolPass rg [] s = _
  simp only [execPatrolPass, liveEng_running s running, ordered, Bool.true_or, if_true]
  rfl

/-- A decay sweep with sampling on halves HEAT of every record and of every loan (R316, R367). -/
theorem exec_heatDecaySweep (s : State) (running : s.halt = none) (sampling : (s.reg (ctl 0x0009 0)).toNat.testBit 0 = true) :
    exec (.heatDecaySweep []) s = .next (((s.onMem (fun m =>
      { m with prt := (m.prt.map (fun e => (e.1, { e.2 with heat := e.2.heat >>> 1 }))).filter (fun e => e.2 ≠ PrtRec.free) })).onCrown
        (fun c => { c with loans := c.loans.map (fun l => { l with heat := l.heat / 2 }) }))).drainEngine := by
  show execHeatDecaySweep [] s = _
  simp only [execHeatDecaySweep, liveEng_running s running, List.foldl_nil, sampling, if_true]

theorem exec_prtRepairComplete {s : State} {i groups : Nat} (running : s.halt = none) (only : s.mem.repairs = [(i, groups)]) :
    exec (.prtRepairComplete) s = .next (s.repairDone i groups).drainEngine := by
  show execPrtRepairComplete s = _
  simp only [execPrtRepairComplete, liveEng_running s running, only]

theorem exec_rbLineFill (s : State) (rg : BitVec 4) (page : BitVec 21) (line : BitVec 8) (running : s.halt = none) :
    exec (.rbLineFill rg page line) s = .next (s.rbFill rg.toNat page.toNat line.toNat).drainEngine :=
  liveEng_running s running (fun s => s.rbFill rg.toNat page.toNat line.toNat)

/-- Settles O22: each command by the operation that it is, a patrol by what its one line in error is, a repair by the bucket that it builds again. -/
theorem memoryUpkeep : Obligations.MemoryUpkeep := by
  unfold Obligations.MemoryUpkeep
  refine ⟨fun s rg running => ?_, fun s rg calm ordered => ?_, fun s calm wf sampling => ?_, fun s i groups calm wf only inside => ?_,
    fun s rg page line calm asked rb ways => ?_⟩
  · intro g
    exact ⟨rfl, exec_chainMaxClear s running, exec_patrolRun s rg running⟩
  · obtain ⟨running, engine⟩ := calm
    have next := exec_patrolPass s rg running ordered
    refine ⟨fun clean => ?_, fun page line e region inside only => ?_⟩
    · rw [next, State.patrol_of_clean (s := s.patrolBegun rg.toNat) clean]
      rfl
    · have begunRunning : (s.patrolBegun rg.toNat).halt = none := running
      have errors : (s.patrolBegun rg.toNat).mem.flipsOf page line = e := State.flipsOf_of_only only
      rw [State.patrol_of_only begunRunning region inside only] at next
      refine ⟨fun lost used => ?_, fun left mended => ?_⟩
      · rw [State.patrolLine_lost (s := s.patrolBegun rg.toNat) (by rw [errors, lost]) used, State.drainEngine_nil _ (by rw [State.beginHalt_mem]; exact engine)] at next
        exact ⟨_, next, State.beginHalt_halt begunRunning _ _ _ _ _, State.beginHalt_mem _ _ _ _ _ _⟩
      · obtain ⟨halt, retired, retireQ, mem⟩ := (s.patrolBegun rg.toNat).corrected_frame page line
        rw [State.patrolLine_mended (by rw [errors, mended]), State.drainEngine_nil _ (by rw [State.mem_onMem, mem]; exact engine)] at next
        exact ⟨_, next, halt.trans running, by rw [State.mem_onMem, mem]; rfl, by rw [State.mem_onMem, mem]; rfl⟩
  · obtain ⟨running, engine⟩ := calm
    obtain ⟨-, -, -, prt⟩ := (Memory.wf_iff s.mem).mp wf
    have next := exec_heatDecaySweep s running sampling
    rw [State.drainEngine_nil _ (by exact engine)] at next
    exact ⟨_, next, fun p => Sparse.get_mapValues PrtRec.free (fun x => { x with heat := x.heat >>> 1 }) rfl p prt, rfl, rfl, rfl⟩
  · obtain ⟨running, engine⟩ := calm
    have next := exec_prtRepairComplete running only
    refine ⟨fun links => ?_, fun page unused empty => ?_⟩
    · obtain ⟨m, relinked, mem⟩ := State.repairDone_links only links
      obtain ⟨repairs, dram, kept, affinity, head, others⟩ := Memory.rebuilt_affinitySet wf inside relinked
      rw [State.drainEngine_nil _ (by rw [mem, kept, engine])] at next
      exact ⟨_, next, by rw [mem]; exact ⟨repairs, affinity, head, others, dram⟩⟩
    · rw [State.repairDone_page only page unused] at next
      rw [State.drainEngine_nil _ (by rw [State.eraseFree_mem]; exact engine)] at next
      refine ⟨_, next, rfl, ?_, ?_, State.eraseFree_scrubQ (s := s.onMem (fun m => { m with repairs := [] })) empty⟩
      · rw [State.eraseFree_mem, Memory.record_onRecord, if_pos rfl]
      · rw [State.eraseFree_mem, Memory.record_onRecord, if_pos rfl]
        rfl
  · obtain ⟨running, engine⟩ := calm
    have next := exec_rbLineFill s rg page line running
    rw [State.rbFill_first asked rb ways, State.drainEngine_nil _ (by exact engine)] at next
    exact ⟨_, next, by simp, by simp, rfl, rfl⟩

end Machine
end Sys2Proof
end

section
/-!
PROOFS. The update engine's tensor table, the end of a command, the rings and UE_CTRL (R276 to R284, R293, R301).
-/
namespace Sys2Proof
namespace Machine
namespace State

/-! Updates of one engine. -/

theorem setRegion_setRegion (s : State) (r : Nat) (g h : Region) : (s.setRegion r g).setRegion r h = s.setRegion r h := by
  simp only [setRegion, Sparse.set_set]

@[simp] theorem ue_onUe (s : State) (r : Nat) (f : UpdateEngine → UpdateEngine) : ((s.onUe r f).region r).ue = f (s.region r).ue := by
  simp [onUe]

theorem onUe_onUe (s : State) (r : Nat) (f g : UpdateEngine → UpdateEngine) : (s.onUe r f).onUe r g = s.onUe r (fun u => g (f u)) := by
  simp [onUe, onRegion, setRegion_setRegion]

/-- What an update makes of its engine is all that it does. -/
theorem onUe_congr {s : State} {r : Nat} {f g : UpdateEngine → UpdateEngine} (same : f (s.region r).ue = g (s.region r).ue) : s.onUe r f = s.onUe r g := by
  simp only [onUe, onRegion, same]

/-- A code raised tells nothing of the engines. -/
theorem raise_onUe (s : State) (r : Nat) (f : UpdateEngine → UpdateEngine) (block code a0 a1 a2 : Nat) :
    (s.onUe r f).raise block code a0 a1 a2 = (s.raise block code a0 a1 a2).onUe r f := rfl

/-! A command's turn (R277). -/

/-- Entry `k` of a window is a command that waits for no other: its engine works, and nothing earlier on its groups is left. -/
structure UeTurn (s : State) (r k : Nat) (c : UeCmd) : Prop where
  listed : (s.region r).ue.window[k]? = some c
  waiting : c.started = false
  live : s.ueLive r c.part = true
  alone : ((s.region r).ue.window.take k).all (fun e => !e.meets c) = true

theorem UeTurn.ueDo {s : State} {r k : Nat} {c : UeCmd} (turn : s.UeTurn r k c) {ok : UeCmd → Bool} (right : ok c = true) (f : State → UeCmd → State) :
    s.ueDo r k ok f = f s c := by
  obtain ⟨listed, waiting, live, alone⟩ := turn
  simp [State.ueDo, ueReady, listed, waiting, live, alone, right]

theorem UeTurn.liveEng {s : State} {r k : Nat} {c : UeCmd} (turn : s.UeTurn r k c) (running : s.halt = none) {ok : UeCmd → Bool} (right : ok c = true)
    (f : State → UeCmd → State) : liveEng s (fun s => s.ueDo r k ok f) = .next (f s c).drainEngine := by
  rw [liveEng_running s running, turn.ueDo right]

end State

/-! A command that names every group of one registration. -/

structure UeCmd.Whole (c : UeCmd) (t : Registration) : Prop where
  part : t.part = c.part
  tensor : t.tensor = c.tensor
  first : t.first = c.first
  count : t.count = c.count
  pos : 0 < c.count

namespace UeCmd.Whole
variable {c : UeCmd} {t : Registration}

theorem meets (whole : c.Whole t) : t.meets c.part c.tensor c.first (c.first + c.count) = true := by
  obtain ⟨part, tensor, first, count, pos⟩ := whole
  simp [Registration.meets, part, tensor, first, count, pos]

theorem regsOf (whole : c.Whole t) {s : State} {r : Nat} (only : (s.region r).ue.table = [t]) : s.regsOf r c = [t] := by
  simp [State.regsOf, only, whole.meets]

/-- Nothing is left of the registration once the command's groups have been cut out of it (R284). -/
theorem cutFrom (whole : c.Whole t) : Registration.cutFrom [t] c.part c.tensor c.first (c.first + c.count) = [] := by
  have rest : t.without c.first (c.first + c.count) = [] := by simp [Registration.without, whole.first, whole.count]
  simp [Registration.cutFrom, whole.meets, rest]

theorem ueNamed (whole : c.Whole t) {s : State} {r : Nat} (only : (s.region r).ue.table = [t]) : s.ueNamed r c = true := by
  have pos := whole.pos
  simp [State.ueNamed, whole.regsOf only, State.covered, whole.first, whole.count, pos]

/-- The shared checks refuse such a command for its fields and for a missing accumulation buffer alone (R280, R284, R286). -/
theorem ueCheck (whole : c.Whole t) {s : State} {r : Nat} (only : (s.region r).ue.table = [t]) (fields : c.fieldsOk = true)
    (buffer : c.op = 3 ∨ c.op = 4 ∧ c.src = 0 → 1 < t.accN) : s.ueCheck r c = none := by
  have buffered : c.op = 3 ∨ c.op = 4 ∧ c.src = 0 → t.accN ≠ 1 := fun reads => Nat.ne_of_gt (buffer reads)
  simpa [State.ueCheck, fields, whole.ueNamed only, whole.regsOf only] using buffered

end UeCmd.Whole

namespace State

/-! REGISTER, RELEASE and undefined operations (R278 to R284). -/

/-- A registration that meets no other one enters the table where that has room. -/
theorem ueRegister_new {s : State} {r : Nat} {c : UeCmd} (good : c.registerOk = true) (pos : 0 < c.registration.count)
    (room : (s.region r).ue.table.length + tableHeld (s.region r).ue < 1024)
    (pages : ∀ x ∈ s.allRegs, x.part = c.registration.part → ∀ a ∈ x.runs, ∀ b ∈ c.registration.runs, runsMeet a b = false)
    (groups : ∀ x ∈ s.allRegs, x.part = c.registration.part → x.tensor = c.registration.tensor →
      x.first + x.count ≤ c.registration.first ∨ c.registration.first + c.registration.count ≤ x.first) :
    s.ueRegister r c = (s.onUe r (fun u => { u with table := u.table ++ [c.registration] })).ueEnd r c 0 := by
  unfold ueRegister
  extract_lets t u hi own same
  have apart : ∀ x ∈ s.allRegs, x.part = t.part → x.runs.any (fun a => t.runs.any (fun b => runsMeet a b)) = false := by
    intro x hx part
    simpa [List.any_eq_false] using pages x hx part
  have other : s.allRegs.any (fun x => x.part = t.part && x.tensor != t.tensor && x.runs.any (fun a => t.runs.any (fun b => runsMeet a b))) = false := by
    rw [List.any_eq_false]
    intro x hx meets
    simp only [Bool.and_eq_true, decide_eq_true_eq] at meets
    obtain ⟨⟨part, -⟩, meets⟩ := meets
    rw [apart x hx part] at meets
    exact Bool.false_ne_true meets
  have alone : own = [] := by
    refine List.filter_eq_nil_iff.mpr (fun x hx meets => ?_)
    simp only [Bool.and_eq_true, Bool.or_eq_true, decide_eq_true_eq] at meets
    obtain ⟨⟨part, tensor⟩, meets | meets⟩ := meets
    · have beside : x.first + x.count ≤ t.first ∨ hi ≤ x.first := groups x hx part tensor
      simp only [Registration.meets, decide_eq_true_eq] at meets
      omega
    · rw [apart x hx part] at meets
      exact Bool.false_ne_true meets
  have fresh : same = false := by
    simp only [same, alone]
    simpa using Nat.ne_of_lt pos
  have room' : ¬ 1024 ≤ u.table.length + tableHeld u := Nat.not_le.mpr room
  simp only [good, other, fresh, alone, room', Bool.not_true, Bool.false_eq_true, if_false, List.isEmpty_nil, t]

/-- RELEASE of a whole registration that is alone in the table leaves the table empty. -/
theorem ueRelease_whole {s : State} {r : Nat} {c : UeCmd} {t : Registration} (whole : c.Whole t) (only : (s.region r).ue.table = [t])
    (op : c.op = 2) (fields : c.fieldsOk = true) (held : tableHeld (s.region r).ue ≤ 1024) :
    s.ueRelease r c = (s.onUe r (fun u => { u with
      table := [], done := u.done.filter (fun d => !(d.part = c.part && d.tensor = c.tensor && decide (c.first ≤ d.group ∧ d.group < c.first + c.count))) })).ueEnd r c 0 := by
  have check := whole.ueCheck only fields (by simp [op])
  have fits : tableFits (s.region r).ue c = true := by simpa [tableFits, tableAfter, only, whole.cutFrom, op] using held
  simp only [ueRelease, check, fits, Bool.not_true, Bool.false_eq_true, if_false]
  exact congrArg (fun t => ueEnd t r c 0) (onUe_congr (by rw [only, whole.cutFrom]))

/-- A refusal is raised, kept in UE_STATUS and counted, and ends the command with its code (R278, R301). -/
theorem ueRefuse_eq (s : State) (r : Nat) (c : UeCmd) (code : Nat) : s.ueRefuse r c code =
    ((s.raise (regionBlock r) code r c.tensor c.first).onUe r (fun u => { u with lastCode := code, refusedCnt := satAdd 16 u.refusedCnt 1 })).ueEnd r c code := by
  rw [ueRefuse, ueRaise, onUe_onUe]

/-! The end of a command (R278, R280, R293). -/

/-- Eight bytes at the end of a line are written in one part. -/
theorem writeParts_lineEnd {o : Nat} {b : Bytes} (place : o % 64 = 56) (size : b.length = 8) : writeParts o b = [(o, b)] := by
  have page : (o + b.length - 1) / pageSize - o / pageSize + 1 = 1 := by simp only [size, pageSize]; omega
  have lo : max o ((o / pageSize + 0) * pageSize) = o := by simp only [pageSize]; omega
  have len : min (o + b.length) ((o / pageSize + 0 + 1) * pageSize) - o = 8 := by simp only [size, pageSize]; omega
  have frags : pieceFrags o 8 = [(o, 8)] := by simp [pieceFrags, place]
  have all : b.take 8 = b := List.take_of_length_le (Nat.le_of_eq size)
  simp only [writeParts, page, List.range_one, List.flatMap_cons, List.flatMap_nil, List.append_nil, lo, len, frags, List.map_cons, List.map_nil, Nat.sub_self,
    List.drop_zero, all]

/-- STATUS at the end of a slot that a page serves waits behind the engine's writes, and the signal follows it. -/
theorem slotDone_served {s : State} {r part slotOff p : Nat} (aligned : slotOff % 64 = 0)
    (served : (s.access (.region r) part (slotOff / pageSize) true).2 = .served p) (code signal : Nat) :
    s.slotDone (some r) part slotOff code signal = (s.post ⟨some r, part, slotOff + 56, .bytes (leBytes 8 code)⟩).engineSignal (some r) part signal := by
  have page : (slotOff + 56) / pageSize = slotOff / pageSize := by simp only [pageSize]; omega
  have parts := writeParts_lineEnd (o := slotOff + 56) (by omega) (length_leBytes 8 code)
  have put : (s.enginePut (some r) part (slotOff + 56) (leBytes 8 code)).1 = s.post ⟨some r, part, slotOff + 56, .bytes (leBytes 8 code)⟩ := by
    simp only [enginePut, engAsker, page, served, parts, List.foldl_cons, List.foldl_nil]
  rw [slotDone, put]

/-- A command of a ring that ends leaves the window; its STATUS is its code or its count of non-finite elements. -/
theorem ueEnd_served {s : State} {r p : Nat} {c : UeCmd} (code : Nat) (ring : c.slotOff < 2 ^ 45) (aligned : c.slotOff % 64 = 0)
    (served : ((s.onUe r (fun u => { u with window := u.window.filter (fun x => !(x.part = c.part && x.slotOff = c.slotOff)) })).access
      (.region r) c.part (c.slotOff / pageSize) true).2 = .served p) :
    s.ueEnd r c code = ((s.onUe r (fun u => { u with window := u.window.filter (fun x => !(x.part = c.part && x.slotOff = c.slotOff)) })).post
      ⟨some r, c.part, c.slotOff + 56, .bytes (leBytes 8 (if code = 0 then min c.nonFinite (2 ^ 32 - 1) * 2 ^ 16 else code))⟩).engineSignal (some r) c.part c.signal := by
  have external : ueInternal c = false := by simpa [ueInternal] using ring
  have status : code + (if code = 0 then min c.nonFinite (2 ^ 32 - 1) * 2 ^ 16 else 0) = if code = 0 then min c.nonFinite (2 ^ 32 - 1) * 2 ^ 16 else code := by
    split <;> omega
  simp only [ueEnd, external, Bool.false_eq_true, if_false, status]
  exact slotDone_served aligned served _ _

/-! UE_CTRL and the rings (R276, R301). -/

theorem ueCtrl_inside {who : Writer} (inside : outside who = false) (s : State) (r : Nat) (f : UpdateEngine → UpdateEngine) : s.ueCtrl r who f = s.onUe r f := by
  simp [ueCtrl, inside]

/-- A landed slot with the ring's next number enters the window, and the ring goes on to the number after it. -/
theorem ueConsume_got {s t : State} {r part : Nat} {ring : UeRing} {slot : List Byte} (owned : part ≠ 0) (rings : (s.region r).ue.rings = [ring])
    (own : ring.part = part)
    (read : s.engineRead (some r) part (ring.vpage * pageSize + 64 * (ring.seq % max 1 ring.slots)) 64 = .got t slot)
    (enable : (s.region r).ue.enable = true) (state : (s.region r).ue.state = 0) (room : (s.region r).ue.window.length < 64)
    (seq : leNat ((slot.drop 4).take 4) = ring.seq % 2 ^ 32) (live : s.ueLive r part = true) :
    s.ueConsume r part = t.onUe r (fun u => { u with
      rings := u.rings.map (fun x => if x.part = part then { x with seq := x.seq + 1 } else x),
      window := u.window ++ [⟨part, ring.vpage * pageSize + 64 * (ring.seq % max 1 ring.slots), slot, false, 0, [], 0, false⟩] }) := by
  have found : (s.region r).ue.rings.find? (fun x => x.part = part) = some ring := by simp [rings, own]
  simp [ueConsume, found, enable, state, room, live, read, seq, owned]

end State

/-! The commands on the table and the control register. -/

theorem exec_ueRegister {s : State} {rg : BitVec 4} {k : BitVec 6} {c : UeCmd} (running : s.halt = none) (turn : s.UeTurn rg.toNat k.toNat c) (op : c.op = 1) :
    exec (.ueRegister rg k) s = .next (s.ueRegister rg.toNat c).drainEngine :=
  turn.liveEng running (decide_eq_true op) _

theorem exec_ueRelease {s : State} {rg : BitVec 4} {k : BitVec 6} {c : UeCmd} (running : s.halt = none) (turn : s.UeTurn rg.toNat k.toNat c) (op : c.op = 2) :
    exec (.ueRelease rg k) s = .next (s.ueRelease rg.toNat c).drainEngine :=
  turn.liveEng running (decide_eq_true op) _

theorem exec_ueUndefinedOp {s : State} {rg : BitVec 4} {k : BitVec 6} {c : UeCmd} (running : s.halt = none) (turn : s.UeTurn rg.toNat k.toNat c)
    (op : c.op = 0 ∨ 6 ≤ c.op) : exec (.ueUndefinedOp rg k) s = .next (s.ueRefuse rg.toNat c 0x1107).drainEngine :=
  turn.liveEng running (decide_eq_true op) _

theorem exec_ueSlotConsume {s : State} (running : s.halt = none) (rg : BitVec 4) (part : BitVec 5) :
    exec (.ueSlotConsume rg part) s = .next (s.ueConsume rg.toNat part.toNat).drainEngine :=
  liveEng_running s running (fun s => s.ueConsume rg.toNat part.toNat)

theorem exec_ueEnable_crown {s : State} (running : s.halt = none) (rg : BitVec 4) (on : Bool) :
    exec (.ueEnable rg .crown on) s = .next (s.onUe rg.toNat (fun u => { u with enable := on })) := by
  refine (live_running s running (fun s => s.ueCtrl rg.toNat .crown (fun u => { u with enable := on }))).trans ?_
  rw [State.ueCtrl_inside rfl]

/-- DRAIN of an engine that consumes slots. -/
theorem exec_ueDrain_firmware {s : State} (running : s.halt = none) (rg : BitVec 4) (enable : (s.region rg.toNat).ue.enable = true)
    (state : (s.region rg.toNat).ue.state = 0) : exec (.ueDrain rg .firmware) s = .next (s.onUe rg.toNat (fun u => { u with state := 3 })) := by
  refine (live_running s running (fun s => s.ueCtrl rg.toNat .firmware _)).trans ?_
  rw [State.ueCtrl_inside rfl]
  exact congrArg _ (State.onUe_congr (by simp [enable, state]))

theorem exec_ueDrainComplete_empty {s : State} (running : s.halt = none) (rg : BitVec 4) (state : (s.region rg.toNat).ue.state = 3)
    (empty : (s.region rg.toNat).ue.window = []) :
    exec (.ueDrainComplete rg) s = .next (s.onUe rg.toNat (fun u => { u with state := 0, enable := false })) := by
  refine (live_running s running (fun s => s.onUe rg.toNat _)).trans ?_
  exact congrArg _ (State.onUe_congr (if_pos ⟨state, empty⟩))

/-- A write of UE_CTRL by management is refused as one of a core's register is (R92, R301). -/
theorem exec_ueDrain_mgmt {s : State} (running : s.halt = none) (rg : BitVec 4) (conn id : Nat) :
    ∃ t a, exec (.ueDrain rg (.mgmt conn id)) s = .next t ∧ t.regions = s.regions ∧ t.out = s.out ++ [.refused (.mgmt conn id) a 0x1006] := by
  obtain ⟨errs, mgmt, boot, refused⟩ := s.refuse_mgmt_eq conn id (ctl (regionBlock rg.toNat) 0x700)
  refine ⟨_, ctl (regionBlock rg.toNat) 0x700, live_running s running (fun s => s.refuse (.mgmt conn id) (ctl (regionBlock rg.toNat) 0x700) cCoreReg), ?_⟩
  rw [refused]
  exact ⟨rfl, rfl⟩

/-- Settles O25: each command on the table by what it makes of it, the end of a command by its STATUS, UE_CTRL by its writer. -/
theorem updateEngineTable : Obligations.UpdateEngineTable := by
  unfold Obligations.UpdateEngineTable
  refine ⟨fun s rg k c running => ?_, fun s r code c p ring aligned => State.ueEnd_served code ring aligned, fun s rg running => ?_⟩
  · intro u listed waiting live alone t
    have turn : s.UeTurn rg.toNat k.toNat c := ⟨listed, waiting, live, alone⟩
    refine ⟨fun op good pos room pages groups => ?_, fun x op fields only part tensor first count pos held => ?_, fun op => ?_⟩
    · rw [exec_ueRegister running turn op, State.ueRegister_new good pos room pages groups]
    · rw [exec_ueRelease running turn op, State.ueRelease_whole ⟨part, tensor, first, count, pos⟩ only op fields held]
    · rw [exec_ueUndefinedOp running turn op, State.ueRefuse_eq]
  · refine ⟨exec_ueEnable_crown running rg, exec_ueDrain_firmware running rg, exec_ueDrainComplete_empty running rg, exec_ueDrain_mgmt running rg,
      fun part ring t slot owned rings own => ?_⟩
    intro off read enable state room seq live
    have owned' : part.toNat ≠ 0 := fun zero => owned (BitVec.eq_of_toNat_eq zero)
    rw [exec_ueSlotConsume running, State.ueConsume_got owned' rings own read enable state room seq live]

end Machine
end Sys2Proof
end

section
/-!
PROOFS. The update engine at work: how ACCUM, STEP and MODE begin, and the first page groups of an accumulation (R285 to R300).
-/
namespace Sys2Proof
namespace Machine
namespace State

/-! Commands that begin (R285 to R290, R295). -/

section Start
variable {s : State} {r : Nat} {c : UeCmd} {t : Registration}

theorem ueStart_unrefused (hyp : List F32) (pages : s.ueRefusal r c = none) : s.ueStart r c hyp = s.ueBegin r c hyp := by simp [ueStart, pages]

/-- ACCUM of the micro-step that follows those done of each of its groups begins (R286). -/
theorem ueAccum_next (whole : c.Whole t) (only : (s.region r).ue.table = [t]) (fields : c.fieldsOk = true) (buffer : 1 < t.accN) (micro : c.micro ≤ t.accN)
    (done : ∀ q, c.first ≤ q → q < c.first + c.count → s.microDone r c.part c.tensor q c.step + 1 = c.micro) (pages : s.ueRefusal r c = none) :
    s.ueAccum r c = s.ueBegin r c [] := by
  have next : ∀ q ∈ groupsOf c, s.microDone r c.part c.tensor q c.step + 1 = c.micro := by
    intro q hq
    obtain ⟨i, hi, rfl⟩ := List.mem_map.mp hq
    have := List.mem_range.mp hi
    exact done _ (by omega) (by omega)
  have within : (s.regsOf r c).any (fun t => decide (t.accN < c.micro)) = false := by simpa [whole.regsOf only] using micro
  have anew : (groupsOf c).any (fun q => decide (c.micro ≤ s.microDone r c.part c.tensor q c.step)) = false := by
    rw [List.any_eq_false]
    intro q hq
    have := next q hq
    simp only [decide_eq_true_eq]
    omega
  have turn : (groupsOf c).all (fun q => decide (s.microDone r c.part c.tensor q c.step + 1 = c.micro)) = true := by simpa using next
  simp only [ueAccum, whole.ueCheck only fields (fun _ => buffer), within, anew, turn, Bool.or_self, Bool.false_eq_true, if_false, if_true,
    ueStart_unrefused [] pages]

/-- STEP with a gradient source of its own begins with the ten words of a good record (R290). -/
theorem ueStep_sourced (whole : c.Whole t) (only : (s.region r).ue.table = [t]) (fields : c.fieldsOk = true) (op : c.op = 4) (src : c.src ≠ 0)
    {s' : State} {b : Bytes} (read : s.engineGet (some r) c.part c.hypAddr 64 = .got s' b) (good : hypOk t.sgd b = true) (pages : s'.ueRefusal r c = none) :
    s.ueStep r c = s'.ueBegin r c ((chunks 4 10 b).map (BitVec.ofNat 32)) := by
  have check := whole.ueCheck only fields (by simp [op, src])
  simp [ueStep, check, src, read, whole.regsOf only, good, ueStart_unrefused _ pages]

/-- MODE into the other mode begins where the table will hold what it leaves (R283, R295). -/
theorem ueMode_other (whole : c.Whole t) (only : (s.region r).ue.table = [t]) (fields : c.fieldsOk = true) (op : c.op = 5) (other : t.wide ≠ decide (c.src = 1))
    (fits : tableFits (s.region r).ue c = true) (pages : s.ueRefusal r c = none) : s.ueMode r c = s.ueBegin r c [] := by
  have check := whole.ueCheck only fields (by simp [op])
  have change : (s.regsOf r c).all (fun t => t.wide == decide (c.src = 1)) = false := by simpa [whole.regsOf only] using other
  simp only [ueMode, check, change, fits, Bool.not_true, Bool.false_eq_true, if_false, ueStart_unrefused [] pages]

end Start

/-! A residue mismatch (R299, R300). -/

/-- The first mismatch of a group is counted and raised, and the group is left to be done again. -/
theorem groupMismatch_first {s : State} {r : Nat} {c : UeCmd} (first : c.retried = false) :
    s.groupMismatch r c = (s.raise (regionBlock r) 0x110A r c.tensor c.next).onUe r (fun u => { u with
      lastCode := 0x110A, residueCnt := satAdd 16 u.residueCnt 1, window := u.window.map (fun x => if x = c then { x with retried := true } else x) }) := by
  simp only [groupMismatch, first, Bool.false_eq_true, if_false, ueRaise, raise_onUe, onUe_onUe]

theorem groupWriteBack_bad {s : State} {r k : Nat} {c : UeCmd} (listed : (s.region r).ue.window[k]? = some c) (started : c.started = true)
    (live : s.ueLive r c.part = true) : s.groupWriteBack r k true = s.groupMismatch r c := by
  simp [groupWriteBack, listed, started, live]

/-! A page group is written back (R285, R298, R299). -/

/-- The next group of entry `k` can be written back: registration `t` holds it, no page that it reads is being moved, and no write of it is held up. -/
structure GroupReady (s : State) (r k : Nat) (c : UeCmd) (t : Registration) : Prop where
  listed : (s.region r).ue.window[k]? = some c
  started : c.started = true
  live : s.ueLive r c.part = true
  reg : s.regOf r c c.next = some t
  still : ∀ x ∈ (groupReads t c c.next).flatten, s.moving c.part (x.1 / pageSize) = false
  free : (groupTargets t c c.next).findSome? (s.ueBlock r c.part) = none

/-- A group that is not the last is written to its targets, and the command goes on to the next. -/
theorem GroupReady.writeBack {s s1 s2 : State} {r k bad : Nat} {c : UeCmd} {t : Registration} {b out : Bytes} (ready : s.GroupReady r k c t)
    (read : s.engineReads (some r) c.part (groupReads t c c.next).flatten = .got s1 b)
    (made : s1.groupOut t c c.next (cutAt ((groupReads t c c.next).map (fun xs => (xs.map Prod.snd).foldl (· + ·) 0)) b) = (out, bad, s2))
    (more : c.next + 1 < c.first + c.count) :
    s.groupWriteBack r k false =
      ((((groupTargets t c c.next).zip (cutAt ((groupTargets t c c.next).map Prod.snd) out)).foldl (fun s x => s.uePut r c.part x.1.1 x.2) s2).onUe r
        (fun u => groupKept u t c c.next)).onUe r (fun u => { u with window := u.window.map (fun y =>
          if y.part = c.part ∧ y.slotOff = c.slotOff then { c with next := c.next + 1, retried := false, nonFinite := c.nonFinite + bad } else y) }) := by
  obtain ⟨listed, started, live, reg, still, free⟩ := ready
  have unmoved : (groupReads t c c.next).flatten.any (fun x => s.moving c.part (x.1 / pageSize)) = false := by
    rw [List.any_eq_false]
    exact fun x hx => Bool.eq_false_iff.mp (still x hx)
  simp only [groupWriteBack, listed, started, live, Bool.not_true, Bool.or_self, Bool.false_eq_true, if_false, reg, unmoved, free, read, made, more, if_true]

/-! A group of micro-step 1 with BF16 gradients (R285). -/

/-- The image of BF16 gradients widened to binary32. -/
def widenedPage (b : Bytes) : Bytes := (chunks 2 8192 b).flatMap (fun w => leBytes 4 (rne32 (bf16.decode w)).toNat)

section FirstMicroStep
variable {c : UeCmd} (op : c.op = 3) (micro : c.micro = 1)
include op

theorem groupTargets_accum (t : Registration) (q : Nat) : groupTargets t c q =
    [((t.gacc + 2 * (q - t.first)) * pageSize, pageSize), ((t.gacc + 2 * (q - t.first) + 1) * pageSize, pageSize)] := by
  simp [groupTargets, op, wholePages]

include micro

theorem groupReads_firstMicro (t : Registration) (q : Nat) : groupReads t c q = [[], [((c.srcVp + (q - c.first)) * pageSize, pageSize)]] := by
  simp [groupReads, op, micro, wholePages]

theorem groupOut_firstMicro (bf : c.src = 1) (s : State) (t : Registration) (q : Nat) (b : Bytes) : s.groupOut t c q [[], b] = (widenedPage b, 0, s) := by
  simp [groupOut, op, accumGroup, bf, gradients, micro, unchunk, widenedPage, groupSizeUe, bits32, List.flatMap_map]

/-- Such a group draws nothing, and counts as done. -/
theorem groupKept_firstMicro (u : UpdateEngine) (t : Registration) (q : Nat) : groupKept u t c q = { u with
    done := u.done.filter (fun d => !(d.part = c.part && d.tensor = c.tensor && d.group = q && d.step = c.step)) ++ [⟨c.part, c.tensor, q, c.step, 1⟩] } := by
  simp [groupKept, op, micro]

/-- Its gradients go widened to its two accumulation pages. -/
theorem GroupReady.writeBack_firstMicro {s s1 : State} {r k : Nat} {t : Registration} {b : Bytes} (ready : s.GroupReady r k c t) (bf : c.src = 1)
    (more : c.next + 1 < c.first + c.count)
    (read : s.engineReads (some r) c.part [((c.srcVp + (c.next - c.first)) * pageSize, pageSize)] = .got s1 b) (size : b.length = pageSize) :
    s.groupWriteBack r k false =
      ((s1.uePut r c.part ((t.gacc + 2 * (c.next - t.first)) * pageSize) ((widenedPage b).take pageSize)).uePut r c.part
        ((t.gacc + 2 * (c.next - t.first) + 1) * pageSize) (((widenedPage b).drop pageSize).take pageSize)).onUe r (fun u => { u with
          done := u.done.filter (fun d => !(d.part = c.part && d.tensor = c.tensor && d.group = c.next && d.step = c.step)) ++
            [⟨c.part, c.tensor, c.next, c.step, 1⟩],
          window := u.window.map (fun y => if y.part = c.part ∧ y.slotOff = c.slotOff then { c with next := c.next + 1, retried := false } else y) }) := by
  have reads := groupReads_firstMicro op micro t c.next
  have cut : cutAt ((groupReads t c c.next).map (fun xs => (xs.map Prod.snd).foldl (· + ·) 0)) b = [[], b] := by simp [reads, cutAt, ← size]
  have made := groupOut_firstMicro op micro bf s1 t c.next b
  rw [ready.writeBack (by simpa [reads] using read) (by rw [cut, made]) more]
  simp only [groupTargets_accum op, cutAt, List.map_cons, List.map_nil, List.zip_cons_cons, List.zip_nil_right, List.foldl_cons, List.foldl_nil,
    groupKept_firstMicro op micro, onUe_onUe, Nat.add_zero]

end FirstMicroStep
end State

/-! The commands that begin. -/

section Begin
variable {s : State} {rg : BitVec 4} {k : BitVec 6} {c : UeCmd} (running : s.halt = none) (turn : s.UeTurn rg.toNat k.toNat c)
include running turn

theorem exec_ueAccum (op : c.op = 3) : exec (.ueAccum rg k) s = .next (s.ueAccum rg.toNat c).drainEngine := turn.liveEng running (decide_eq_true op) _

theorem exec_ueStep (op : c.op = 4) : exec (.ueStep rg k) s = .next (s.ueStep rg.toNat c).drainEngine := turn.liveEng running (decide_eq_true op) _

theorem exec_ueMode (op : c.op = 5) : exec (.ueMode rg k) s = .next (s.ueMode rg.toNat c).drainEngine := turn.liveEng running (decide_eq_true op) _

end Begin

theorem exec_groupWriteBack {s : State} (running : s.halt = none) (rg : BitVec 4) (k : BitVec 6) (bad : Bool) :
    exec (.groupWriteBack rg k bad) s = .next (s.groupWriteBack rg.toNat k.toNat bad).drainEngine :=
  liveEng_running s running (fun s => s.groupWriteBack rg.toNat k.toNat bad)

/-- Settles O26: each command by the checks that let it begin, a page group by whether its residues match. -/
theorem updateEngineWork : Obligations.UpdateEngineWork := by
  unfold Obligations.UpdateEngineWork
  refine ⟨fun s rg k c t running => ?_, fun s rg k c t running => ?_⟩
  · intro u listed waiting live alone fields only part tensor first count pos begun
    have turn : s.UeTurn rg.toNat k.toNat c := ⟨listed, waiting, live, alone⟩
    have whole : c.Whole t := ⟨part, tensor, first, count, pos⟩
    refine ⟨fun op buffer micro done pages => ?_, fun b s' op src read _ good pages => ?_, fun op other fits pages => ?_⟩
    · rw [exec_ueAccum running turn op, State.ueAccum_next whole only fields buffer micro done pages]
      rfl
    · rw [exec_ueStep running turn op, State.ueStep_sourced whole only fields op src read good pages]
      rfl
    · rw [exec_ueMode running turn op, State.ueMode_other whole only fields op other fits pages]
      rfl
  · intro u q listed started live
    refine ⟨fun first => ?_, fun s1 b op bf micro reg more => ?_⟩
    · rw [exec_groupWriteBack running, State.groupWriteBack_bad listed started live, State.groupMismatch_first first]
    · intro i src still free read size new w1 w2
      have ready : s.GroupReady rg.toNat k.toNat c t := ⟨listed, started, live, reg, by simpa [State.groupReads_firstMicro op micro, pageSize] using still, free⟩
      rw [exec_groupWriteBack running, ready.writeBack_firstMicro op micro bf more read size]
      rfl

end Machine
end Sys2Proof
end

section
/-!
PROOFS. Pages that move: migrations, lending and recall of pages between chips, Crown's stall (R322, R327, R354, R355, R363 to R367, R748).
-/
namespace Sys2Proof
namespace Machine

/-- What each step of a fold keeps, the fold keeps. -/
theorem foldl_keeps {σ β γ : Type} (g : σ → γ) {f : σ → β → σ} {xs : List β} {s : σ} (keep : ∀ s x, g (f s x) = g s) : g (xs.foldl f s) = g s := by
  induction xs generalizing s with
  | nil => rfl
  | cons x xs ih => exact ih.trans (keep s x)

theorem Memory.record_fetched (m : Memory) (fetched : List EngFetch) (p : Nat) : record { m with fetched := fetched } p = m.record p := rfl

namespace State

/-! What the operations on pages leave as it was. -/

/-- Invalidating a page writes the translation caches alone (R325). -/
theorem tcDrop_eq (s : State) (part vpage : Nat) : ∃ regions, s.tcDrop part vpage = { s with regions := regions } := by
  unfold tcDrop
  refine List.foldlRecOn (motive := fun t : State => ∃ regions, t = { s with regions := regions }) _ _ ⟨_, rfl⟩ ?_
  rintro t ⟨regions, rfl⟩ r -
  exact ⟨_, rfl⟩

@[simp] theorem tcDrop_crown (s : State) (part vpage : Nat) : (s.tcDrop part vpage).crown = s.crown := by
  obtain ⟨regions, h⟩ := s.tcDrop_eq part vpage
  rw [h]

@[simp] theorem rbDrop_crown (s : State) (p : Nat) : (s.rbDrop p).crown = s.crown := by
  unfold rbDrop
  exact foldl_keeps State.crown (by intros; rfl)

@[simp] theorem scrub_crown (s : State) (kind : ScrubKind) (p : Nat) : (s.scrub kind p).crown = s.crown := rfl
@[simp] theorem eraseFree_crown (s : State) (p : Nat) : (s.eraseFree p).crown = s.crown := rfl
@[simp] theorem portWrite_crown (s : State) (p off : Nat) (bs : Bytes) : (s.portWrite p off bs).crown = s.crown := by simp [portWrite, wrote, sealNow]

theorem eraseFree_record (s : State) (p : Nat) :
    (s.eraseFree p).mem.record p = { s.mem.record p with valid := false, state := BitVec.ofNat 3 prtScrubbing, becomes := 0 } := by
  simp [eraseFree_mem]

/-- A page that is released is out of use and SCRUBBING (R327). -/
theorem releasePage_record (s : State) (p : Nat) :
    ((s.releasePage p).mem.record p).valid = false ∧ ((s.releasePage p).mem.record p).state.toNat = prtScrubbing := by
  simp [releasePage, eraseFree_record, prtScrubbing]

@[simp] theorem releasePage_crown (s : State) (p : Nat) : (s.releasePage p).crown = s.crown := by
  rw [releasePage, eraseFree_crown, onMem_crown, tcDrop_crown]

/-! A message to a lender changes the queues of links alone. -/

theorem lendSend_eq (s : State) (pos : Nat) (m : LendMsg) : ∃ net, s.lendSend pos m = { s with net := net } := by
  unfold lendSend sendTo
  cases s.chooseLink (s.groupChip pos) 0 with
  | none => exact ⟨_, rfl⟩
  | some j => exact ⟨_, rfl⟩

@[simp] theorem lendSend_crown (s : State) (pos : Nat) (m : LendMsg) : (s.lendSend pos m).crown = s.crown := by
  obtain ⟨net, h⟩ := s.lendSend_eq pos m
  rw [h]

/-- Asking lines of another chip writes the queues of links and the list of fetches, and nothing else. -/
theorem fetchAsk_eq (s : State) (chip part v line n base : Nat) :
    ∃ net fetched, s.fetchAsk chip part v line n base = { s with net := net, mem := { s.mem with fetched := fetched } } := by
  unfold fetchAsk
  split
  · exact ⟨s.net, s.mem.fetched, rfl⟩
  · split
    · exact ⟨s.net, s.mem.fetched, rfl⟩
    · next j _ =>
      extract_lets ps t
      obtain ⟨net, asked⟩ : ∃ net, t = { s with net := net } := by
        refine List.foldlRecOn (motive := fun u : State => ∃ net, u = { s with net := net }) ps _ ⟨_, rfl⟩ ?_
        rintro u ⟨net, rfl⟩ x -
        exact ⟨_, rfl⟩
      rw [asked]
      exact ⟨_, _, rfl⟩

/-- A placement record writes the chip's ring, its count, and the rings of partitions behind the engine's writes (R369). -/
theorem place_eq (s : State) (kind part step a b c d : Nat) : ∃ engine counts records ringCount, s.place kind part step a b c d =
    { s with mem := { s.mem with engine := engine }, counts := counts, crown := { s.crown with records := records, ringCount := ringCount } } := by
  unfold place
  extract_lets r rs t u toward
  refine List.foldlRecOn (motive := fun v : State => ∃ engine counts records ringCount, v =
    { s with mem := { s.mem with engine := engine }, counts := counts, crown := { s.crown with records := records, ringCount := ringCount } })
    _ _ ⟨_, _, _, _, rfl⟩ ?_
  rintro v ⟨engine, counts, records, ringCount, rfl⟩ q -
  exact ⟨_, _, _, _, rfl⟩

@[simp] theorem place_record (s : State) (kind part step a b c d p : Nat) : (s.place kind part step a b c d).mem.record p = s.mem.record p := by
  obtain ⟨engine, counts, records, ringCount, h⟩ := s.place_eq kind part step a b c d
  rw [h]
  rfl

@[simp] theorem place_retireQ (s : State) (kind part step a b c d : Nat) : (s.place kind part step a b c d).mem.retireQ = s.mem.retireQ := by
  obtain ⟨engine, counts, records, ringCount, h⟩ := s.place_eq kind part step a b c d
  rw [h]

@[simp] theorem place_copies (s : State) (kind part step a b c d : Nat) : (s.place kind part step a b c d).crown.copies = s.crown.copies := by
  obtain ⟨engine, counts, records, ringCount, h⟩ := s.place_eq kind part step a b c d
  rw [h]

@[simp] theorem place_loans (s : State) (kind part step a b c d : Nat) : (s.place kind part step a b c d).crown.loans = s.crown.loans := by
  obtain ⟨engine, counts, records, ringCount, h⟩ := s.place_eq kind part step a b c d
  rw [h]

/-! A whole-page write changes nothing of Crown, whatever its epoch makes of it (R385 to R389). -/

@[simp] theorem setChipSlots_crown (s : State) (slot : Nat) (on : Bool) : (s.setChipSlots slot on).crown = s.crown := by
  unfold setChipSlots
  extract_lets t u
  calc u.crown = t.crown := foldl_keeps State.crown (fun _ _ => setSlot_crown _ _ _ _)
    _ = s.crown := foldl_keeps State.crown (by cases on <;> intros <;> rfl)

@[simp] theorem ownerEvent_crown (s : State) (kind : Nat) (body : List Nat) : (s.ownerEvent kind body).crown = s.crown := by
  unfold ownerEvent
  exact foldl_keeps State.crown (by intros; rfl)

@[simp] theorem keyCode_crown (s : State) (part code : Nat) : (s.keyCode part code).crown = s.crown := by simp [keyCode]

@[simp] theorem rotate_crown (s : State) (part : Nat) : (s.rotate part).1.crown = s.crown := by
  unfold rotate
  extract_lets x t u old pages
  cases x.state with
  | rotating => exact keyCode_crown s part _
  | open_ =>
    dsimp only
    split
    · simp
    · exact (foldl_keeps State.crown (by intros; rfl)).trans (by simp [u, t])
  | _ => exact keyCode_crown s part _

@[simp] theorem askRotation_crown (s : State) (part : Nat) : (s.askRotation part).crown = s.crown := by
  unfold askRotation
  extract_lets t
  split <;> simp [t]

@[simp] theorem setEpoch_crown (s : State) (p epoch : Nat) (kgen : Bool) : (s.setEpoch p epoch kgen).crown = s.crown := by
  unfold setEpoch
  extract_lets r t u part v
  split
  · rw [scrub_crown]
    simp only [v]
    split <;> simp [u, t]
  · simp [t]

@[simp] theorem opLanded_crown (s : State) (n slot : Nat) (old : Option Bytes) : (s.opLanded n slot old).crown = s.crown := by
  unfold opLanded
  cases s.moverOp n slot with
  | none => rfl
  | some m =>
    cases old with
    | none => rfl
    | some b =>
      dsimp only
      split <;> rfl

@[simp] theorem answer_crown (s : State) (who : Requester) (old : Option Bytes) : (s.answer who old).crown = s.crown := by
  cases who with
  | core n slot => exact s.opLanded_crown n slot old
  | peer part chip core slot j => cases old <;> rfl
  | signal part chip core slot j => rfl
  | engine => rfl

@[simp] theorem closeTracker_crown (s : State) (p : Nat) : (s.closeTracker p).crown = s.crown := by
  unfold closeTracker
  dsimp only
  split
  · rfl
  · split
    · rw [answer_crown, setEpoch_crown, onCuff_crown]
    · rfl

@[simp] theorem openTracker_crown (s : State) (p : Nat) (kgen : Bool) (who : Requester) : (s.openTracker p kgen who).1.crown = s.crown := by
  unfold openTracker
  extract_lets r c
  split
  · rfl
  · split
    · split <;> simp
    · rfl

@[simp] theorem takeSlot_crown (s : State) (cuff slot a0 a1 : Nat) : (s.takeSlot cuff slot a0 a1).1.crown = s.crown := by
  unfold takeSlot
  split <;> simp

@[simp] theorem enginePage_crown (s : State) (p : Nat) (kgen : Bool) (bs : Bytes) : (s.enginePage p kgen bs).1.crown = s.crown := by
  unfold enginePage
  split
  · simp
  · extract_lets k t
    split
    · simp [k]
    · split <;> simp [t, k, writeTracked]

/-! A scan and a migration (R322, R327, R354, R355). -/

/-- A page that moves becomes MIGRATING with a copy of it toward the first free page of the region (R327, R355). -/
theorem migrateTo_free {s : State} {p d toward : Nat} (unpinned : s.pinnedPage p = false) (free : s.freePage toward = some d) :
    ∃ regions, s.migrateTo p toward = { s with
      regions := regions
      mem := (s.mem.onRecord p (fun x => { x with state := BitVec.ofNat 3 prtMigrating, becomes := (s.mem.record p).state })).onRecord d
        (fun x => { x with valid := false, state := BitVec.ofNat 3 prtMigrating, part := (s.mem.record p).part, vpage := (s.mem.record p).vpage })
      crown := { s.crown with copies := s.crown.copies ++ [⟨p, d, .migrate⟩] } } := by
  obtain ⟨regions, dropped⟩ := s.tcDrop_eq (s.mem.record p).part.toNat (s.mem.record p).vpage.toNat
  simp only [migrateTo, unpinned, free, dropped, Bool.false_eq_true, if_false]
  exact ⟨_, rfl⟩

/-- A LOCAL page outside every page set moves alone to a region that has a page for it (R354). -/
theorem migrate_alone {s : State} {p : Nat} (resident : (s.mem.record p).state.toNat = prtLocal) (away : pageRegion p ≠ (s.mem.record p).affinity.toNat)
    (awake : s.ckpt.atRest.toNat.testBit (s.mem.record p).part.toNat = false) (ungrouped : s.groupOf p = none)
    (unset : s.inPageSet (s.mem.record p).part.toNat (s.mem.record p).vpage.toNat = false) (unpinned : s.pinnedPage p = false)
    (room : 1 ≤ s.regionFree (s.mem.record p).affinity.toNat) : s.migrate p = s.migrateTo p (s.mem.record p).affinity.toNat := by
  have alone : s.moveSet p = ([p], false) := by simp [moveSet, ungrouped, unset]
  have table : s.tableRoom p (s.mem.record p).affinity.toNat = true := by simp [tableRoom, ungrouped]
  have fits : ¬ s.regionFree (s.mem.record p).affinity.toNat < 1 := Nat.not_lt.mpr room
  simp [migrate, resident, away, awake, alone, table, fits, unpinned]

/-- A scan that finds one page hot, none selected before and none to retire, is the migration of that page but for what it records (R354, R356, R369). -/
theorem migrationScan_one {s : State} {p : Nat} (on : (s.reg (ctl 8 0)).toNat.testBit 0 = true) (selected : s.crown.selected = []) (hot : s.migrants = [p])
    (kept : (s.migrate p).mem.retireQ = []) :
    (∀ q, s.migrationScan.mem.record q = (s.migrate p).mem.record q) ∧ s.migrationScan.crown.copies = (s.migrate p).crown.copies := by
  have cleared : s.onCrown (fun c => { c with selected := [] }) = s := by rw [onCrown, ← selected]
  unfold migrationScan
  rw [cleared]
  extract_lets old waiting begun enabled t started u v
  have moved : t = s.migrate p := by simp [t, begun, enabled, on, waiting, selected, hot]
  have record (q : Nat) : v.mem.record q = t.mem.record q := foldl_keeps (fun x : State => x.mem.record q) (fun _ _ => place_record ..)
  have copies : v.crown.copies = t.crown.copies := foldl_keeps (fun x : State => x.crown.copies) (fun _ _ => place_copies ..)
  have retireQ : v.mem.retireQ = t.mem.retireQ := foldl_keeps (fun x : State => x.mem.retireQ) (fun _ _ => place_retireQ ..)
  have idle : v.retireScan = v := by simp [retireScan, retireQ, moved, kept]
  rw [idle, ← moved]
  exact ⟨record, copies⟩

/-- The end of the only copy of a migration, in a chain that takes it, is the page's move (R355). -/
theorem migrateDone_only {s : State} {p d : Nat} (only : s.crown.copies = [⟨p, d, .migrate⟩]) (moving : (s.mem.record p).state.toNat = prtMigrating)
    (takes : s.chainFull (s.mem.record p).part.toNat (s.mem.record p).vpage.toNat (pageHalf d) = false ∨ pageHalf d = pageHalf p)
    {t : State} {done : Bool} (move : s.movePage p d (s.mem.record p).becomes.toNat = (t, done)) :
    s.migrateDone 0 = if done then (t.onCrown (fun x => { x with copies := x.copies.erase ⟨p, d, .migrate⟩ })).followGroups else t := by
  have unrefused : (s.chainFull (s.mem.record p).part.toNat (s.mem.record p).vpage.toNat (pageHalf d) && decide (pageHalf d ≠ pageHalf p)) = false := by
    rcases takes with room | same
    · simp [room]
    · simp [same]
  simp only [migrateDone, only, decide_true, List.filter_cons_of_pos, List.filter_nil, List.getElem?_cons_zero, moving, unrefused, move, ne_eq,
    not_true_eq_false, if_false, Bool.false_eq_true]

/-- A page that cannot be read whole does not move. -/
theorem movePage_unread {s u : State} {p : Nat} (read : s.readWhole .ld p = (u, false)) (d into : Nat) : s.movePage p d into = (u, false) := by
  simp [movePage, read]

/-- A page that has been read and written whole takes the place of its source, which is erased (R322, R327). -/
theorem movePage_linked {s u v : State} {p d into : Nat} {m : Memory} (read : s.readWhole .ld p = (u, true))
    (written : u.enginePage d (u.newestKgen (u.mem.record p).part.toNat) (u.mem.read p 0 pageSize) = (v, true))
    (linked : ((v.tcDrop (u.mem.record p).part.toNat (u.mem.record p).vpage.toNat).onMem (fun m => m.unlink p)).mem.link d (fun y => { y with
      part := (u.mem.record p).part, vpage := (u.mem.record p).vpage, state := BitVec.ofNat 3 into, dirty := (u.mem.record p).dirty,
      heat := (u.mem.record p).heat, affinity := (u.mem.record p).affinity, becomes := 0 }) = some m) :
    s.movePage p d into =
      (State.eraseFree { (v.tcDrop (u.mem.record p).part.toNat (u.mem.record p).vpage.toNat).onMem (fun m => m.unlink p) with mem := m } p, true) := by
  simp only [movePage, read, written, linked, Bool.not_true, Bool.false_eq_true, if_false]

/-! Lending and recall (R363 to R367). -/

theorem borrow_low {s : State} (may : s.mayBorrow = true) (low : s.freePages < s.regField (ctl 8 0x18) 20 0) : s.borrow =
    s.lendPeers.foldl (fun s q => s.lendSend q .ask) (s.onCrown (fun c => { c with asks := s.lendPeers, noLender := false })) := by
  have short : ¬ s.regField (ctl 8 0x18) 20 0 ≤ s.freePages := Nat.not_le.mpr low
  simp [borrow, borrowAsk, may, short]

/-- A frame that arrives and is taken has its effect on the device after it has passed (R483). -/
theorem receive_took {s t : State} {f : RxFrame} {type : Nat} {act : RxFrame → State → Taken} (arrives : s.arrives f type)
    (took : act (s.plain f type) (s.passed f type) = .took t) : s.receive f type act = t := by
  obtain ⟨-, up, checks⟩ := arrives
  cases clear : unkeyed f.link type with
  | true =>
    simp only [plain, passed, clear, if_true, Bool.not_true] at took
    simp only [receive, up, clear, took, ne_eq, not_true_eq_false, Bool.not_true, Bool.not_false, if_false, if_true]
  | false =>
    obtain ⟨fid, key, stands, ctr, tag⟩ := checks.resolve_left (by simp [clear])
    have slot : (s.takeSlot (22 + f.link) (2 * f.part.toNat + b2n f.kgen) 0 0).2 = true := by
      simp only [takeSlot, stands, Bool.false_eq_true, if_false]
    simp only [plain, passed, clear, Bool.false_eq_true, if_false, Bool.not_false] at took
    simp only [receive, up, clear, fid, key, slot, ctr, tag, took, ne_eq, not_true_eq_false, Bool.not_true, Bool.not_false, Bool.false_eq_true, if_false]

theorem plain_src (s : State) (f : RxFrame) (type : Nat) : (s.plain f type).src = f.src := by
  unfold plain
  split <;> rfl

/-- The only page on its way to a lender, still MIGRATING, is on loan once its contents are there, and its page here is released (R365). -/
theorem loanDone_only {s : State} {p part vpage pos i : Nat} (only : s.crown.copies = [⟨p, p, .lend part vpage pos i⟩])
    (landed : s.net.eng.contains (s.groupChip pos, 60) = false) (moving : (s.mem.record p).state.toNat = prtMigrating) :
    s.loanDone 0 = (((s.onCrown (fun x => { x with copies := [] })).onCrown
      (fun x => { x with loans := x.loans ++ [⟨part, vpage, pos, i, false, false, 0⟩] })).tcDrop part vpage).releasePage p := by
  have erased : s.onCrown (fun x => { x with copies := x.copies.erase ⟨p, p, .lend part vpage pos i⟩ }) = s.onCrown (fun x => { x with copies := [] }) := by
    simp [onCrown, only]
  have listed : s.lendCopies = [⟨p, p, .lend part vpage pos i⟩] := by simp [lendCopies, only]
  simp only [loanDone, listed, List.getElem?_cons_zero, landed, Bool.false_eq_true, if_false, erased, onCrown_mem, moving, if_true]

/-- The only loan is recalled (R367): it is marked, and a page is taken for it; asking for its lines touches queues and fetches alone. -/
theorem recallLoan_only {s : State} {l : Loan} {d : Nat} (only : s.crown.loans = [l]) (chosen : s.nextRecall = some l) (awake : s.ckpt.atRest = 0)
    (free : (List.range 16).findSome? s.freePage = some d) : ∃ net fetched, s.recallLoan = { s with
      net := net
      mem := { s.mem.onRecord d (fun x => { x with
        valid := false, state := BitVec.ofNat 3 prtMigrating, part := BitVec.ofNat 5 l.part, vpage := BitVec.ofNat 31 l.vpage }) with fetched := fetched }
      crown := { s.crown with
        loans := [{ l with recalling := true }], copies := s.crown.copies ++ [⟨d, d, .recall l.part l.vpage l.lender l.index⟩] } } := by
  simp only [recallLoan, awake, chosen, free, onCrown, onMem, only, List.map_cons, List.map_nil, ne_eq, not_true_eq_false, if_false, if_true]
  exact fetchAsk_eq _ _ _ _ _ _ _

/-- The only loan's page that has come back whole, written and linked at its new page, ends the loan and its copy (R367). -/
theorem recallDone_only {s u : State} {l : Loan} {d : Nat} {f : EngFetch} {m : Memory} (only : s.crown.loans = [l])
    (copy : s.crown.copies = [⟨d, d, .recall l.part l.vpage l.lender l.index⟩]) (fetched : s.mem.fetched = [f])
    (part : f.part = l.part) (vpage : f.vpage = l.vpage) (lines : f.lines = 256) (left : f.left = 0) (code : f.code = 0) (whole : f.got.length = pageSize)
    (room : s.chainFull l.part l.vpage (pageHalf d) = false) (written : s.enginePage d (s.newestKgen l.part) f.got = (u, true))
    (linked : u.mem.link d (fun x => { x with
      part := BitVec.ofNat 5 l.part, vpage := BitVec.ofNat 31 l.vpage, state := BitVec.ofNat 3 prtLocal, dirty := true, heat := 0,
      affinity := BitVec.ofNat 4 (pageRegion d), becomes := 0 }) = some m) :
    s.recallDone 0 = ((((State.onMem { u with mem := m } (fun m => { m with
        fetched := m.fetched.filter (fun f => !(f.part = l.part && f.vpage = l.vpage && f.lines = 256)) })).tcDrop l.part l.vpage).onCrown (fun x => { x with
          copies := x.copies.erase ⟨d, d, .recall l.part l.vpage l.lender l.index⟩, loans := x.loans.filter (fun y => !(y.part = l.part && y.vpage = l.vpage)) })).lendSend
            l.lender (.returned l.part l.index)).place 9 0 0 l.lender 1 0 0 := by
  have listed : s.recallCopies = [⟨d, d, .recall l.part l.vpage l.lender l.index⟩] := by simp [recallCopies, copy]
  have onLoan : (s.loanOf l.part l.vpage).isNone = false := by simp [loanOf, only]
  have come : s.mem.fetched.find? (fun f => f.part = l.part && f.vpage = l.vpage && f.lines = 256) = some f := by simp [fetched, part, vpage, lines]
  have bytes : (f.got ++ List.replicate pageSize 0).take pageSize = f.got := by rw [← whole, List.take_left]
  simp only [recallDone, listed, List.getElem?_cons_zero, onLoan, come, left, code, room, bytes, written, linked, ne_eq, not_true_eq_false, Bool.not_true,
    Bool.false_eq_true, if_false]

end State

/-! The commands. -/

theorem exec_migrationScan {s : State} (running : s.halt = none) : exec .migrationScan s = .next s.migrationScan.drainEngine :=
  liveEng_running s running State.migrationScan

theorem exec_migrationCopyDone {s : State} (running : s.halt = none) (k : Nat) : exec (.migrationCopyDone k) s = .next (s.migrateDone k).drainEngine :=
  liveEng_running s running (fun s => s.migrateDone k)

theorem exec_borrow {s : State} (running : s.halt = none) : exec .borrow s = .next s.borrow.drainEngine := liveEng_running s running State.borrow

/-- A lending message that arrives has its effect for the position of its sender (R363). -/
theorem exec_crownFrame {s : State} {f : RxFrame} (arrives : s.arrives f 0x0D) (msg : LendMsg) :
    exec (.crownFrame f msg) s = .next ((s.passed f 0x0D).lendMsg (f.src.toNat % 8) msg).drainEngine := by
  obtain ⟨running, -⟩ := id arrives
  refine (liveEng_running s running (fun s => s.receive f 0x0D (fun f s => .took (s.lendMsg (f.src.toNat % 8) msg)))).trans ?_
  rw [State.receive_took arrives rfl, State.plain_src]

theorem exec_loanCopyDone {s : State} (running : s.halt = none) (k : Nat) : exec (.loanCopyDone k) s = .next (s.loanDone k).drainEngine :=
  liveEng_running s running (fun s => s.loanDone k)

theorem exec_recall {s : State} (running : s.halt = none) : exec .recall s = .next s.recallLoan.drainEngine := liveEng_running s running State.recallLoan

theorem exec_recallCopyDone {s : State} (running : s.halt = none) (k : Nat) : exec (.recallCopyDone k) s = .next (s.recallDone k).drainEngine :=
  liveEng_running s running (fun s => s.recallDone k)

theorem exec_crownStall {s : State} (running : s.halt = none) : exec .crownStall s = .next (s.beginHalt 8 0x080A 0 0 0).drainEngine :=
  liveEng_running s running (fun s => s.beginHalt 8 0x080A 0 0 0)

/-- Settles O36: a migration by its scan and by the move of its page, lending by what each message and each copy makes of the loans. -/
theorem pagesMove : Obligations.PagesMove := by
  unfold Obligations.PagesMove
  refine ⟨fun s p d running other => ⟨?scan, ?done, ?unread⟩, fun s running => ⟨?borrow, ?ask, ?lent, ?recalled, ?back, ?stall⟩⟩
  case scan =>
    intro on selected hot ungrouped unset resident away awake unpinned room free retireQ
    obtain ⟨regions, moved⟩ := State.migrateTo_free unpinned free
    rw [← State.migrate_alone resident away awake ungrouped unset unpinned room] at moved
    obtain ⟨record, copies⟩ := State.migrationScan_one on selected hot (by rw [moved]; exact retireQ)
    refine ⟨_, exec_migrationScan running, ?_, ?_, ?_, by rw [copies, moved]⟩
    · simp [record, moved, other, prtMigrating]
    · simp [record, moved, prtMigrating]
    · simp [record, moved]
  case done =>
    intro u v m only moving takes read x written w linked
    rw [exec_migrationCopyDone running, State.migrateDone_only only moving takes (State.movePage_linked read written linked), if_pos rfl]
  case unread =>
    intro u only moving same read
    rw [exec_migrationCopyDone running, State.migrateDone_only only moving (.inr same) (State.movePage_unread read _ _), if_neg Bool.false_ne_true]
  case borrow =>
    intro may low
    rw [exec_borrow running, State.borrow_low may low]
    rfl
  case ask => exact fun f arrives => exec_crownFrame arrives .ask
  case lent =>
    intro p part vpage pos i only landed moving
    refine ⟨_, exec_loanCopyDone running 0, ?_⟩
    rw [State.loanDone_only only landed moving, State.releasePage_crown, State.tcDrop_crown]
    exact ⟨rfl, rfl, State.releasePage_record _ p⟩
  case recalled =>
    intro l d only chosen awake free
    obtain ⟨net, fetched, recalled⟩ := State.recallLoan_only only chosen awake free
    refine ⟨_, exec_recall running, ?_⟩
    rw [recalled]
    refine ⟨rfl, rfl, ?_, rfl⟩
    simp [Memory.record_fetched, prtMigrating]
  case back =>
    intro l d f u m only copy fetched part vpage lines left code whole room written linked
    have kept : u.crown = s.crown := by rw [← State.enginePage_crown s d (s.newestKgen l.part) f.got, written]
    refine ⟨_, exec_recallCopyDone running 0, ?_⟩
    rw [State.recallDone_only only copy fetched part vpage lines left code whole room written linked, State.place_loans, State.place_copies,
      State.lendSend_crown]
    simp [State.onCrown, kept, only, copy]
  case stall => exact ⟨_, exec_crownStall running, State.beginHalt_halt running _ _ _ _ _, State.beginHalt_mem _ _ _ _ _ _⟩

end Machine
end Sys2Proof
end

section
/-!
PROOFS. Operations of other chips on this chip's pages, and the replies to its own (R451, R453, R502 to R505, R515, R525 to R527).
-/
namespace Sys2Proof
namespace Machine
namespace State

/-! A frame that arrives (R483). -/

/-- A frame that has passed leaves its counters, its credits and the keys of its link's slots; the rest of the device is as it was. -/
theorem passed_eq (s : State) (f : RxFrame) (type : Nat) : ∃ net keySlots out, s.passed f type = { s with net := net, keySlots := keySlots, out := out } := by
  have path : ∀ (t : State) (peer part : Nat) (g : Path → Path), ∃ net keySlots, t.onPath peer part g = { t with net := net, keySlots := keySlots } := by
    intro t peer part g
    refine List.foldlRecOn _ _ (motive := fun u : State => ∃ net keySlots, u = { t with net := net, keySlots := keySlots }) ⟨_, _, rfl⟩ ?_
    rintro _ ⟨net, keySlots, rfl⟩ j -
    exact ⟨_, _, rfl⟩
  have held : ∀ (t : State) (j : Nat), ∃ net out, t.ackHeld j = { t with net := net, out := out } := by
    intro t j
    unfold ackHeld
    dsimp only
    split
    · exact ⟨_, _, rfl⟩
    · exact ⟨_, _, rfl⟩
  unfold passed rxPassed
  extract_lets j t u
  obtain ⟨net, keySlots, counted⟩ : ∃ net keySlots, u = { s with net := net, keySlots := keySlots } := by
    simp only [u]
    split
    · exact ⟨_, _, rfl⟩
    · exact path t _ _ _
  obtain ⟨net', out, acked⟩ := held (u.emit (.control j false f.cls.toNat (f.payload.length / 256 + 1))) j
  rw [acked, counted]
  exact ⟨_, _, _, rfl⟩

@[simp] theorem passed_core (s : State) (f : RxFrame) (type n : Nat) : (s.passed f type).core n = s.core n := by
  obtain ⟨net, keySlots, out, h⟩ := s.passed_eq f type
  rw [h]; rfl

@[simp] theorem passed_keys (s : State) (f : RxFrame) (type : Nat) : (s.passed f type).keys = s.keys := by
  obtain ⟨net, keySlots, out, h⟩ := s.passed_eq f type
  rw [h]

/-- The Cuff deciphers the payload and leaves the header as it came. -/
theorem plain_eq (s : State) (f : RxFrame) (type : Nat) : s.plain f type = { f with payload := (s.plain f type).payload } := by
  unfold plain
  split <;> rfl

/-- A frame that arrives and is held leaves the device as `wait` makes it: the frame stays in the receive buffer (R483). -/
theorem receive_held {s : State} {f : RxFrame} {type : Nat} {act : RxFrame → State → Taken} {wait : State → State} (arrives : s.arrives f type)
    (holds : act (s.plain f type) (s.passed f type) = .held wait) : s.receive f type act = wait s := by
  -- with the effect of taking it replaced by what waiting leaves, the frame is one that is taken
  have same : s.receive f type act = s.receive f type (fun g u => .took (match act g u with | .took t => t | .held g => g s)) := by
    unfold receive
    rfl
  rw [same]
  exact receive_took arrives (by rw [holds])

/-! Frames that ask for lines or write them (R504, R505, R525, R526). -/

/-- Whole lines that may be written land, and nothing else of memory's bytes changes. -/
theorem lineWrite_dram {a b : State} {p off : Nat} {bs : Bytes} (write : a.lineWrite p off bs = some b) : b.mem.dram = (a.mem.write p off bs).dram := by
  have rbDrop_mem : ∀ t : State, (t.rbDrop p).mem = t.mem := fun t => foldl_keeps State.mem (fun _ _ => rfl)
  unfold lineWrite at write
  split at write
  · exact absurd write (by simp)
  · obtain rfl := Option.some.inj write
    rw [portWrite, wrote, rbDrop_mem]
    rfl

section Lines
variable {u a : State} {f : RxFrame} {p : Nat}
  (ordered : u.peerWaits f.src.toNat (linesOp f.opw).core (linesOp f.opw).slot (linesOp f.opw).relax = false)
include ordered

/-- Lines that a served page takes are noted and acknowledged. -/
theorem takePutLines_served {b : State} (other : f.cls ≠ 3)
    (served : u.access (.peer f.src.toNat) f.part.toNat ((linesOp f.opw).off / pageSize) true = (a, .served p))
    (lands : a.lineWrite p ((linesOp f.opw).off % pageSize) (f.payload.take (64 * (linesOp f.opw).lines)) = some b) :
    u.takePutLines f = .took (((b.heat (.peer f.src.toNat) p (linesOp f.opw).lines).noteData f.src.toNat (linesOp f.opw).core (linesOp f.opw).slot
      (linesOp f.opw).off (64 * (linesOp f.opw).lines) false).queueOn f.link 0x17 f.part.toNat 0 f.src.toNat
        (replyOpw (linesOp f.opw).core (linesOp f.opw).slot 0 0) []) := by
  simp only [takePutLines, other, ordered, served, lands, answer, replyOn, if_false, Bool.false_eq_true]

variable {ev : List MemEvent} (served : u.access (.peer f.src.toNat) f.part.toNat ((linesOp f.opw).off / pageSize) false = (a, .served p))
include served

/-- Lines of a served page that pass their checks go back. -/
theorem takeGet_read {z : State}
    (read : a.memRead (.peer f.src.toNat) p ((linesOp f.opw).off % pageSize / 64) (linesOp f.opw).lines ev = (z, true)) :
    u.takeGet f ev = .took ((z.heat (.peer f.src.toNat) p (linesOp f.opw).lines).queueOn f.link 0x14 f.part.toNat 2 f.src.toNat
      (replyOpw (linesOp f.opw).core (linesOp f.opw).slot 0 0) (z.mem.read p ((linesOp f.opw).off % pageSize) (64 * (linesOp f.opw).lines))) := by
  simp only [takeGet, ordered, served, read, replyOn, if_true, if_false, Bool.false_eq_true]

/-- A request whose lines do not pass their checks stays in the receive buffer, and the read has met the faults. -/
theorem takeGet_unread {z : State}
    (unread : a.memRead (.peer f.src.toNat) p ((linesOp f.opw).off % pageSize / 64) (linesOp f.opw).lines ev = (z, false)) :
    u.takeGet f ev = .held (fun s => (s.memRead (.peer f.src.toNat) p ((linesOp f.opw).off % pageSize / 64) (linesOp f.opw).lines ev).1) := by
  simp only [takeGet, ordered, served, unread, if_false, Bool.false_eq_true]

end Lines

/-! Partial writes of other chips (R393, R503, R525, R526). -/

section Partial
variable {u a b : State} {f : RxFrame} {w : OffOp} {p : Nat} {op : PartialOp} {who : Requester} {old : Option Bytes}
  (served : u.access (.peer f.src.toNat) f.part.toNat (w.off / pageSize) true = (a, .served p))
include served

/-- Data whose line is not held waits for it, and is noted for a SIGNAL that may follow (R506). -/
theorem takePartial_data_pending (pending : a.partialWrite who p (w.off % pageSize) op = (b, .pending)) (type : Nat) :
    u.takePartial f w op who type true = .took ((b.heat (.peer f.src.toNat) p 1).noteData f.src.toNat w.core w.slot w.off (partialLen op) false) := by
  simp only [takePartial, served, pending, if_true]

theorem takePartial_data_landed (landed : a.partialWrite who p (w.off % pageSize) op = (b, .landed old)) (type : Nat) :
    u.takePartial f w op who type true = .took ((((b.heat (.peer f.src.toNat) p 1).noteData f.src.toNat w.core w.slot w.off (partialLen op) false).brimSees p
      (w.off % pageSize) op (leNat (old.getD []))).answer who old) := by
  simp only [takePartial, served, landed, if_true]

/-- A signal or an atomic whose line is not held waits for it. -/
theorem takePartial_word_pending (pending : a.partialWrite who p (w.off % pageSize) op = (b, .pending)) (type : Nat) :
    u.takePartial f w op who type false = .took (b.heat (.peer f.src.toNat) p 1) := by
  simp only [takePartial, served, pending, if_false, Bool.false_eq_true]

theorem takePartial_word_landed (landed : a.partialWrite who p (w.off % pageSize) op = (b, .landed old)) (type : Nat) :
    u.takePartial f w op who type false = .took (((b.heat (.peer f.src.toNat) p 1).brimSees p (w.off % pageSize) op (leNat (old.getD []))).answer who old) := by
  simp only [takePartial, served, landed, if_false, Bool.false_eq_true]

end Partial

/-- What ATOMIC_REQ asks of its word (R503, R525): KIND of its OPW, and the operands in its payload. -/
def atomicAsked (f : RxFrame) : PartialOp :=
  let x := BitVec.ofNat 64 (leNat (f.payload.take 8))
  match (offOp f.opw).kind with
  | 0 => .add64 x
  | 1 => .add32 (x.setWidth 32)
  | _ => .cas x (BitVec.ofNat 64 (leNat ((f.payload.drop 8).take 8)))

section Ordered
variable {u : State} {f : RxFrame} (ordered : u.peerWaits f.src.toNat (offOp f.opw).core (offOp f.opw).slot (offOp f.opw).relax = false)
include ordered

/-- With nothing of its operation left to wait for, each of these frames is a partial write (R508, R526). -/
theorem takePutBytes_ordered : u.takePutBytes f = u.takePartial f (offOp f.opw) (.bytes (f.payload.take ((f.payload[63]?).getD 0).toNat))
    (.peer f.part.toNat f.src.toNat (offOp f.opw).core (offOp f.opw).slot f.link) 0x11 true := by
  simp only [takePutBytes, ordered, Bool.false_eq_true, if_false]

theorem takeSignal_ordered (sound : u.dataFailed f.src.toNat (offOp f.opw).core (offOp f.opw).slot = false) :
    u.takeSignal f = u.takePartial f (offOp f.opw) (.add64 1) (.signal f.part.toNat f.src.toNat (offOp f.opw).core (offOp f.opw).slot f.link) 0x12 false := by
  simp only [takeSignal, ordered, sound, Bool.false_eq_true, if_false]

theorem takeAtomic_ordered : u.takeAtomic f = u.takePartial f (offOp f.opw) (atomicAsked f)
    (.peer f.part.toNat f.src.toNat (offOp f.opw).core (offOp f.opw).slot f.link) 0x15 false :=
  if_neg (by rw [ordered]; exact Bool.false_ne_true)

end Ordered

/-! Replies to this chip's operations (R515, R525 to R527). -/

theorem replyFields_replyOpw {core slot status code : Nat} (hcore : core < 512) (hslot : slot < 64) (hstatus : status < 8) (hcode : code < 65536) :
    replyFields (replyOpw core slot status code) = (core, slot, status, code) := by
  simp only [replyFields, replyOpw, bitsNat, BitVec.toNat_ofNat, Nat.shiftRight_eq_div_pow, Prod.mk.injEq]
  omega

/-- A reply with status OK to a core's own operation goes to that operation, where no request of another chip has been passed on (R366). -/
theorem takeReply_own {u : State} {f : RxFrame} {n slot : Nat} (relays : u.net.relays = []) (core : n < 511) (slots : slot < 64)
    (names : f.opw = replyOpw n slot 0 0) (type : Nat) (land : Nat → State → MoverOp → MoverReq → State) :
    u.takeReply f type land = u.reply n slot f.src.toNat 0 0 (land n) := by
  have fields := replyFields_replyOpw (Nat.lt_succ_of_lt core) slots (by decide : 0 < 8) (by decide : 0 < 65536)
  have notEngine : ¬ n = 511 := Nat.ne_of_lt core
  simp only [takeReply, names, fields, relays, List.find?_nil, notEngine, false_and, if_false]

/-- The one operation of a core's mover has sent its whole length and awaits one last request, with no error so far. -/
structure AwaitsLast (u : State) (n : Nat) (m : MoverOp) (r : MoverReq) : Prop where
  only : (u.core n).mover = [m]
  asked : m.reqs = [r]
  sent : m.progress = m.len
  owed : m.owed = 0
  signal : m.signalOwed = false
  sound : m.status = 0
  notSend : m.op ≠ 0xC5

/-- What the last reply makes of the operation: it is done, and memory is as it was. -/
def LastReplied (u t : State) (n slot : Nat) : Prop :=
  (t.core n).mover.map (fun x => (x.slot, x.stage, x.status, x.reqs)) = [(slot, .done, 0, [])] ∧ t.mem = u.mem

/-- The last reply with status OK lands as its kind says, on a square buffer as it was before, and ends the operation (R512, R515). -/
theorem AwaitsLast.reply {u : State} {n : Nat} {m : MoverOp} {r : MoverReq} (waits : u.AwaitsLast n m r) {land : State → MoverOp → MoverReq → State}
    (mover : ∀ v, ((land v m r).core n).mover = (v.core n).mover) (mem : ∀ v, (land v m r).mem = v.mem) :
    u.LastReplied (u.reply n m.slot r.chip 0 0 land) n m.slot ∧
    ∃ v, (v.core n).sqb = (u.core n).sqb ∧ ((u.reply n m.slot r.chip 0 0 land).core n).sqb = ((land v m r).core n).sqb := by
  obtain ⟨only, asked, sent, owed, signal, sound, notSend⟩ := waits
  have taken : takeReq m r.chip = some (r, { m with reqs := [] }) := by simp [takeReq, asked]
  have onOp_sqb : ∀ (v : State) (g : MoverOp → MoverOp), ((v.onOp n m.slot g).core n).sqb = (v.core n).sqb := by simp [onOp]
  simp only [State.reply, moverOp_of_only only rfl, taken, Nat.zero_le, if_true]
  refine ⟨⟨?_, ?_⟩, _, onOp_sqb _ _, by rw [onOp_sqb, onOp_sqb]⟩
  · simp [mover, only, taken, MoverOp.settle, MoverOp.total, sent, owed, signal, sound, notSend]
  · simp [mem]

/-- A reply with status OK from the chip that the last request went to, as it lands and ends the operation. -/
theorem AwaitsLast.takeReply {u : State} {f : RxFrame} {n : Nat} {m : MoverOp} {r : MoverReq} (waits : u.AwaitsLast n m r) (relays : u.net.relays = [])
    (core : n < 511) (slots : m.slot < 64) (names : f.opw = replyOpw n m.slot 0 0) (chip : r.chip = f.src.toNat) (type : Nat)
    {land : Nat → State → MoverOp → MoverReq → State} (mover : ∀ v, ((land n v m r).core n).mover = (v.core n).mover)
    (mem : ∀ v, (land n v m r).mem = v.mem) :
    u.LastReplied (u.takeReply f type land) n m.slot ∧
    ∃ v, (v.core n).sqb = (u.core n).sqb ∧ ((u.takeReply f type land).core n).sqb = ((land n v m r).core n).sqb := by
  rw [takeReply_own relays core slots names, ← chip]
  exact waits.reply mover mem

/-- The bytes that a GET's request asked for stand at their place in the square buffer (R527). -/
theorem landGet_readSqb (payload : Bytes) (n : Nat) (v : State) (m : MoverOp) (r : MoverReq)
    (whole : ((payload.drop (m.at_ r.rel % 64)).take r.len).length = r.len) :
    ((landGet payload n v m r).core n).readSqb (m.al.toNat + r.rel) r.len = (payload.drop (m.at_ r.rel % 64)).take r.len := by
  have landed := Sparse.getRun_setRun_same 0 (v.core n).sqb (m.al.toNat + r.rel) ((payload.drop (m.at_ r.rel % 64)).take r.len)
  rw [whole] at landed
  simpa [landGet, Core.fillPiece, Core.readSqb] using landed

/-- The old value of an atomic stands at aAL (R502). -/
theorem landAtomic_readSqb (payload : Bytes) (n : Nat) (v : State) (m : MoverOp) (r : MoverReq) (whole : (payload.take m.len).length = m.len) :
    ((landAtomic payload n v m r).core n).readSqb m.al.toNat m.len = payload.take m.len := by
  have landed := Core.readSqb_writeSqb_same (v.core n) m.al.toNat (payload.take m.len)
  rw [whole] at landed
  simpa [landAtomic] using landed

/-- With no counter atomic of Brim under way an ATOMIC_RSP is none of Brim's (R589). -/
theorem brimReply_none {u : State} (atomics : u.brim.atomics = []) (f : RxFrame) : u.brimReply f = none := by
  simp [brimReply, atomics]

/-! Writes of engines leave the keys of every Cuff as they are (R374, R378). -/

@[simp] theorem translate_keySlots (s : State) (who : Asker) (part vpage : Nat) : (s.translate who part vpage).1.keySlots = s.keySlots := by
  unfold translate
  dsimp only
  split
  · rfl
  · split <;> rfl

@[simp] theorem place_keySlots (s : State) (kind part step a b c d : Nat) : (s.place kind part step a b c d).keySlots = s.keySlots := by
  obtain ⟨engine, counts, records, ringCount, h⟩ := s.place_eq kind part step a b c d
  rw [h]

@[simp] theorem pushEvent_keySlots (s : State) (kind : Nat) (body : List Nat) : (s.pushEvent kind body).keySlots = s.keySlots := by
  obtain ⟨mgmt, out, h⟩ := s.pushEvent_eq kind body
  rw [h]

@[simp] theorem ownerEvent_keySlots (s : State) (kind : Nat) (body : List Nat) : (s.ownerEvent kind body).keySlots = s.keySlots :=
  foldl_keeps State.keySlots (fun _ _ => rfl)

@[simp] theorem queueOn_keySlots (s : State) (j type part cls dst : Nat) (opw : BitVec 64) (payload : Bytes) :
    (s.queueOn j type part cls dst opw payload).keySlots = s.keySlots := rfl

@[simp] theorem ckptHold_keySlots (s : State) (i code : Nat) : (s.ckptHold i code).keySlots = s.keySlots := by
  have raised : ∀ n, (s.ckptRaise i code n).keySlots = s.keySlots := by
    intro n
    unfold ckptRaise
    dsimp only
    split <;> simp
  simp [ckptHold, raised]

@[simp] theorem engineAdd_keySlots (s : State) (chip part off x : Nat) : (s.engineAdd chip part off x).keySlots = s.keySlots := by
  unfold engineAdd sendTo
  split
  · rfl
  · cases s.chooseLink chip part <;> rfl

@[simp] theorem askRestore_keySlots (s : State) (part : Nat) : (s.askRestore part).keySlots = s.keySlots := by
  unfold askRestore
  dsimp only
  split
  · rfl
  · split
    · simp
    · split <;> simp

@[simp] theorem crownAsk_keySlots (s : State) (part code stream slot : Nat) : (s.crownAsk part code stream slot).keySlots = s.keySlots := by
  unfold crownAsk
  split
  · rfl
  · split <;> simp [setCrownPart]

@[simp] theorem recordFails_keySlots (s : State) (i groups : Nat) : (s.recordFails i groups).keySlots = s.keySlots := by
  unfold recordFails
  extract_lets page t u r
  split
  · rfl
  · split <;> simp [u, t]

@[simp] theorem takeSlot_keySlots (s : State) (cuff slot a0 a1 : Nat) : (s.takeSlot cuff slot a0 a1).1.keySlots = s.keySlots := by
  unfold takeSlot
  split <;> simp

@[simp] theorem takeWay_keySlots (s : State) (who : Asker) (p part : Nat) (kgen : Bool) : (s.takeWay who p part kgen).1.keySlots = s.keySlots := by
  refine foldl_keeps (s := (s, true)) (fun x : State × Bool => x.1.keySlots) ?_
  rintro ⟨t, ok⟩ c
  dsimp only
  split <;> simp

/-- An access may fill a translation cache, ask for a restore, raise a code or begin a halt; on no way does it load or zeroise a slot. -/
@[simp] theorem access_keySlots (s : State) (who : Asker) (part vpage : Nat) (write : Bool) : (s.access who part vpage write).1.keySlots = s.keySlots := by
  unfold access
  dsimp only
  repeat' split
  all_goals simp

@[simp] theorem portWrite_keySlots (s : State) (p off : Nat) (bs : Bytes) : (s.portWrite p off bs).keySlots = s.keySlots :=
  foldl_keeps State.keySlots (fun _ _ => rfl)

theorem lineWrite_keySlots {s t : State} {p off : Nat} {bs : Bytes} (write : s.lineWrite p off bs = some t) : t.keySlots = s.keySlots := by
  unfold lineWrite at write
  split at write
  · exact absurd write (by simp)
  · obtain rfl := Option.some.inj write
    exact portWrite_keySlots s p off bs

@[simp] theorem partialWrite_keySlots (s : State) (who : Requester) (p off : Nat) (op : PartialOp) : (s.partialWrite who p off op).1.keySlots = s.keySlots := by
  unfold partialWrite
  dsimp only
  repeat' split
  all_goals simp [applyPartial]

@[simp] theorem heat_keySlots (s : State) (who : Asker) (p lines : Nat) : (s.heat who p lines).keySlots = s.keySlots := by
  unfold heat
  dsimp only
  split
  · split <;> rfl
  · rfl

@[simp] theorem brimSees_keySlots (s : State) (p off : Nat) (op : PartialOp) (old : Nat) : (s.brimSees p off op old).keySlots = s.keySlots := by
  cases op with
  | add64 x =>
    refine foldl_keeps State.keySlots (fun t b => ?_)
    split
    · refine foldl_keeps State.keySlots (fun v x => ?_)
      split <;> rfl
    · rfl
  | _ => rfl

@[simp] theorem cuffWrite_keySlots (s : State) (who : Asker) (p off : Nat) (op : PartialOp) : (s.cuffWrite who p off op).1.keySlots = s.keySlots := by
  unfold cuffWrite
  split
  · split
    · split
      · next lands => simp [lineWrite_keySlots lands]
      · rfl
    · dsimp only
      split <;> simp
  · dsimp only
    split <;> simp

@[simp] theorem lendWrite_keySlots (s : State) (lender index : Nat) (w : EngWrite) : (s.lendWrite lender index w).1.keySlots = s.keySlots := by
  unfold lendWrite
  dsimp only
  split
  · rfl
  · split
    · refine foldl_keeps State.keySlots (fun t x => ?_)
      split <;> rfl
    · rfl
    · rfl
    · rfl

@[simp] theorem engTry_keySlots (s : State) (w : EngWrite) : (s.engTry w).1.keySlots = s.keySlots := by
  unfold engTry
  dsimp only
  split <;> simp

@[simp] theorem drainEngine_keySlots (s : State) : s.drainEngine.keySlots = s.keySlots := by
  refine foldl_keeps (s := (s.onMem (fun m => { m with engine := [] }), [])) (fun x : State × List EngWrite => x.1.keySlots) ?_
  rintro ⟨t, waiting⟩ w
  dsimp only
  split
  · rfl
  · split <;> simp

@[simp] theorem enginePut_keySlots (s : State) (region : Option Nat) (part o : Nat) (b : Bytes) : (s.enginePut region part o b).1.keySlots = s.keySlots := by
  unfold enginePut
  split
  · rfl
  · exact foldl_keeps State.keySlots (fun _ _ => rfl)

@[simp] theorem engineSignal_keySlots (s : State) (region : Option Nat) (p addr : Nat) : (s.engineSignal region p addr).keySlots = s.keySlots := by
  unfold engineSignal
  dsimp only
  split
  · rfl
  · split
    · rfl
    · split
      · rfl
      · unfold sendTo
        cases s.chooseLink _ _ <;> rfl

/-- The commands of torn partitions stop (R298): what their ends write goes to memory, never to a key. -/
@[simp] theorem enginesStop_keySlots (s : State) (ps : List Nat) : (s.enginesStop ps).keySlots = s.keySlots := by
  refine foldl_keeps State.keySlots (fun t r => foldl_keeps State.keySlots (fun v c => ?_))
  split
  · unfold ueTorn
    dsimp only
    split <;> simp [slotDone]
  · rfl

/-! The cut of a teardown (R451): sessions, partitions and key slots go only once the fence has drained. -/

/-- What the device knows of sessions and partitions, and which slots of its Cuffs hold keys. -/
def keyState (s : State) : Keys × Sparse (BitVec 64) := (s.keys, s.keySlots)

@[simp] theorem pushEvent_keyState (s : State) (kind : Nat) (body : List Nat) : (s.pushEvent kind body).keyState = s.keyState := by
  obtain ⟨mgmt, out, h⟩ := s.pushEvent_eq kind body
  rw [h]; rfl

@[simp] theorem lendSend_keyState (s : State) (pos : Nat) (m : LendMsg) : (s.lendSend pos m).keyState = s.keyState := by
  obtain ⟨net, h⟩ := s.lendSend_eq pos m
  rw [h]; rfl

@[simp] theorem tellPeers_keyState (s : State) (ps : List Nat) : (s.tellPeers ps).keyState = s.keyState := by
  refine foldl_keeps keyState (fun t j => ?_)
  split
  · exact foldl_keeps keyState (fun v p => foldl_keeps keyState (fun _ _ => rfl))
  · rfl

@[simp] theorem copiesCut_keyState (s : State) (ps : List Nat) : (s.copiesCut ps).keyState = s.keyState := by
  unfold copiesCut
  refine (foldl_keeps keyState (fun t c => ?_)).trans rfl
  split
  · exact lendSend_keyState t _ _
  · rfl

/-- The local cut, as the parts of the device that it writes one after another: regions, memory, copies, records, reductions, Brim, Crown. -/
theorem localCut_eq (s : State) (ps : List Nat) : ∃ (cut : Region → Region) (f g : Memory → Memory) (red : Reduce → Reduce)
      (brim : BrimNet → BrimNet) (crown : Crown → Crown),
    s.localCut ps = ((((((List.range 16).foldl (fun s r => s.onRegion r cut) s).onMem f).copiesCut ps).onMem g).onRed red |>.onBrim brim).onCrown crown :=
  ⟨_, _, _, _, _, fun _ => _, rfl⟩

@[simp] theorem localCut_keyState (s : State) (ps : List Nat) : (s.localCut ps).keyState = s.keyState := by
  obtain ⟨cut, f, g, red, brim, crown, h⟩ := s.localCut_eq ps
  have regions : ((List.range 16).foldl (fun s r => s.onRegion r cut) s).keyState = s.keyState := foldl_keeps keyState (fun _ _ => rfl)
  generalize (List.range 16).foldl (fun s r => s.onRegion r cut) s = t at h regions
  have copies := copiesCut_keyState (t.onMem f) ps
  generalize (t.onMem f).copiesCut ps = u at h copies
  calc (s.localCut ps).keyState = u.keyState := by rw [h]; rfl
    _ = t.keyState := copies
    _ = s.keyState := regions

@[simp] theorem ckptCut_keyState (s : State) (i : Nat) (ps : List Nat) : (s.ckptCut i ps).keyState = s.keyState := rfl
@[simp] theorem closeOps_keyState (s : State) (ps : List Nat) : (s.closeOps ps).keyState = s.keyState := rfl
@[simp] theorem drainCores_keyState (s : State) (ps : List Nat) : (s.drainCores ps).keyState = s.keyState := rfl
@[simp] theorem keysRaise_keyState (s : State) (code slot owner : Nat) : (s.keysRaise code slot owner).keyState = s.keyState := by simp [keyState, keysRaise]

/-- The teardown of an active session fences it, and its keys stay for now (R451). -/
theorem beginTeardown_active {s : State} {i : Nat} (active : (s.session i).state = .active) (cause : Nat) :
    ((s.beginTeardown i cause).session i).state = .ending ∧ (s.beginTeardown i cause).keySlots = s.keySlots := by
  have begins : ¬ ((s.session i).state = .none ∨ (s.session i).state = .ending) := by rw [active]; decide
  unfold beginTeardown
  extract_lets y ps stopped parts told
  rw [if_neg begins]
  have cut : (((((told.drainCores ps).tellPeers ps).closeOps ps).localCut ps).ckptCut i ps).keyState = parts.keyState := by simp [told]
  obtain ⟨keys, keySlots⟩ := Prod.mk.inj cut
  have fenced : parts.session i = stopped.session i := foldl_keeps (fun t : State => t.session i)
    (f := fun t p => t.setPart p { t.part p with state := .ending }) (fun _ _ => rfl)
  constructor
  · simp only [session, keys]
    change (parts.session i).state = _
    rw [fenced]
    simp [stopped]
  · calc _ = parts.keySlots := keySlots
      _ = stopped.keySlots := foldl_keeps State.keySlots (f := fun t p => t.setPart p { t.part p with state := .ending }) (fun _ _ => rfl)
      _ = s.keySlots := by simp [stopped]

/-- A frame of teardown fences the session of its partition (R453). -/
theorem takeTeardown_active {u : State} {f : RxFrame} (part : f.part ≠ 0) (held : (u.part f.part.toNat).state ≠ .free)
    (active : (u.session (u.part f.part.toNat).session).state = .active) :
    ((u.takeTeardown f).session (u.part f.part.toNat).session).state = .ending ∧ (u.takeTeardown f).keySlots = u.keySlots := by
  have begins : u.takeTeardown f = u.beginTeardown (u.part f.part.toNat).session 4 := by
    have other : f.part.toNat ≠ 0 := fun h => part (BitVec.eq_of_toNat_eq h)
    simp [takeTeardown, other, held]
  rw [begins]
  exact beginTeardown_active active 4

end State

/-! The commands. -/

section Commands
variable (s : State) (f : RxFrame)

theorem exec_putLines : exec (.putLines f) s = liveEng s (fun s => s.receive f 0x10 (fun f s => s.takePutLines f)) := rfl
theorem exec_putBytes : exec (.putBytes f) s = liveEng s (fun s => s.receive f 0x11 (fun f s => s.takePutBytes f)) := rfl
theorem exec_signalFrame : exec (.signalFrame f) s = liveEng s (fun s => s.receive f 0x12 (fun f s => s.takeSignal f)) := rfl
theorem exec_getReq (ev : List MemEvent) : exec (.getReq f ev) s = liveEng s (fun s => s.receive f 0x13 (fun f s => s.takeGet f ev)) := rfl
theorem exec_getData :
    exec (.getData f) s = liveEng s (fun s => s.receive f 0x14 (fun f s => .took (s.takeReply f 0x14 (State.landGet f.payload)))) := rfl
theorem exec_atomicReq : exec (.atomicReq f) s = liveEng s (fun s => s.receive f 0x15 (fun f s => s.takeAtomic f)) := rfl
theorem exec_atomicRsp : exec (.atomicRsp f) s =
    liveEng s (fun s => s.receive f 0x16 (fun f s => .took ((s.brimReply f).getD (s.takeReply f 0x16 (State.landAtomic f.payload))))) := rfl
theorem exec_ack : exec (.ack f) s = liveEng s (fun s => s.receive f 0x17 (fun f s => .took (s.takeReply f 0x17 (fun _ s _ _ => s)))) := rfl
theorem exec_teardownFrame : exec (.teardownFrame f) s = liveEng s (fun s => s.receive f 3 (fun f s => .took (s.takeTeardown f))) := rfl

end Commands

section Arrives
variable {s t : State} {f : RxFrame} {type : Nat} {act : RxFrame → State → Taken} (arrives : s.arrives f type)
include arrives

/-- A command that brings a frame which is taken: the effect of the frame, with the payload that the Cuff delivers, and then engines' writes. -/
theorem liveEng_took (took : act { f with payload := (s.plain f type).payload } (s.passed f type) = .took t) :
    liveEng s (fun s => s.receive f type act) = .next t.drainEngine := by
  rw [← State.plain_eq] at took
  obtain ⟨running, -⟩ := id arrives
  rw [liveEng_running s running, State.receive_took arrives took]

/-- A command that brings a frame which is held. -/
theorem liveEng_held {wait : State → State} (holds : act { f with payload := (s.plain f type).payload } (s.passed f type) = .held wait) :
    liveEng s (fun s => s.receive f type act) = .next (wait s).drainEngine := by
  rw [← State.plain_eq] at holds
  obtain ⟨running, -⟩ := id arrives
  rw [liveEng_running s running, State.receive_held arrives holds]

end Arrives

/-- Settles O42: each frame by what its effect makes of a page that is served, each reply by the end of the operation that awaits it. -/
theorem remoteOperations : Obligations.RemoteOperations := by
  unfold Obligations.RemoteOperations
  refine ⟨fun s f _ => ⟨?lines, ?bytes, ?signal, ?atomic⟩, fun s f _ => ⟨?get, ?replies, ?teardown⟩⟩
  case lines =>
    intro arrives other u w bytes ordered a p b served lands
    refine ⟨State.lineWrite_dram lands, ?_⟩
    rw [exec_putLines]
    exact liveEng_took arrives (State.takePutLines_served (f := { f with payload := (s.plain f 0x10).payload }) ordered other served lands)
  case bytes =>
    intro arrives u payload op noted ordered a p b served
    rw [exec_putBytes]
    have partialWrite := State.takePutBytes_ordered (f := { f with payload := payload }) ordered
    exact ⟨fun pending => liveEng_took arrives (partialWrite.trans (State.takePartial_data_pending (f := { f with payload := payload }) served pending _)),
      fun landed => liveEng_took arrives (partialWrite.trans (State.takePartial_data_landed (f := { f with payload := payload }) served landed _))⟩
  case signal =>
    intro arrives u ordered sound a p b served
    rw [exec_signalFrame]
    have partialWrite := State.takeSignal_ordered (f := { f with payload := (s.plain f 0x12).payload }) ordered sound
    exact ⟨fun pending => liveEng_took arrives (partialWrite.trans (State.takePartial_word_pending (f := { f with payload := (s.plain f 0x12).payload }) served pending _)),
      fun old landed => liveEng_took arrives (partialWrite.trans (State.takePartial_word_landed (f := { f with payload := (s.plain f 0x12).payload }) served landed _))⟩
  case atomic =>
    intro arrives u payload x op ordered a p b served
    rw [exec_atomicReq]
    have partialWrite := State.takeAtomic_ordered (f := { f with payload := payload }) ordered
    exact ⟨fun pending => liveEng_took arrives (partialWrite.trans (State.takePartial_word_pending (f := { f with payload := payload }) served pending _)),
      fun old landed => liveEng_took arrives (partialWrite.trans (State.takePartial_word_landed (f := { f with payload := payload }) served landed _))⟩
  case get =>
    intro arrives u w ordered a p ev z served
    rw [exec_getReq]
    exact ⟨fun read => liveEng_took arrives (State.takeGet_read (f := { f with payload := (s.plain f 0x13).payload }) ordered served read),
      fun unread => liveEng_held (wait := fun s => (s.memRead (.peer f.src.toNat) p (w.off % pageSize / 64) w.lines ev).1) arrives
        (State.takeGet_unread (f := { f with payload := (s.plain f 0x13).payload }) ordered served unread)⟩
  case replies =>
    intro m n slot core slots names waits ended
    refine ⟨?ack, ?data, ?old⟩
    case ack =>
      rintro r arrives ⟨relays, -, only, rfl, op, sent, owed, signal, sound, asked, chip, -, -⟩
      obtain ⟨done, v, before, after⟩ := State.AwaitsLast.takeReply (f := { f with payload := (s.plain f 0x17).payload })
        ⟨only, asked, sent, owed, signal, sound, by rw [op]; decide⟩ relays core slots names chip 0x17 (land := fun _ s _ _ => s) (fun _ => rfl) (fun _ => rfl)
      refine ⟨_, (exec_ack s f).trans (liveEng_took arrives rfl), done, ?_⟩
      rw [after, before, State.passed_core]
    case data =>
      rintro r arrives ⟨relays, -, only, rfl, op, sent, owed, signal, sound, asked, chip, -, -⟩ bs whole
      obtain ⟨done, v, before, after⟩ := State.AwaitsLast.takeReply (f := { f with payload := (s.plain f 0x14).payload })
        ⟨only, asked, sent, owed, signal, sound, by rw [op]; decide⟩ relays core slots names chip 0x14 (land := State.landGet (s.plain f 0x14).payload)
        (fun v => by simp [State.landGet, Core.fillPiece]) (fun _ => rfl)
      refine ⟨_, (exec_getData s f).trans (liveEng_took arrives rfl), done, ?_⟩
      rw [Core.readSqb, after]
      exact State.landGet_readSqb _ n v m r whole
    case old =>
      rintro r arrives ⟨relays, atomics, only, rfl, op, sent, owed, signal, sound, asked, chip, -, -⟩ bs whole
      obtain ⟨done, v, before, after⟩ := State.AwaitsLast.takeReply (f := { f with payload := (s.plain f 0x16).payload })
        ⟨only, asked, sent, owed, signal, sound, by rw [op]; decide⟩ relays core slots names chip 0x16 (land := State.landAtomic (s.plain f 0x16).payload)
        (fun v => by simp [State.landAtomic, Core.writeSqb]) (fun _ => rfl)
      refine ⟨_, (exec_atomicRsp s f).trans (liveEng_took arrives (by rw [State.brimReply_none atomics]; rfl)), done, ?_⟩
      rw [Core.readSqb, after]
      exact State.landAtomic_readSqb _ n v m r whole
  case teardown =>
    intro part arrives active held
    have parts : (s.passed f 3).part f.part.toNat = s.part f.part.toNat := by rw [State.part, State.passed_keys]; rfl
    have sessions : (s.passed f 3).session = s.session := by funext i; rw [State.session, State.passed_keys]; rfl
    have fenced := State.takeTeardown_active (u := s.passed f 3) (f := { f with payload := (s.plain f 3).payload }) part (by rwa [parts])
      (by rwa [parts, sessions])
    rw [parts] at fenced
    exact ⟨_, (exec_teardownFrame s f).trans (liveEng_took arrives rfl), fenced⟩

end Machine
end Sys2Proof
end
